-- ==== Sys2Proof/Word.lean ====
section
/-! DEFINITION. The widths of the machine's words and the names of register numbers (spec/04 R80, R83). -/

namespace Sys2Proof

/-- An instruction word W[95:0] (R80). -/
abbrev Word96 := BitVec 96
/-- A scalar register's contents (Table 1.2). -/
abbrev Word := BitVec 64
/-- A byte. -/
abbrev Byte := BitVec 8
/-- A virtual address (R52). -/
abbrev VAddr := BitVec 51
/-- A scalar register number s0 to s31. -/
abbrev SReg := BitVec 5
/-- A predicate register number p0 to p7. -/
abbrev PReg := BitVec 3
/-- A count base k0 to k6; the eighth code is no register (R83). -/
abbrev KReg := Fin 7
/-- A row mask register m0 to m7. -/
abbrev MReg := BitVec 3
/-- A tile register t0 to t127. -/
abbrev TReg := BitVec 7
/-- An accumulator a0 to a7. -/
abbrev AReg := BitVec 3
/-- A signal register g0 to g31. -/
abbrev GReg := BitVec 5
/-- A physical core, by PCORE (R296). -/
abbrev CoreId := Fin 208
/-- A partition number (R394). -/
abbrev PartId := Fin 64

/-- Sign extension to a scalar. -/
def sext64 {n : Nat} (x : BitVec n) : Word := x.signExtend 64
/-- Zero extension to a scalar. -/
def zext64 {n : Nat} (x : BitVec n) : Word := x.zeroExtend 64
/-- A truth value as a bit. -/
def bit1 (b : Bool) : BitVec 1 := BitVec.ofBool b

end Sys2Proof
end

