-- ==== Sys2Proof/Syntax.lean ====
section
/-! DEFINITION. The instructions and events of spec/opcode_table.json as one inductive type, with the operand
shapes of spec/04 to spec/11. Rows 0 to 175 are instructions; rows 176 to 291 are the machine's own steps, and
their arguments are what the outside world or the hardware's timing chooses (assumption log 4). -/

namespace Sys2Proof

/-- The four streams (R10, Table 1.1). -/
inductive StreamId where
  | load | exec | store | ctrl
deriving DecidableEq, Repr

/-- A guard (R81): none, or a predicate with or without inversion. -/
inductive Guard where
  | always
  | on (neg : Bool) (p : PReg)
deriving DecidableEq, Repr

/-- The count part of a source specifier (R84): `any`, or a count base and a signed offset. -/
inductive CountSpec where
  | any
  | at (k : KReg) (off : BitVec 5)
deriving DecidableEq, Repr

/-- A source specifier for a class of 2^n registers (R84). -/
structure Src (n : Nat) where
  reg : BitVec n
  spec : CountSpec
deriving DecidableEq, Repr

/-- A destination specifier for a class of 2^n registers (R85): readers 7 declare OPEN. -/
structure Dst (n : Nat) where
  reg : BitVec n
  rdr : BitVec 3
deriving DecidableEq, Repr

abbrev TSrc := Src 7
abbrev ASrc := Src 3
abbrev GSrc := Src 5
abbrev TDst := Dst 7
abbrev ADst := Dst 3
abbrev GDst := Dst 5

/-- A counted register (Table 1.4). -/
inductive CReg where
  | tile (r : TReg)
  | acc (r : AReg)
  | sig (r : GReg)
deriving DecidableEq, Repr

/-- Element types (Table 4.4). -/
inductive ElemTy where
  | i4 | u4 | i4x | i8 | u8 | i16 | u16 | i32 | u32 | i64 | u64
  | nf8 | nf16 | nf24 | nf32 | fp32 | fp64 | bf16 | e8m0
deriving DecidableEq, Repr

/-- Rounding selector (Table 3.5). -/
inductive RSel where
  | rmode | rne | rz | ru | rd
deriving DecidableEq, Repr

/-- Conditions of VCMP and VCMPB (R153, R154). -/
inductive Cond where
  | eq | ne | lt | le | gt | ge
deriving DecidableEq, Repr

/-- Operators of VRED and VSCAN (R160). -/
inductive RedOp where
  | add | min | max | and | or | xor
deriving DecidableEq, Repr

/-- Reductions of NRND (R208). -/
inductive RndFn where
  | trunc | rn1 | rnd
deriving DecidableEq, Repr

/-- Latched weight formats (R170). -/
inductive WFmt where
  | int8 | int4 | i4x | nf | fp64
deriving DecidableEq, Repr

/-- Scopes (Table 4.8). -/
inductive Scope where
  | stream | core | gang | die | pkg | sys
deriving DecidableEq, Repr

/-- Ordering kind with its scope (Tables 4.7, 4.8). -/
inductive OrdScp where
  | plain
  | acq (s : Scope)
  | rel (s : Scope)
  | ar (s : Scope)
deriving DecidableEq, Repr

/-- Conditions of SEMWT (R231). -/
inductive SemCond where
  | eq | ne | ge | geu | lt | ltu
deriving DecidableEq, Repr

/-- The four scopes a BAR may name (R236). -/
inductive BarScope where
  | core | gang | die | pkg
deriving DecidableEq, Repr

/-- The listed CSRs (Table 6.12). -/
inductive Csr where
  | status | rmode | loopit | drained | role | gsize | taskid | kernid | member | gmode | pqdepth
  | cause | epc | eaddr | eword0 | eword1 | retpc | dlwait0 | dlwait1 | dlwait2 | dlwait3
  | uhvec | udeleg0 | udeleg1 | shvec
deriving DecidableEq, Repr

/-- Semaphore operations as they travel and as the host or a peer issues them (Table 10.3). -/
inductive SemKind where
  | add | swp | cas | max | maxu | ld
deriving DecidableEq, Repr

/-- Errors that hardware reports to an engine's completion (Table 10.2, R172, R185). -/
inductive EngineErr where
  | none | uncorrectable | mismatch
deriving DecidableEq, Repr

/-- Structures of ECC_UNCORRECTABLE (R401, R404). -/
inductive EccStruct where
  | sreg (i : SReg) | preg (i : PReg) | kreg (i : KReg)
  | count (x : CReg)
  | cell (handle : BitVec 36)
  | tag (i : BitVec 9)
  | csr (c : Csr)
  | header
deriving DecidableEq, Repr

/-- Structures of MEMORY_ERROR (Table 26.1) with the place of the error. -/
inductive MemStruct where
  | global (granule : BitVec 46)
  | cistern (c : CoreId) (granule : BitVec 15)
  | wbuf (c : CoreId) (granule : BitVec 14)
  | tile (c : CoreId) (r : TReg) (row : BitVec 5)
  | acc (c : CoreId) (r : AReg) (row : BitVec 7)
  | state (c : CoreId) (x : EccStruct)
  | icache (c : CoreId)
deriving DecidableEq, Repr

/-- Who performs a semaphore operation in SEM_OP_PERFORM: a waiting stream, the host, or a peer device whose operation
was held (R232, R299, R412). -/
inductive SemParty where
  | peer (dev : BitVec 16)
  | stream (c : CoreId) (x : StreamId)
  | host (c : CoreId) (cell : BitVec 12) (k : SemKind) (b cmp : Word)
deriving DecidableEq, Repr

/-- What a packet carries (R377, R378): a PREM unit in 64-byte granules behind a presence mask, or a semaphore
operation. -/
inductive PacketBody where
  | prem (va : VAddr) (size : Nat) (mask : BitVec 64) (data : List Byte) (poison : BitVec 64)
  | sem (k : SemKind) (handle : Word) (b cmp : Word)
deriving DecidableEq, Repr

/-- What an acknowledgement says (R234, R380, R384): performed, with the old value of a semaphore operation, or turned
away with a base cause. -/
inductive AckRes where
  | ok (v : Word)
  | reject (cause : BitVec 7)
deriving DecidableEq, Repr

/-- A fabric packet (R377): unordered is its ordering class, CLS of the routing entry (R379). -/
structure Packet where
  src : BitVec 16
  dst : BitVec 16
  pkey : BitVec 16
  seq : BitVec 32
  unordered : Bool
  release : Bool
  body : PacketBody
deriving DecidableEq, Repr

/-- What a start does not read from the flash (Table 24.1): whether memory training succeeds. -/
structure BootInput where
  training : Bool
deriving DecidableEq, Repr

/-- A translation port as a function of the host names it through its BAR0 (R361, R370). -/
structure HostPort where
  fn : BitVec 6
  port : Fin 65
deriving DecidableEq, Repr

/-- Management registers without a row of their own (REGISTER_WRITE), with the value written. -/
inductive MgmtReg where
  | pctl (p : PartId) (v : BitVec 8)
  | group (p : PartId) (v : BitVec 4)
  | units (p : PartId) (v : BitVec 26)
  | slice (p : PartId) (v : BitVec 32)
  | saveBase (p : PartId) (v : Word)
  | saveSize (p : PartId) (v : Word)
  | share (p : PartId) (die : Bool) (v : BitVec 8)
  | depth (p : PartId) (v : BitVec 16)
  | udeleg0 (p : PartId) (v : Word)
  | udeleg1 (p : PartId) (v : Word)
  | shvec (p : PartId) (v : Word)
  | pkey (p : PartId) (v : BitVec 16)
  | vfpart (fn : BitVec 6) (p : PartId)
  | ptab (p : PartId) (v : Word)
  | ptlen (p : PartId) (v : BitVec 13)
  | s2 (p : PartId) (en : Bool) (root : Word)
  | exportRec (p : PartId) (i : BitVec 4) (valid : Bool) (key : BitVec 16) (pasid : BitVec 20)
      (vbase vsize : VAddr) (queue : BitVec 15) (node : BitVec 12)
  | devid (v : BitVec 16)
  | routing (bank : Bool) (dev : BitVec 16) (v : Word)
  | keyTab (bank : Bool) (key : BitVec 16) (v : BitVec 32)
  | remapEn (v : Bool)
  | remap (fn : BitVec 6) (vec : BitVec 11) (addr : Word) (data : BitVec 32) (valid : Bool)
  | errRd (v : BitVec 32)
  | qirq (q : BitVec 15) (v : BitVec 18)
  | bfilt (fn : BitVec 6) (b : BitVec 7) (v : Word)
  | srate (fn : BitVec 6) (b : BitVec 7) (v : BitVec 24)
  | tbase (fn : BitVec 6) (b : BitVec 7) (v : Word)
  | tlog2 (fn : BitVec 6) (b : BitVec 7) (v : BitVec 5)
  | trd (fn : BitVec 6) (b : BitVec 7) (v : BitVec 32)
  | lfctl (fn : BitVec 6) (b : BitVec 7) (v : BitVec 13)
  | lfbase (fn : BitVec 6) (b : BitVec 7) (v : Word)
  | lflen (fn : BitVec 6) (b : BitVec 7) (v : Word)
  | bsel (fn : BitVec 6) (b : BitVec 7)
  | fmMbrd (v : BitVec 32)
deriving DecidableEq, Repr

/-- A node of a graph: its queue, the launch's sequence number in that queue, and its index (R327). -/
structure NodeKey where
  queue : BitVec 15
  seq : BitVec 32
  node : BitVec 12
deriving DecidableEq, Repr

/-- What a launch needs of a loaded image: the handle the loader returned, the identifier it gave, GANG, and the entry
points of the four code sections (R286, R295, R328). -/
structure Image where
  handle : Word
  image : BitVec 32
  gang : Nat
  entryLoad : VAddr
  entryExec : VAddr
  entryStore : VAddr
  entryCtrl : VAddr
deriving DecidableEq, Repr

/-- The instructions and events, one constructor for each row of spec/opcode_table.json, in its order. -/
inductive Instr where
  -- major 0x01 (Table 6.1)
  | add (g : Guard) (d a b : SReg)
  | sub (g : Guard) (d a b : SReg)
  | mul (g : Guard) (d a b : SReg)
  | mulh (g : Guard) (d a b : SReg)
  | mulhu (g : Guard) (d a b : SReg)
  | div (g : Guard) (d a b : SReg)
  | divu (g : Guard) (d a b : SReg)
  | rem (g : Guard) (d a b : SReg)
  | remu (g : Guard) (d a b : SReg)
  | and (g : Guard) (d a b : SReg)
  | or (g : Guard) (d a b : SReg)
  | xor (g : Guard) (d a b : SReg)
  | shl (g : Guard) (d a b : SReg)
  | shr (g : Guard) (d a b : SReg)
  | sar (g : Guard) (d a b : SReg)
  | rot (g : Guard) (d a b : SReg)
  | min (g : Guard) (d a b : SReg)
  | max (g : Guard) (d a b : SReg)
  | minu (g : Guard) (d a b : SReg)
  | maxu (g : Guard) (d a b : SReg)
  | sel (g : Guard) (d a b : SReg) (p : PReg)
  | mov (g : Guard) (d a : SReg)
  | clz (g : Guard) (d a : SReg)
  | ctz (g : Guard) (d a : SReg)
  | popc (g : Guard) (d a : SReg)
  -- major 0x02 (Table 6.2)
  | addi (g : Guard) (d a : SReg) (imm : BitVec 48)
  | andi (g : Guard) (d a : SReg) (imm : BitVec 48)
  | ori (g : Guard) (d a : SReg) (imm : BitVec 48)
  | xori (g : Guard) (d a : SReg) (imm : BitVec 48)
  | shli (g : Guard) (d a : SReg) (sh : BitVec 6)
  | shri (g : Guard) (d a : SReg) (sh : BitVec 6)
  | sari (g : Guard) (d a : SReg) (sh : BitVec 6)
  | li (g : Guard) (d : SReg) (imm : BitVec 48)
  | lih (g : Guard) (d a : SReg) (imm : BitVec 16)
  | lea (g : Guard) (d a : SReg) (imm : BitVec 48)
  -- major 0x03 (Table 6.4)
  | cmpEq (g : Guard) (d : PReg) (a b : SReg)
  | cmpNe (g : Guard) (d : PReg) (a b : SReg)
  | cmpLt (g : Guard) (d : PReg) (a b : SReg)
  | cmpLe (g : Guard) (d : PReg) (a b : SReg)
  | cmpGt (g : Guard) (d : PReg) (a b : SReg)
  | cmpGe (g : Guard) (d : PReg) (a b : SReg)
  | cmpLtu (g : Guard) (d : PReg) (a b : SReg)
  | cmpLeu (g : Guard) (d : PReg) (a b : SReg)
  | cmpGtu (g : Guard) (d : PReg) (a b : SReg)
  | cmpGeu (g : Guard) (d : PReg) (a b : SReg)
  | pand (g : Guard) (d a b : PReg)
  | por (g : Guard) (d a b : PReg)
  | pnot (g : Guard) (d a : PReg)
  -- major 0x04 (Table 6.6, R124 to R127)
  | kset (g : Guard) (d : KReg) (imm : BitVec 16)
  | kadd (g : Guard) (d a : KReg) (imm : BitVec 16)
  | kmovKS (g : Guard) (d : KReg) (a : SReg)
  | kmovSK (g : Guard) (d : SReg) (a : KReg)
  | kmovKK (g : Guard) (d a : KReg)
  | cadv (g : Guard) (x : CReg) (rdr : BitVec 3)
  | crd (g : Guard) (d : SReg) (x : CReg)
  | cwait (g : Guard) (x : CReg) (k : KReg) (off : BitVec 5)
  -- major 0x05 (Tables 6.7, 6.10)
  | br (g : Guard) (off : BitVec 48)
  | bri (g : Guard) (a : SReg)
  | call (g : Guard) (d : SReg) (off : BitVec 48)
  | ret (g : Guard) (a : SReg)
  | loop (g : Guard) (d : SReg) (kmask : BitVec 7) (drain : Bool) (off : BitVec 48)
  | dpt (a b : SReg)
  | fork
  | join
  | endStream
  | post (g : Guard) (a : SReg)
  -- majors 0x20 to 0x24 (Table 9.1)
  | tld (g : Guard) (d : TDst) (base str : SReg) (off : BitVec 24)
  | tldp (g : Guard) (d : TDst) (n : BitVec 2) (rn1 : Bool) (base str : SReg) (off : BitVec 24)
  | tst (g : Guard) (a : TSrc) (base str : SReg) (off : BitVec 24)
  | tstp (g : Guard) (a : TSrc) (n : BitVec 2) (cm : Option TSrc) (base str : SReg) (off : BitVec 24)
  | ldsU8 (g : Guard) (t base : SReg) (off : BitVec 24)
  | ldsU16 (g : Guard) (t base : SReg) (off : BitVec 24)
  | ldsU32 (g : Guard) (t base : SReg) (off : BitVec 24)
  | ldsU64 (g : Guard) (t base : SReg) (off : BitVec 24)
  | ldsI8 (g : Guard) (t base : SReg) (off : BitVec 24)
  | ldsI16 (g : Guard) (t base : SReg) (off : BitVec 24)
  | ldsI32 (g : Guard) (t base : SReg) (off : BitVec 24)
  | stsU8 (g : Guard) (t base : SReg) (off : BitVec 24)
  | stsU16 (g : Guard) (t base : SReg) (off : BitVec 24)
  | stsU32 (g : Guard) (t base : SReg) (off : BitVec 24)
  | stsU64 (g : Guard) (t base : SReg) (off : BitVec 24)
  | lookup (g : Guard) (t base : SReg) (off : BitVec 24)
  | tagset (g : Guard) (t base : SReg) (off : BitVec 24)
  | taginv (g : Guard) (base : SReg) (off : BitVec 24)
  | probe (g : Guard) (t base : SReg) (off : BitVec 24) (range : BitVec 4)
  -- majors 0x40 to 0x46 (spec/07)
  | vadd (g : Guard) (d : TDst) (a b : TSrc) (ty : ElemTy) (rs : RSel) (sat : Bool) (mk : Option MReg)
  | vsub (g : Guard) (d : TDst) (a b : TSrc) (ty : ElemTy) (rs : RSel) (sat : Bool) (mk : Option MReg)
  | vmul (g : Guard) (d : TDst) (a b : TSrc) (ty : ElemTy) (rs : RSel) (sat : Bool) (mk : Option MReg)
  | vfma (g : Guard) (d : TDst) (a b c : TSrc) (ty : ElemTy) (rs : RSel) (sat : Bool) (mk : Option MReg)
  | vfms (g : Guard) (d : TDst) (a b c : TSrc) (ty : ElemTy) (rs : RSel) (sat : Bool) (mk : Option MReg)
  | vmin (g : Guard) (d : TDst) (a b : TSrc) (ty : ElemTy) (mk : Option MReg)
  | vmax (g : Guard) (d : TDst) (a b : TSrc) (ty : ElemTy) (mk : Option MReg)
  | vabs (g : Guard) (d : TDst) (a : TSrc) (ty : ElemTy) (sat : Bool) (mk : Option MReg)
  | vneg (g : Guard) (d : TDst) (a : TSrc) (ty : ElemTy) (sat : Bool) (mk : Option MReg)
  | vdiv (g : Guard) (d : TDst) (a b : TSrc) (ty : ElemTy) (rs : RSel) (sat : Bool) (mk : Option MReg)
  | vsqrt (g : Guard) (d : TDst) (a : TSrc) (ty : ElemTy) (rs : RSel) (sat : Bool) (mk : Option MReg)
  | vrcp (g : Guard) (d : TDst) (a : TSrc) (ty : ElemTy) (sat : Bool) (mk : Option MReg)
  | vrsq (g : Guard) (d : TDst) (a : TSrc) (ty : ElemTy) (sat : Bool) (mk : Option MReg)
  | vexp2 (g : Guard) (d : TDst) (a : TSrc) (ty : ElemTy) (sat : Bool) (mk : Option MReg)
  | vlog2 (g : Guard) (d : TDst) (a : TSrc) (ty : ElemTy) (sat : Bool) (mk : Option MReg)
  | vand (g : Guard) (d : TDst) (a b : TSrc) (ty : ElemTy) (mk : Option MReg)
  | vor (g : Guard) (d : TDst) (a b : TSrc) (ty : ElemTy) (mk : Option MReg)
  | vxor (g : Guard) (d : TDst) (a b : TSrc) (ty : ElemTy) (mk : Option MReg)
  | vnot (g : Guard) (d : TDst) (a : TSrc) (ty : ElemTy) (mk : Option MReg)
  | vshl (g : Guard) (d : TDst) (a b : TSrc) (ty : ElemTy) (mk : Option MReg)
  | vshr (g : Guard) (d : TDst) (a b : TSrc) (ty : ElemTy) (mk : Option MReg)
  | vsar (g : Guard) (d : TDst) (a b : TSrc) (ty : ElemTy) (mk : Option MReg)
  | vcmp (g : Guard) (d : TDst) (a b : TSrc) (cond : Cond) (ty : ElemTy) (mk : Option MReg)
  | vcmpb (g : Guard) (d : TDst) (a b : TSrc) (cond : Cond) (mk : Option MReg)
  | vsel (g : Guard) (d : TDst) (a b c : TSrc) (ty : ElemTy) (mk : Option MReg)
  | vcvt (g : Guard) (d : TDst) (a : TSrc) (sty dty : ElemTy) (rs : RSel) (sat : Bool) (part : BitVec 4)
      (mk : Option MReg)
  | vmov (g : Guard) (d : TDst) (a : TSrc) (mk : Option MReg)
  | vsplat (g : Guard) (d : TDst) (a : TSrc) (ty : ElemTy) (mk : Option MReg)
  | vgete (g : Guard) (d : TDst) (a b : TSrc) (ty : ElemTy) (mk : Option MReg)
  | vpute (g : Guard) (d : TDst) (a b c : TSrc) (ty : ElemTy) (mk : Option MReg)
  | vred (g : Guard) (d : TDst) (a : TSrc) (op : RedOp) (row : Bool) (ty : ElemTy) (rs : RSel) (sat : Bool)
      (mk : Option MReg)
  | vscan (g : Guard) (d : TDst) (a : TSrc) (op : RedOp) (row : Bool) (ty : ElemTy) (rs : RSel) (sat : Bool)
      (mk : Option MReg)
  | vpxor (g : Guard) (d : TDst) (a : TSrc) (tile : Bool) (ty : ElemTy) (mk : Option MReg)
  | vclmul (g : Guard) (d : TDst) (a b : TSrc) (hi : Bool) (mk : Option MReg)
  | vpopc (g : Guard) (d : TDst) (a : TSrc) (ty : ElemTy) (mk : Option MReg)
  | vclz (g : Guard) (d : TDst) (a : TSrc) (ty : ElemTy) (mk : Option MReg)
  | vperm (g : Guard) (d : TDst) (a b : TSrc) (ty : ElemTy) (mk : Option MReg)
  | vshuf (g : Guard) (d : TDst) (a b : TSrc) (mk : Option MReg)
  | vtrn (g : Guard) (d : TDst) (a : TSrc) (ty : ElemTy) (mk : Option MReg)
  | vbcastr (g : Guard) (d : TDst) (a b : TSrc) (mk : Option MReg)
  | vcomp (g : Guard) (d : TDst) (a b : TSrc) (ty : ElemTy) (mk : Option MReg)
  -- majors 0x80, 0x81 (spec/08)
  | wlatch (g : Guard) (d : GDst) (a : GSrc) (ws ss : SReg) (fmt : WFmt) (np : BitVec 2) (rn : Bool)
  | wclr (g : Guard)
  | mma (g : Guard) (d : ADst) (a : TSrc) (b : Option ASrc) (c : Option TSrc) (ty : ElemTy)
      (band ksel : BitVec 2) (mk : Option MReg) (zs : Bool)
  | amovToTile (g : Guard) (d : TDst) (a : ASrc) (q j : BitVec 2) (mk : Option MReg)
  | amovToAcc (g : Guard) (d : ADst) (a : TSrc) (q j : BitVec 2) (mk : Option MReg)
  | azero (g : Guard) (d : ADst)
  | aadd (g : Guard) (d : ADst) (a b : ASrc) (ty : ElemTy) (rs : RSel) (sat : Bool)
  | nsetl (g : Guard) (l : Fin 6) (a b c : SReg)
  | nsetb (g : Guard) (f : Fin 6) (a : SReg)
  | nstat (g : Guard) (d : SReg) (sel : Bool)
  | ngo (g : Guard) (d : GDst) (o : OrdScp)
  -- major 0xA0 (spec/11)
  | orient2 (g : Guard) (d : TDst) (pa pb pc : TSrc)
  | orient3 (g : Guard) (d : TDst) (pa pb pc pd : TSrc)
  | incirc (g : Guard) (d : TDst) (pa pb pc pd : TSrc)
  | insph (g : Guard) (d : TDst) (pa pb pc pd : TSrc)
  | segx (g : Guard) (d : TDst) (pa pb pc pd : TSrc)
  | gstat (g : Guard) (d : SReg) (sel : Bool)
  -- major 0xB0 (spec/09)
  | npack (g : Guard) (d : TDst) (a : TSrc) (mk : Option MReg)
  | nunpk (g : Guard) (d : TDst) (a : TSrc) (mk : Option MReg)
  | nrnd (g : Guard) (d : TDst) (a : TSrc) (fn : RndFn) (ty : ElemTy) (rs : RSel) (sat : Bool) (mk : Option MReg)
  | nmom (g : Guard) (d : TDst) (a b : TSrc) (c : SReg) (ty : ElemTy) (rs : RSel) (sat : Bool) (mk : Option MReg)
  | nupd (g : Guard) (d : TDst) (a b : TSrc) (c : SReg) (ty : ElemTy) (k : MReg)
  | nupdCm (g : Guard) (d : TDst) (a b : TSrc) (c : SReg) (ty : ElemTy) (k : MReg)
  -- majors 0xC0, 0xC1, 0xC2 (spec/10)
  | pcopy (g : Guard) (d : GDst) (o : OrdScp) (a b c : SReg) (esz : BitVec 3)
  | pgath (g : Guard) (d : GDst) (o : OrdScp) (a b c e : SReg) (esz : BitVec 3) (iw : Bool)
  | pscat (g : Guard) (d : GDst) (o : OrdScp) (a b c e : SReg) (esz : BitVec 3) (iw : Bool)
  | pfill (g : Guard) (d : GDst) (o : OrdScp) (a b c : SReg) (esz : BitVec 3)
  | pwld (g : Guard) (d : GDst) (o : OrdScp) (a b c : SReg) (scl : Option SReg)
  | prem (g : Guard) (d : GDst) (o : OrdScp) (a b c e : SReg) (esz : BitVec 3)
  | presume (g : Guard) (d : GDst)
  | pcancel (g : Guard) (d : GDst)
  | pqstat (g : Guard) (d : SReg) (sel : Fin 3)
  | semadd (g : Guard) (o : OrdScp) (d a b : SReg)
  | semswp (g : Guard) (o : OrdScp) (d a b : SReg)
  | semcas (g : Guard) (o : OrdScp) (d a b c : SReg)
  | semmax (g : Guard) (o : OrdScp) (d a b : SReg) (u : Bool)
  | semld (g : Guard) (o : OrdScp) (d a : SReg)
  | semwt (g : Guard) (o : OrdScp) (d a b : SReg) (cond : SemCond)
  | fence (g : Guard) (o : OrdScp)
  | bar (g : Guard) (ar : Bool) (s : BarScope)
  -- major 0xE0 (Table 4.9)
  | nop (g : Guard)
  | trap (g : Guard) (imm : BitVec 16)
  | bkpt (g : Guard) (imm : BitVec 16)
  | csrr (g : Guard) (d : SReg) (c : Csr)
  | csrw (g : Guard) (c : Csr) (a : SReg)
  | csrx (g : Guard) (d : SReg) (c : Csr) (a : SReg)
  | tick (g : Guard) (d : SReg)
  | eret
  | resumeRetry (g : Guard) (x : StreamId) (a : SReg)
  | resumeSkip (g : Guard) (x : StreamId)
  -- events of the cores (spec/95)
  | instructionFetch (c : CoreId) (x : StreamId) (useCache : Bool)
  | countWaitResume (c : CoreId) (x : StreamId)
  | issueIntervalEnd (c : CoreId) (mismatch : Bool)
  | vectorWriteComplete (c : CoreId) (i : Nat)
  | tileLoadComplete (c : CoreId) (i : Nat) (err : Bool)
  | tileStorePerformed (c : CoreId) (x : StreamId)
  | scalarLoadReturn (c : CoreId) (x : StreamId) (err : Bool)
  | scalarStorePerformed (c : CoreId) (x : StreamId)
  | pageWalkComplete (c : CoreId) (x : StreamId) (useL2 wide ecc : Bool)
  | priResponse (p : PartId) (pasid : BitVec 20) (page : BitVec 36) (ok : Bool)
  | arrayQueueRoom (c : CoreId) (x : StreamId)
  | wlatchComplete (c : CoreId) (err : EngineErr)
  | wclrExecute (c : CoreId)
  | mmaComplete (c : CoreId) (mismatch : Bool)
  | nestGroupComplete (c : CoreId)
  | nestComplete (c : CoreId) (err : EngineErr)
  | geomAccept (c : CoreId)
  | geomComplete (c : CoreId) (mismatch : Bool)
  | pumpQueueRoom (c : CoreId) (x : StreamId)
  | pumpTakeCommand (c : CoreId) (pump : Bool)
  | pumpCommandEnd (c : CoreId) (pump : Bool) (err : EngineErr)
  | pumpPark (c : CoreId) (pump : Bool)
  | premUnitAck (c : CoreId) (pump : Bool)
  | semOpPerform (who : SemParty) (mismatch : Bool)
  | semOpResult (c : CoreId) (x : StreamId)
  | semwtHoldExpire (c : CoreId) (x : StreamId)
  | joinComplete (c : CoreId)
  | barComplete (c : CoreId)
  | streamEnded (c : CoreId) (x : StreamId)
  | taskRetire (c : CoreId)
  | watchdogExpire (c : CoreId)
  | trapDelivery (c : CoreId)
  | eccUncorrectable (c : CoreId) (x : Option StreamId) (what : EccStruct)
  -- answers and mailboxes (spec/20, spec/23)
  | answerRetry (fn : BitVec 6) (taskid : Word) (role : BitVec 16)
  | answerSkip (fn : BitVec 6) (taskid : Word) (role : BitVec 16)
  | answerAbandon (fn : BitVec 6) (taskid : Word) (role : BitVec 16)
  | mbrdWrite (fn : BitVec 6) (v : BitVec 32)
  -- the graph engine (spec/19, spec/20, spec/25)
  | notifyWidxWrite (q : BitVec 15) (pasid : Option (BitVec 20)) (v : BitVec 32)
  | requestPacket (q : BitVec 15) (pasid : Option (BitVec 20)) (cmd : BitVec 512)
  | queueEnable (q : BitVec 15) (desc : BitVec 512)
  | queueDisable (q : BitVec 15)
  | commandFetch (q : BitVec 15)
  | cmdNop (q : BitVec 15)
  | cmdLaunch (q : BitVec 15)
  | cmdWait (q : BitVec 15)
  | cmdSignal (q : BitVec 15)
  | queueUnblock (q : BitVec 15)
  | signalPerform (q : BitVec 15)
  | launchComplete (q : BitVec 15) (seq : BitVec 32)
  | agingStep (q : BitVec 15)
  | gangStart (n : NodeKey)
  | gangRestore (n : NodeKey)
  | sliceEnd (grp : BitVec 4)
  | drainWithdraw (n : NodeKey)
  | drainComplete (c : CoreId)
  | hardStop (c : CoreId)
  | saveComplete (n : NodeKey)
  | zeroingComplete (c : CoreId)
  | functionLevelReset (vf : BitVec 6)
  | hostAbandon (q : BitVec 15) (seq : BitVec 32)
  | hostMemoryAccess (p : PartId) (pa : BitVec 52) (n : Nat) (write : Option (List Byte))
  -- translation ports (spec/21)
  | portDoorWrite (port : HostPort) (cmd : List Word)
  | invVa (port : Fin 65)
  | invPasid (port : Fin 65)
  | invIpa (port : Fin 65)
  | invAll (port : Fin 65)
  | aperture (port : Fin 65)
  | migrate (port : Fin 65)
  | portDrainComplete (port : Fin 65)
  | pstatRead (port : HostPort)
  -- host and fabric (spec/23)
  | qmapWrite (q : BitVec 15) (v : BitVec 32)
  | linkTrain (l : Fin 24) (elide : Bool)
  | flitCrcError (l : Fin 24)
  | packetReceive (pkt : Packet) (mismatch : Bool)
  | packetAck (dev : BitVec 16) (seq : BitVec 32) (result : AckRes)
  | linkFaultDetect (l : Fin 24)
  | linkResolveExpire (l : Fin 24)
  | linkUp (l : Fin 24)
  | sourceResetNotice (dev : BitVec 16)
  | routingSwap
  | keySwap
  | swapComplete (key : Bool)
  -- the start (spec/24)
  | powerOn (inp : BootInput) (full : Bool)
  | ovoneReady
  | readyTimeout
  | answerFlashWrite (data : BitVec 512)
  | answerRestart (inp : BootInput)
  | attestRequest (fn : BitVec 6) (p : BitVec 16) (nonce : BitVec 256)
  | attestReportPost
  -- partitions and banks (spec/25, spec/27)
  | partitionEnable (p : PartId)
  | partitionDisable (p : PartId)
  | bandwidthTick (die : Bool) (first : List CoreId)
  | bankownWrite (b : BitVec 7) (v : BitVec 7)
  | bclaimClaim (fn : BitVec 6) (b : BitVec 7) (pfToo : Bool)
  | bclaimRelease (fn : BitVec 6) (b : BitVec 7)
  | bctlWrite (fn : BitVec 6) (b : BitVec 7) (v : Word)
  | bstatRead (fn : BitVec 6) (b : BitVec 7)
  | stoptickArm (fn : BitVec 6) (b : BitVec 7) (tick : Word) (arm act : Bool)
  | stopTick (b : BitVec 7)
  | release (fn : BitVec 6) (b : BitVec 7)
  | sampleRecord (b : BitVec 7) (rec : BitVec 384)
  | twrRead (fn : BitVec 6) (b : BitVec 7)
  | leapfrogCheckpoint (b : BitVec 7)
  | leap (fn : BitVec 6) (b : BitVec 7) (x : StreamId) (go : Bool)
  | replayDiverge (b : BitVec 7)
  -- reliability and power (spec/26, spec/28)
  | memoryError (what : MemStruct) (uncorrectable : Bool) (syndrome : BitVec 32)
  | coreOffline (c : CoreId)
  | scrubRead (region : Fin 40) (corrected uncorrectable : Bool)
  | sensorSample (temps : Vector Nat 40) (die0 die1 : Vector Nat 4)
  | powerSample (watts : BitVec 12)
  | thermalStop
  | pwrctlWrite (v : BitVec 12)
  | registerWrite (r : MgmtReg)
  | imageLoaded (p : PartId) (img : Image) (sections : List Byte)
  | migrateCopyComplete (port : Fin 65) (bad : List Nat)
  | packetRefused (dev : BitVec 16) (seq : BitVec 32)
deriving DecidableEq, Repr

end Sys2Proof
end

