-- ==== Sys2Proof/WellFormed.lean ====
section
/-! DEFINITION. Which operand values an instruction's page admits: the checks of decode step 5 that are not bits
of a form (spec/04 R103, with the pages of spec/06 to spec/11). An event is no word and is always well formed. -/

namespace Sys2Proof

namespace ElemTy

/-- Width of an element in bits (Table 3.1). -/
def bits : ElemTy → Nat
  | i4 | u4 | i4x => 4
  | i8 | u8 | nf8 | e8m0 => 8
  | i16 | u16 | nf16 | bf16 => 16
  | nf24 => 24
  | i32 | u32 | nf32 | fp32 => 32
  | i64 | u64 | fp64 => 64

/-- Elements per tile (Table 3.1). -/
def perTile (t : ElemTy) : Nat := 32768 / t.bits

/-- Type set INT (Table 7.1). -/
def isInt : ElemTy → Bool
  | i8 | u8 | i16 | u16 | i32 | u32 | i64 | u64 => true
  | _ => false

/-- Type set FLT (Table 7.1). -/
def isFlt : ElemTy → Bool
  | nf8 | nf16 | nf32 | fp32 | fp64 => true
  | _ => false

/-- Type set TRN (Table 7.1). -/
def isTrn : ElemTy → Bool
  | nf16 | nf32 | fp32 | fp64 => true
  | _ => false

/-- Type set BITS (Table 7.1): every type of 8, 16, 32 or 64 bits. -/
def isBits : ElemTy → Bool
  | i4 | u4 | i4x | nf24 => false
  | _ => true

/-- An integer type of any width, I4X apart (R60). -/
def isInteger : ElemTy → Bool
  | i4 | u4 => true
  | t => t.isInt

/-- A float a conversion may round to or from (Table 7.7): nf8 to nf32, fp32, fp64. -/
def isFloat : ElemTy → Bool
  | nf24 => true
  | t => t.isFlt

/-- Signed where signedness matters (R143). -/
def signed : ElemTy → Bool
  | i4 | i8 | i16 | i32 | i64 => true
  | _ => false

end ElemTy

/-- The conversion pairs of Table 7.7 with their RS and SAT columns. -/
def cvtOk (s d : ElemTy) (rs : RSel) (sat : Bool) : Bool :=
  if s == d then false
  else if d == .i4x then (s != .bf16 && s != .e8m0) && !sat
  else if s == .bf16 || s == .e8m0 then (d == .fp32 || d == .fp64) && rs == .rmode && !sat
  else if d == .bf16 then s == .fp32 || s == .fp64
  else if d == .e8m0 then (s == .fp32 || s == .fp64) && rs == .rmode && !sat
  else if s.isInteger || s == .i4x then (d.isInteger && rs == .rmode) || d.isFloat
  else s.isFloat && (d.isInteger || d.isFloat)

/-- Number of parts q of a conversion (R156). -/
def cvtParts (s d : ElemTy) : Nat :=
  let nS := s.perTile
  let nD := d.perTile
  if nD ≤ nS then (nS + nD - 1) / nD else (nD + nS - 1) / nS

/-- A point group of n registers does not reach past t127 (R93). -/
def groupOk (s : TSrc) (n : Nat) : Bool := s.reg.toNat + n ≤ 128

/-- RS and SAT of arithmetic on INT and FLT (Table 7.3). -/
def arithOk (ty : ElemTy) (rs : RSel) : Bool := ty.isFlt || (ty.isInt && rs == .rmode)

/-- The checks of decode step 5 on operand values (R103). -/
def Instr.wf : Instr → Bool
  | .loop _ d _ _ _ => d != 0
  | .tldp _ _ n rn1 _ _ _ => !(rn1 && n == 3)
  | .tstp _ _ n cm _ _ _ => cm.isNone || n == 3
  | .vadd _ _ _ _ ty rs _ _ | .vsub _ _ _ _ ty rs _ _ | .vmul _ _ _ _ ty rs _ _
  | .vfma _ _ _ _ _ ty rs _ _ | .vfms _ _ _ _ _ ty rs _ _ => arithOk ty rs
  | .vmin _ _ _ _ ty _ | .vmax _ _ _ _ ty _ => ty.isInt || ty.isFlt
  | .vabs _ _ _ ty sat _ | .vneg _ _ _ ty sat _ => ty.isInt || (ty.isFlt && !sat)
  | .vdiv _ _ _ _ ty _ _ _ | .vsqrt _ _ _ ty _ _ _ => ty.isFlt
  | .vrcp _ _ _ ty _ _ | .vrsq _ _ _ ty _ _ | .vexp2 _ _ _ ty _ _ | .vlog2 _ _ _ ty _ _ => ty.isTrn
  | .vand _ _ _ _ ty _ | .vor _ _ _ _ ty _ | .vxor _ _ _ _ ty _ | .vnot _ _ _ ty _
  | .vshl _ _ _ _ ty _ | .vshr _ _ _ _ ty _ | .vsar _ _ _ _ ty _ => ty.isInt
  | .vcmp _ _ _ _ _ ty _ => ty.isInt || ty.isFlt
  | .vsel _ _ _ _ _ ty _ => ty.isBits
  | .vcvt _ _ _ sty dty rs sat part _ => cvtOk sty dty rs sat && part.toNat < cvtParts sty dty
  | .vsplat _ _ _ ty _ | .vgete _ _ _ _ ty _ | .vpute _ _ _ _ _ ty _ => ty.isBits
  | .vred _ _ _ op _ ty rs sat _ | .vscan _ _ _ op _ ty rs sat _ =>
    match op with
    | .add => arithOk ty rs
    | .min | .max => (ty.isInt || ty.isFlt) && rs == .rmode && !sat
    | .and | .or | .xor => ty.isInt && rs == .rmode && !sat
  | .vpxor _ _ _ _ ty _ => ty == .u8 || ty == .u16 || ty == .u32 || ty == .u64
  | .vpopc _ _ _ ty _ | .vclz _ _ _ ty _ => ty.isInt
  | .vperm _ _ _ _ ty _ | .vtrn _ _ _ ty _ | .vcomp _ _ _ _ ty _ => ty.isBits
  | .wlatch _ _ _ _ ss fmt np rn =>
    if fmt == .nf then !(rn && np == 3) else np == 0 && !rn && ss == 0
  | .mma _ _ _ _ c ty band _ _ _ =>
    match ty with
    | .i8 | .i4 => c.isNone
    | .nf8 | .nf16 | .nf32 => true
    | .fp64 => c.isNone && band.toNat < 2
    | _ => false
  | .aadd _ _ _ _ ty rs _ => ty == .fp32 || ty == .fp64 || (ty == .i32 && rs == .rmode)
  | .orient2 _ _ a b c => groupOk a 2 && groupOk b 2 && groupOk c 2
  | .orient3 _ _ a b c d => groupOk a 3 && groupOk b 3 && groupOk c 3 && groupOk d 3
  | .incirc _ _ a b c d | .segx _ _ a b c d => groupOk a 2 && groupOk b 2 && groupOk c 2 && groupOk d 2
  | .insph _ _ a b c d => groupOk a 3 && groupOk b 3 && groupOk c 3 && groupOk d 6
  | .nrnd _ _ _ fn ty rs sat _ =>
    (ty == .nf8 || ty == .nf16 || ty == .nf24) && (fn == .rnd || (rs == .rmode && !sat))
  | .nmom _ _ _ _ _ ty _ _ _ => ty == .fp32 || ty == .nf32
  | .nupd _ _ _ _ _ ty _ | .nupdCm _ _ _ _ _ ty _ => ty == .fp32 || ty == .nf32
  | .fence _ o => o != .plain
  | .add .. | .sub .. | .mul .. | .mulh .. | .mulhu .. | .div .. | .divu .. | .rem .. | .remu .. | .and ..
  | .or .. | .xor .. | .shl .. | .shr .. | .sar .. | .rot .. | .min .. | .max .. | .minu .. | .maxu ..
  | .sel .. | .mov .. | .clz .. | .ctz .. | .popc .. | .addi .. | .andi .. | .ori .. | .xori .. | .shli ..
  | .shri .. | .sari .. | .li .. | .lih .. | .lea .. | .cmpEq .. | .cmpNe .. | .cmpLt .. | .cmpLe ..
  | .cmpGt .. | .cmpGe .. | .cmpLtu .. | .cmpLeu .. | .cmpGtu .. | .cmpGeu .. | .pand .. | .por .. | .pnot ..
  | .kset .. | .kadd .. | .kmovKS .. | .kmovSK .. | .kmovKK .. | .cadv .. | .crd .. | .cwait ..
  | .br .. | .bri .. | .call .. | .ret .. | .dpt .. | .fork | .join | .endStream | .post ..
  | .tld .. | .tst .. | .ldsU8 .. | .ldsU16 .. | .ldsU32 .. | .ldsU64 .. | .ldsI8 .. | .ldsI16 .. | .ldsI32 ..
  | .stsU8 .. | .stsU16 .. | .stsU32 .. | .stsU64 .. | .lookup .. | .tagset .. | .taginv .. | .probe ..
  | .vcmpb .. | .vmov .. | .vclmul .. | .vshuf .. | .vbcastr .. | .wclr .. | .amovToTile .. | .amovToAcc ..
  | .azero .. | .nsetl .. | .nsetb .. | .nstat .. | .ngo .. | .gstat .. | .npack .. | .nunpk ..
  | .pcopy .. | .pgath .. | .pscat .. | .pfill .. | .pwld .. | .prem .. | .presume .. | .pcancel .. | .pqstat ..
  | .semadd .. | .semswp .. | .semcas .. | .semmax .. | .semld .. | .semwt .. | .bar ..
  | .nop .. | .trap .. | .bkpt .. | .csrr .. | .csrw .. | .csrx .. | .tick .. | .eret | .resumeRetry ..
  | .resumeSkip .. => true
  | .instructionFetch .. | .countWaitResume .. | .issueIntervalEnd .. | .vectorWriteComplete ..
  | .tileLoadComplete .. | .tileStorePerformed .. | .scalarLoadReturn .. | .scalarStorePerformed ..
  | .pageWalkComplete .. | .priResponse .. | .arrayQueueRoom .. | .wlatchComplete .. | .wclrExecute ..
  | .mmaComplete .. | .nestGroupComplete .. | .nestComplete .. | .geomAccept .. | .geomComplete ..
  | .pumpQueueRoom .. | .pumpTakeCommand .. | .pumpCommandEnd .. | .pumpPark .. | .premUnitAck ..
  | .semOpPerform .. | .semOpResult .. | .semwtHoldExpire .. | .joinComplete .. | .barComplete ..
  | .streamEnded .. | .taskRetire .. | .watchdogExpire .. | .trapDelivery .. | .eccUncorrectable ..
  | .answerRetry .. | .answerSkip .. | .answerAbandon .. | .mbrdWrite .. | .notifyWidxWrite ..
  | .requestPacket .. | .queueEnable .. | .queueDisable .. | .commandFetch .. | .cmdNop .. | .cmdLaunch ..
  | .cmdWait .. | .cmdSignal .. | .queueUnblock .. | .signalPerform .. | .launchComplete .. | .agingStep ..
  | .gangStart .. | .gangRestore .. | .sliceEnd .. | .drainWithdraw .. | .drainComplete .. | .hardStop ..
  | .saveComplete .. | .zeroingComplete .. | .functionLevelReset .. | .hostAbandon .. | .hostMemoryAccess ..
  | .portDoorWrite .. | .invVa .. | .invPasid .. | .invIpa .. | .invAll .. | .aperture .. | .migrate ..
  | .portDrainComplete .. | .pstatRead .. | .qmapWrite .. | .linkTrain .. | .flitCrcError ..
  | .packetReceive .. | .packetAck .. | .linkFaultDetect .. | .linkResolveExpire .. | .linkUp ..
  | .sourceResetNotice .. | .routingSwap .. | .keySwap .. | .swapComplete .. | .powerOn .. | .ovoneReady ..
  | .readyTimeout .. | .answerFlashWrite .. | .answerRestart .. | .attestRequest .. | .attestReportPost ..
  | .partitionEnable .. | .partitionDisable .. | .bandwidthTick .. | .bankownWrite .. | .bclaimClaim ..
  | .bclaimRelease .. | .bctlWrite .. | .bstatRead .. | .stoptickArm .. | .stopTick .. | .release ..
  | .sampleRecord .. | .twrRead .. | .leapfrogCheckpoint .. | .leap .. | .replayDiverge .. | .memoryError ..
  | .coreOffline .. | .scrubRead .. | .sensorSample .. | .powerSample .. | .thermalStop .. | .pwrctlWrite ..
  | .registerWrite .. | .imageLoaded .. | .migrateCopyComplete .. | .packetRefused .. => true

end Sys2Proof
end

