-- ==== Sys2Proof/Decode.lean ====
section
/-! DEFINITION. Instruction words: the forms of spec/04 (R80 to R94), the opcode map (Table 4.9), the decode
checks in their order (R103), the packing in memory (R95 to R97), and after them the encoder. -/

namespace Sys2Proof

/-! ## The forms -/

/-- Upper 24 bits of every word (R80). -/
structure Head where
  maj : BitVec 8
  min : BitVec 8
  p : BitVec 1
  n : BitVec 1
  pred : BitVec 3
  ord : BitVec 3
deriving DecidableEq, Repr

/-- Form T (Table 4.1). -/
structure FormT where
  dest : BitVec 10
  a : BitVec 15
  b : BitVec 15
  c : BitVec 15
  mode : BitVec 17
deriving DecidableEq, Repr

/-- Form S (R88). -/
structure FormS where
  d : BitVec 5
  a : BitVec 5
  b : BitVec 5
  c : BitVec 5
  rsv : BitVec 52
deriving DecidableEq, Repr

/-- Form I (R89). -/
structure FormI where
  d : BitVec 5
  a : BitVec 5
  rsv : BitVec 14
  imm : BitVec 48
deriving DecidableEq, Repr

/-- Form B (R90). -/
structure FormB where
  d : BitVec 5
  a : BitVec 5
  kmask : BitVec 7
  dr : BitVec 1
  rsv : BitVec 6
  off : BitVec 48
deriving DecidableEq, Repr

/-- Form M (R91). -/
structure FormM where
  t : BitVec 15
  base : BitVec 5
  str : BitVec 5
  x : BitVec 15
  sz : BitVec 4
  fl : BitVec 4
  off : BitVec 24
deriving DecidableEq, Repr

/-- Form E (Table 4.6). -/
structure FormE where
  gf : BitVec 7
  rdr : BitVec 3
  a : BitVec 5
  b : BitVec 5
  c : BitVec 5
  d : BitVec 5
  scp : BitVec 3
  rsv : BitVec 7
  imm : BitVec 32
deriving DecidableEq, Repr

/-- Form G (R93). -/
structure FormG where
  dest : BitVec 10
  pa : BitVec 15
  pb : BitVec 15
  pc : BitVec 15
  pd : BitVec 15
  rsv : BitVec 2
deriving DecidableEq, Repr

/-- Form X (R94). -/
structure FormX where
  d : BitVec 5
  a : BitVec 5
  csr : BitVec 12
  rsv : BitVec 34
  imm : BitVec 16
deriving DecidableEq, Repr

/-- MODE of tile-vector, plane and optimiser instructions (Table 4.2). -/
structure VMode where
  ty : BitVec 5
  rs : BitVec 3
  sat : BitVec 1
  me : BitVec 1
  mr : BitVec 3
  fn : BitVec 4
deriving DecidableEq, Repr

/-- Bits [95:72] and [71:0] of a word. -/
def Head.ofWord (w : Word96) : Head :=
  ⟨w.extractLsb' 88 8, w.extractLsb' 80 8, w.extractLsb' 79 1, w.extractLsb' 78 1, w.extractLsb' 75 3,
   w.extractLsb' 72 3⟩

/-- Operand bits [71:0]. -/
def operands (w : Word96) : BitVec 72 := w.extractLsb' 0 72

def FormT.of (w : BitVec 72) : FormT :=
  ⟨w.extractLsb' 62 10, w.extractLsb' 47 15, w.extractLsb' 32 15, w.extractLsb' 17 15, w.extractLsb' 0 17⟩

def FormS.of (w : BitVec 72) : FormS :=
  ⟨w.extractLsb' 67 5, w.extractLsb' 62 5, w.extractLsb' 57 5, w.extractLsb' 52 5, w.extractLsb' 0 52⟩

def FormI.of (w : BitVec 72) : FormI :=
  ⟨w.extractLsb' 67 5, w.extractLsb' 62 5, w.extractLsb' 48 14, w.extractLsb' 0 48⟩

def FormB.of (w : BitVec 72) : FormB :=
  ⟨w.extractLsb' 67 5, w.extractLsb' 62 5, w.extractLsb' 55 7, w.extractLsb' 54 1, w.extractLsb' 48 6,
   w.extractLsb' 0 48⟩

def FormM.of (w : BitVec 72) : FormM :=
  ⟨w.extractLsb' 57 15, w.extractLsb' 52 5, w.extractLsb' 47 5, w.extractLsb' 32 15, w.extractLsb' 28 4,
   w.extractLsb' 24 4, w.extractLsb' 0 24⟩

def FormE.of (w : BitVec 72) : FormE :=
  ⟨w.extractLsb' 65 7, w.extractLsb' 62 3, w.extractLsb' 57 5, w.extractLsb' 52 5, w.extractLsb' 47 5,
   w.extractLsb' 42 5, w.extractLsb' 39 3, w.extractLsb' 32 7, w.extractLsb' 0 32⟩

def FormG.of (w : BitVec 72) : FormG :=
  ⟨w.extractLsb' 62 10, w.extractLsb' 47 15, w.extractLsb' 32 15, w.extractLsb' 17 15, w.extractLsb' 2 15,
   w.extractLsb' 0 2⟩

def FormX.of (w : BitVec 72) : FormX :=
  ⟨w.extractLsb' 67 5, w.extractLsb' 62 5, w.extractLsb' 50 12, w.extractLsb' 16 34, w.extractLsb' 0 16⟩

def VMode.of (m : BitVec 17) : VMode :=
  ⟨m.extractLsb' 12 5, m.extractLsb' 9 3, m.extractLsb' 8 1, m.extractLsb' 7 1, m.extractLsb' 4 3,
   m.extractLsb' 0 4⟩

/-! ## Fields -/

/-- The value when the check holds: a failing check is RESERVED_FIELD (R103 step 5). -/
def req {α : Type} (b : Bool) (x : Option α) : Option α := if b then x else none

/-- Guard rules (R81). -/
def Guard.ofBits (p n : BitVec 1) (pred : BitVec 3) : Option Guard :=
  if p == 1 then some (.on (n == 1) pred) else req (n == 0 && pred == 0) (some .always)

/-- A count base index (R83): the upper bits are zero and 7 names no register. -/
def kregOf (x : BitVec 5) : Option KReg := if h : x.toNat < 7 then some ⟨x.toNat, h⟩ else none

/-- A predicate index in a 5-bit field (R83). -/
def pregOf (x : BitVec 5) : Option PReg :=
  req (x.extractLsb' 3 2 == 0) (some (x.extractLsb' 0 3))

/-- A register of a class of 2^n in a 7-bit field (R83). -/
def regOf (n : Nat) (x : BitVec 7) : Option (BitVec n) :=
  req (x.toNat < 2 ^ n) (some (x.setWidth n))

/-- The count part of a specifier (R84). -/
def CountSpec.ofBits (base : BitVec 3) (off : BitVec 5) : Option CountSpec :=
  if h : base.toNat < 7 then some (.at ⟨base.toNat, h⟩ off) else req (off == 0) (some .any)

/-- A source specifier (R84). -/
def srcOf (n : Nat) (x : BitVec 15) : Option (Src n) := do
  let reg ← regOf n (x.extractLsb' 8 7)
  let spec ← CountSpec.ofBits (x.extractLsb' 5 3) (x.extractLsb' 0 5)
  some ⟨reg, spec⟩

/-- A destination specifier (R85). -/
def dstOf (n : Nat) (x : BitVec 10) : Option (Dst n) := do
  let reg ← regOf n (x.extractLsb' 3 7)
  some ⟨reg, x.extractLsb' 0 3⟩

/-- A register named by CLS and REG (Table 4.3). -/
def cregOf (cls : BitVec 2) (reg : BitVec 7) : Option CReg :=
  if cls == 0 then some (.tile reg)
  else if cls == 1 then (regOf 3 reg).map .acc
  else if cls == 2 then (regOf 5 reg).map .sig
  else none

/-- Element type codes (Table 4.4). -/
def ElemTy.ofCode (x : BitVec 5) : Option ElemTy :=
  match x.toNat with
  | 0x00 => some .i4 | 0x01 => some .u4 | 0x02 => some .i4x | 0x03 => some .i8 | 0x04 => some .u8
  | 0x05 => some .i16 | 0x06 => some .u16 | 0x07 => some .i32 | 0x08 => some .u32 | 0x09 => some .i64
  | 0x0A => some .u64 | 0x0B => some .nf8 | 0x0C => some .nf16 | 0x0D => some .nf24 | 0x0E => some .nf32
  | 0x0F => some .fp32 | 0x10 => some .fp64 | 0x11 => some .bf16 | 0x12 => some .e8m0
  | _ => none

/-- Rounding selector codes (Table 3.5). -/
def RSel.ofCode (x : BitVec 3) : Option RSel :=
  match x.toNat with
  | 0 => some .rmode | 1 => some .rne | 2 => some .rz | 3 => some .ru | 4 => some .rd
  | _ => none

/-- Row mask fields ME and MR (Table 4.2). -/
def maskOf (me : BitVec 1) (mr : BitVec 3) : Option (Option MReg) :=
  if me == 1 then some (some mr) else req (mr == 0) (some none)

/-- Conditions of VCMP and VCMPB in FN (R153, R154). -/
def Cond.ofCode (x : BitVec 4) : Option Cond :=
  match x.toNat with
  | 0 => some .eq | 1 => some .ne | 2 => some .lt | 3 => some .le | 4 => some .gt | 5 => some .ge
  | _ => none

/-- Operators of VRED and VSCAN in FN[2:0] (R160). -/
def RedOp.ofCode (x : BitVec 3) : Option RedOp :=
  match x.toNat with
  | 0 => some .add | 1 => some .min | 2 => some .max | 3 => some .and | 4 => some .or | 5 => some .xor
  | _ => none

/-- Reductions of NRND in FN (R208). -/
def RndFn.ofCode (x : BitVec 4) : Option RndFn :=
  match x.toNat with
  | 0 => some .trunc | 1 => some .rn1 | 2 => some .rnd
  | _ => none

/-- Latched formats (R170). -/
def WFmt.ofCode (x : BitVec 4) : Option WFmt :=
  match x.toNat with
  | 0 => some .int8 | 1 => some .int4 | 2 => some .i4x | 3 => some .nf | 4 => some .fp64
  | _ => none

/-- Scope codes (Table 4.8). -/
def Scope.ofCode (x : BitVec 3) : Option Scope :=
  match x.toNat with
  | 0 => some .stream | 1 => some .core | 2 => some .gang | 3 => some .die | 4 => some .pkg | 5 => some .sys
  | _ => none

/-- ORD with SCP (R92): SCP is 0 when ORD is 0. -/
def OrdScp.ofBits (ord scp : BitVec 3) : Option OrdScp := do
  let s ← Scope.ofCode scp
  match ord.toNat with
  | 0 => req (s == .stream) (some .plain)
  | 1 => some (.acq s)
  | 2 => some (.rel s)
  | 3 => some (.ar s)
  | _ => none

/-- Conditions of SEMWT in IMM (R231). -/
def SemCond.ofCode (x : BitVec 32) : Option SemCond :=
  match x.toNat with
  | 0 => some .eq | 1 => some .ne | 2 => some .ge | 3 => some .geu | 4 => some .lt | 5 => some .ltu
  | _ => none

/-- Scopes a BAR may name (R236). -/
def BarScope.ofCode (x : BitVec 3) : Option BarScope :=
  match x.toNat with
  | 1 => some .core | 2 => some .gang | 3 => some .die | 4 => some .pkg
  | _ => none

/-- CSR numbers (Table 6.12). -/
def Csr.ofCode (x : BitVec 12) : Option Csr :=
  match x.toNat with
  | 0x000 => some .status | 0x001 => some .rmode | 0x002 => some .loopit | 0x003 => some .drained
  | 0x010 => some .role | 0x011 => some .gsize | 0x012 => some .taskid | 0x013 => some .kernid
  | 0x014 => some .member | 0x020 => some .gmode | 0x021 => some .pqdepth
  | 0x030 => some .cause | 0x031 => some .epc | 0x032 => some .eaddr | 0x033 => some .eword0
  | 0x034 => some .eword1 | 0x035 => some .retpc | 0x038 => some .dlwait0 | 0x039 => some .dlwait1
  | 0x03A => some .dlwait2 | 0x03B => some .dlwait3 | 0x040 => some .uhvec | 0x041 => some .udeleg0
  | 0x042 => some .udeleg1 | 0x080 => some .shvec
  | _ => none

/-- Stream codes (Table 1.1). -/
def StreamId.ofCode (x : BitVec 2) : StreamId :=
  match x.toNat with
  | 0 => .load | 1 => .exec | 2 => .store | _ => .ctrl

/-! ## One decoder per shape of operands -/

/-- A row's decoder: guard, ORD and the operand bits to an instruction, or RESERVED_FIELD. -/
abbrev Dec := Guard → BitVec 3 → BitVec 72 → Option Instr

/-- `op sD, sA, sB` (R119). -/
def decSss (k : Guard → SReg → SReg → SReg → Instr) : Dec := fun g ord w =>
  let f := FormS.of w
  req (ord == 0 && f.c == 0 && f.rsv == 0) (some (k g f.d f.a f.b))

/-- SEL (R119): C[4:3] is zero. -/
def decSel : Dec := fun g ord w => do
  let f := FormS.of w
  let p ← pregOf f.c
  req (ord == 0 && f.rsv == 0) (some (.sel g f.d f.a f.b p))

/-- `op sD, sA` (R119). -/
def decSs (k : Guard → SReg → SReg → Instr) : Dec := fun g ord w =>
  let f := FormS.of w
  req (ord == 0 && f.b == 0 && f.c == 0 && f.rsv == 0) (some (k g f.d f.a))

/-- `op sD, sA, imm` with a 48-bit immediate (R121). -/
def decImm (k : Guard → SReg → SReg → BitVec 48 → Instr) : Dec := fun g ord w =>
  let f := FormI.of w
  req (ord == 0 && f.rsv == 0) (some (k g f.d f.a f.imm))

/-- SHLI, SHRI, SARI: the immediate is 0 to 63 (R89). -/
def decShift (k : Guard → SReg → SReg → BitVec 6 → Instr) : Dec := fun g ord w =>
  let f := FormI.of w
  req (ord == 0 && f.rsv == 0 && f.imm.extractLsb' 6 42 == 0) (some (k g f.d f.a (f.imm.extractLsb' 0 6)))

def decLi : Dec := fun g ord w =>
  let f := FormI.of w
  req (ord == 0 && f.rsv == 0 && f.a == 0) (some (.li g f.d f.imm))

def decLih : Dec := fun g ord w =>
  let f := FormI.of w
  req (ord == 0 && f.rsv == 0 && f.imm.extractLsb' 16 32 == 0) (some (.lih g f.d f.a (f.imm.extractLsb' 0 16)))

/-- Compares (R122). -/
def decPss (k : Guard → PReg → SReg → SReg → Instr) : Dec := fun g ord w => do
  let f := FormS.of w
  let d ← pregOf f.d
  req (ord == 0 && f.c == 0 && f.rsv == 0) (some (k g d f.a f.b))

def decPpp (k : Guard → PReg → PReg → PReg → Instr) : Dec := fun g ord w => do
  let f := FormS.of w
  let d ← pregOf f.d
  let a ← pregOf f.a
  let b ← pregOf f.b
  req (ord == 0 && f.c == 0 && f.rsv == 0) (some (k g d a b))

def decPp : Dec := fun g ord w => do
  let f := FormS.of w
  let d ← pregOf f.d
  let a ← pregOf f.a
  req (ord == 0 && f.b == 0 && f.c == 0 && f.rsv == 0) (some (.pnot g d a))

def decKset : Dec := fun g ord w => do
  let f := FormI.of w
  let d ← kregOf f.d
  req (ord == 0 && f.rsv == 0 && f.a == 0 && f.imm.extractLsb' 16 32 == 0)
    (some (.kset g d (f.imm.extractLsb' 0 16)))

def decKadd : Dec := fun g ord w => do
  let f := FormI.of w
  let d ← kregOf f.d
  let a ← kregOf f.a
  req (ord == 0 && f.rsv == 0 && f.imm.extractLsb' 16 32 == 0)
    (some (.kadd g d a (f.imm.extractLsb' 0 16)))

/-- KMOV: B says which side names a count base (Table 6.6). -/
def decKmov : Dec := fun g ord w =>
  let f := FormS.of w
  req (ord == 0 && f.c == 0 && f.rsv == 0)
    (match f.b.toNat with
    | 0 => (kregOf f.d).map fun d => .kmovKS g d f.a
    | 1 => (kregOf f.a).map fun a => .kmovSK g f.d a
    | 2 => do
      let d ← kregOf f.d
      let a ← kregOf f.a
      some (.kmovKK g d a)
    | _ => none)

/-- CADV (R124). -/
def decCadv : Dec := fun g ord w => do
  let f := FormT.of w
  let x ← cregOf (f.mode.extractLsb' 15 2) (f.dest.extractLsb' 3 7)
  req (ord == 0 && f.a == 0 && f.b == 0 && f.c == 0 && f.mode.extractLsb' 0 15 == 0)
    (some (.cadv g x (f.dest.extractLsb' 0 3)))

/-- CRD (R127): its source is written any. -/
def decCrd : Dec := fun g ord w => do
  let f := FormT.of w
  let x ← cregOf (f.mode.extractLsb' 15 2) (f.a.extractLsb' 8 7)
  req (ord == 0 && f.dest == 0 && f.a.extractLsb' 0 8 == 0xE0 && f.b == 0 && f.c == 0 &&
    f.mode.extractLsb' 5 10 == 0) (some (.crd g (f.mode.extractLsb' 0 5) x))

/-- CWAIT (R126): its source is counted. -/
def decCwait : Dec := fun g ord w => do
  let f := FormT.of w
  let x ← cregOf (f.mode.extractLsb' 15 2) (f.a.extractLsb' 8 7)
  let spec ← CountSpec.ofBits (f.a.extractLsb' 5 3) (f.a.extractLsb' 0 5)
  match spec with
  | .any => none
  | .at k off =>
    req (ord == 0 && f.dest == 0 && f.b == 0 && f.c == 0 && f.mode.extractLsb' 0 15 == 0)
      (some (.cwait g x k off))

def decBr : Dec := fun g ord w =>
  let f := FormB.of w
  req (ord == 0 && f.d == 0 && f.a == 0 && f.kmask == 0 && f.dr == 0 && f.rsv == 0) (some (.br g f.off))

/-- BRI, RET and POST name A only. -/
def decBa (k : Guard → SReg → Instr) : Dec := fun g ord w =>
  let f := FormB.of w
  req (ord == 0 && f.d == 0 && f.kmask == 0 && f.dr == 0 && f.rsv == 0 && f.off == 0) (some (k g f.a))

def decCall : Dec := fun g ord w =>
  let f := FormB.of w
  req (ord == 0 && f.a == 0 && f.kmask == 0 && f.dr == 0 && f.rsv == 0) (some (.call g f.d f.off))

def decLoop : Dec := fun g ord w =>
  let f := FormB.of w
  req (ord == 0 && f.a == 0 && f.rsv == 0) (some (.loop g f.d f.kmask (f.dr == 1) f.off))

/-- DPT (R90, R132) cannot be guarded (R81). -/
def decDpt : Dec := fun g ord w =>
  let f := FormB.of w
  req (g == .always && ord == 0 && f.d == 0 && f.kmask == 0 && f.dr == 0 && f.rsv.extractLsb' 5 1 == 0 &&
    f.off == 0) (some (.dpt f.a (f.rsv.extractLsb' 0 5)))

/-- FORK, JOIN, END: no operands and no guard (R134). -/
def decBare (i : Instr) : Dec := fun g ord w =>
  req (g == .always && ord == 0 && w == 0) (some i)

/-- T of a tile load (R91). -/
def loadDst (t : BitVec 15) : Option TDst :=
  req (t.extractLsb' 0 5 == 0) (some ⟨t.extractLsb' 8 7, t.extractLsb' 5 3⟩)

/-- T of a scalar access (R91). -/
def scalarT (t : BitVec 15) : Option SReg := req (t.extractLsb' 0 10 == 0) (some (t.extractLsb' 10 5))

def decTld : Dec := fun g ord w => do
  let f := FormM.of w
  let d ← loadDst f.t
  req (ord == 0 && f.x == 0 && f.sz == 0 && f.fl == 0) (some (.tld g d f.base f.str f.off))

def decTldp : Dec := fun g ord w => do
  let f := FormM.of w
  let d ← loadDst f.t
  req (ord == 0 && f.x == 0 && f.sz.extractLsb' 3 1 == 0 && f.fl == 0)
    (some (.tldp g d (f.sz.extractLsb' 0 2) (f.sz.extractLsb' 2 1 == 1) f.base f.str f.off))

def decTst : Dec := fun g ord w => do
  let f := FormM.of w
  let a ← srcOf 7 f.t
  req (ord == 0 && f.x == 0 && f.sz == 0 && f.fl == 0) (some (.tst g a f.base f.str f.off))

/-- TSTP (R191, R197): X is used only when CM = 1. -/
def decTstp : Dec := fun g ord w => do
  let f := FormM.of w
  let a ← srcOf 7 f.t
  let cm ← if f.fl == 1 then (srcOf 7 f.x).map some else req (f.fl == 0 && f.x == 0) (some none)
  req (ord == 0 && f.sz.extractLsb' 2 2 == 0)
    (some (.tstp g a (f.sz.extractLsb' 0 2) cm f.base f.str f.off))

/-- LDS, STS, LOOKUP, TAGSET. -/
def decMs (k : Guard → SReg → SReg → BitVec 24 → Instr) : Dec := fun g ord w => do
  let f := FormM.of w
  let t ← scalarT f.t
  req (ord == 0 && f.str == 0 && f.x == 0 && f.sz == 0 && f.fl == 0) (some (k g t f.base f.off))

def decTaginv : Dec := fun g ord w =>
  let f := FormM.of w
  req (ord == 0 && f.t == 0 && f.str == 0 && f.x == 0 && f.sz == 0 && f.fl == 0)
    (some (.taginv g f.base f.off))

def decProbe : Dec := fun g ord w => do
  let f := FormM.of w
  let t ← scalarT f.t
  req (ord == 0 && f.str == 0 && f.x == 0 && f.sz == 0) (some (.probe g t f.base f.off f.fl))

/-- Two sources, TYPE, RS, SAT and a mask. -/
def decV2r (k : Guard → TDst → TSrc → TSrc → ElemTy → RSel → Bool → Option MReg → Instr) : Dec :=
  fun g ord w => do
  let f := FormT.of w
  let m := VMode.of f.mode
  let d ← dstOf 7 f.dest
  let a ← srcOf 7 f.a
  let b ← srcOf 7 f.b
  let ty ← ElemTy.ofCode m.ty
  let rs ← RSel.ofCode m.rs
  let mk ← maskOf m.me m.mr
  req (ord == 0 && f.c == 0 && m.fn == 0) (some (k g d a b ty rs (m.sat == 1) mk))

def decV3r (k : Guard → TDst → TSrc → TSrc → TSrc → ElemTy → RSel → Bool → Option MReg → Instr) : Dec :=
  fun g ord w => do
  let f := FormT.of w
  let m := VMode.of f.mode
  let d ← dstOf 7 f.dest
  let a ← srcOf 7 f.a
  let b ← srcOf 7 f.b
  let c ← srcOf 7 f.c
  let ty ← ElemTy.ofCode m.ty
  let rs ← RSel.ofCode m.rs
  let mk ← maskOf m.me m.mr
  req (ord == 0 && m.fn == 0) (some (k g d a b c ty rs (m.sat == 1) mk))

def decV1r (k : Guard → TDst → TSrc → ElemTy → RSel → Bool → Option MReg → Instr) : Dec :=
  fun g ord w => do
  let f := FormT.of w
  let m := VMode.of f.mode
  let d ← dstOf 7 f.dest
  let a ← srcOf 7 f.a
  let ty ← ElemTy.ofCode m.ty
  let rs ← RSel.ofCode m.rs
  let mk ← maskOf m.me m.mr
  req (ord == 0 && f.b == 0 && f.c == 0 && m.fn == 0) (some (k g d a ty rs (m.sat == 1) mk))

/-- One source, TYPE and SAT. -/
def decV1s (k : Guard → TDst → TSrc → ElemTy → Bool → Option MReg → Instr) : Dec := fun g ord w => do
  let f := FormT.of w
  let m := VMode.of f.mode
  let d ← dstOf 7 f.dest
  let a ← srcOf 7 f.a
  let ty ← ElemTy.ofCode m.ty
  let mk ← maskOf m.me m.mr
  req (ord == 0 && f.b == 0 && f.c == 0 && m.rs == 0 && m.fn == 0) (some (k g d a ty (m.sat == 1) mk))

/-- Sources and TYPE only. -/
def decV1 (k : Guard → TDst → TSrc → ElemTy → Option MReg → Instr) : Dec := fun g ord w => do
  let f := FormT.of w
  let m := VMode.of f.mode
  let d ← dstOf 7 f.dest
  let a ← srcOf 7 f.a
  let ty ← ElemTy.ofCode m.ty
  let mk ← maskOf m.me m.mr
  req (ord == 0 && f.b == 0 && f.c == 0 && m.rs == 0 && m.sat == 0 && m.fn == 0) (some (k g d a ty mk))

def decV2 (k : Guard → TDst → TSrc → TSrc → ElemTy → Option MReg → Instr) : Dec := fun g ord w => do
  let f := FormT.of w
  let m := VMode.of f.mode
  let d ← dstOf 7 f.dest
  let a ← srcOf 7 f.a
  let b ← srcOf 7 f.b
  let ty ← ElemTy.ofCode m.ty
  let mk ← maskOf m.me m.mr
  req (ord == 0 && f.c == 0 && m.rs == 0 && m.sat == 0 && m.fn == 0) (some (k g d a b ty mk))

def decV3 (k : Guard → TDst → TSrc → TSrc → TSrc → ElemTy → Option MReg → Instr) : Dec := fun g ord w => do
  let f := FormT.of w
  let m := VMode.of f.mode
  let d ← dstOf 7 f.dest
  let a ← srcOf 7 f.a
  let b ← srcOf 7 f.b
  let c ← srcOf 7 f.c
  let ty ← ElemTy.ofCode m.ty
  let mk ← maskOf m.me m.mr
  req (ord == 0 && m.rs == 0 && m.sat == 0 && m.fn == 0) (some (k g d a b c ty mk))

/-- Type set NONE: TYPE is 0. -/
def decV1n (k : Guard → TDst → TSrc → Option MReg → Instr) : Dec := fun g ord w => do
  let f := FormT.of w
  let m := VMode.of f.mode
  let d ← dstOf 7 f.dest
  let a ← srcOf 7 f.a
  let mk ← maskOf m.me m.mr
  req (ord == 0 && f.b == 0 && f.c == 0 && m.ty == 0 && m.rs == 0 && m.sat == 0 && m.fn == 0)
    (some (k g d a mk))

def decV2n (k : Guard → TDst → TSrc → TSrc → Option MReg → Instr) : Dec := fun g ord w => do
  let f := FormT.of w
  let m := VMode.of f.mode
  let d ← dstOf 7 f.dest
  let a ← srcOf 7 f.a
  let b ← srcOf 7 f.b
  let mk ← maskOf m.me m.mr
  req (ord == 0 && f.c == 0 && m.ty == 0 && m.rs == 0 && m.sat == 0 && m.fn == 0) (some (k g d a b mk))

def decVcmp : Dec := fun g ord w => do
  let f := FormT.of w
  let m := VMode.of f.mode
  let d ← dstOf 7 f.dest
  let a ← srcOf 7 f.a
  let b ← srcOf 7 f.b
  let ty ← ElemTy.ofCode m.ty
  let c ← Cond.ofCode m.fn
  let mk ← maskOf m.me m.mr
  req (ord == 0 && f.c == 0 && m.rs == 0 && m.sat == 0) (some (.vcmp g d a b c ty mk))

/-- VCMPB requires TYPE u8 (R154). -/
def decVcmpb : Dec := fun g ord w => do
  let f := FormT.of w
  let m := VMode.of f.mode
  let d ← dstOf 7 f.dest
  let a ← srcOf 7 f.a
  let b ← srcOf 7 f.b
  let c ← Cond.ofCode m.fn
  let mk ← maskOf m.me m.mr
  req (ord == 0 && f.c == 0 && m.ty == 0x04 && m.rs == 0 && m.sat == 0) (some (.vcmpb g d a b c mk))

/-- VCVT: the source type is in SRC C[21:17], bits 4:0 of the field (R156). -/
def decVcvt : Dec := fun g ord w => do
  let f := FormT.of w
  let m := VMode.of f.mode
  let d ← dstOf 7 f.dest
  let a ← srcOf 7 f.a
  let sty ← ElemTy.ofCode (f.c.extractLsb' 0 5)
  let dty ← ElemTy.ofCode m.ty
  let rs ← RSel.ofCode m.rs
  let mk ← maskOf m.me m.mr
  req (ord == 0 && f.b == 0 && f.c.extractLsb' 5 10 == 0)
    (some (.vcvt g d a sty dty rs (m.sat == 1) m.fn mk))

/-- VRED and VSCAN: the operator is FN[2:0] and FN[3] works by rows (R160). -/
def decVred (k : Guard → TDst → TSrc → RedOp → Bool → ElemTy → RSel → Bool → Option MReg → Instr) : Dec :=
  fun g ord w => do
  let f := FormT.of w
  let m := VMode.of f.mode
  let d ← dstOf 7 f.dest
  let a ← srcOf 7 f.a
  let ty ← ElemTy.ofCode m.ty
  let rs ← RSel.ofCode m.rs
  let op ← RedOp.ofCode (m.fn.extractLsb' 0 3)
  let mk ← maskOf m.me m.mr
  req (ord == 0 && f.b == 0 && f.c == 0) (some (k g d a op (m.fn.extractLsb' 3 1 == 1) ty rs (m.sat == 1) mk))

def decVpxor : Dec := fun g ord w => do
  let f := FormT.of w
  let m := VMode.of f.mode
  let d ← dstOf 7 f.dest
  let a ← srcOf 7 f.a
  let ty ← ElemTy.ofCode m.ty
  let mk ← maskOf m.me m.mr
  req (ord == 0 && f.b == 0 && f.c == 0 && m.rs == 0 && m.sat == 0 && m.fn.extractLsb' 1 3 == 0)
    (some (.vpxor g d a (m.fn.extractLsb' 0 1 == 1) ty mk))

/-- VCLMUL requires TYPE u64 (R162). -/
def decVclmul : Dec := fun g ord w => do
  let f := FormT.of w
  let m := VMode.of f.mode
  let d ← dstOf 7 f.dest
  let a ← srcOf 7 f.a
  let b ← srcOf 7 f.b
  let mk ← maskOf m.me m.mr
  req (ord == 0 && f.c == 0 && m.ty == 0x0A && m.rs == 0 && m.sat == 0 && m.fn.extractLsb' 1 3 == 0)
    (some (.vclmul g d a b (m.fn.extractLsb' 0 1 == 1) mk))

/-- WLATCH with its own MODE (R170). -/
def decWlatch : Dec := fun g ord w => do
  let f := FormT.of w
  let d ← dstOf 5 f.dest
  let a ← srcOf 5 f.a
  let fmt ← WFmt.ofCode (f.mode.extractLsb' 3 4)
  req (ord == 0 && f.b == 0 && f.c == 0)
    (some (.wlatch g d a (f.mode.extractLsb' 12 5) (f.mode.extractLsb' 7 5) fmt (f.mode.extractLsb' 1 2)
      (f.mode.extractLsb' 0 1 == 1)))

def decWclr : Dec := fun g ord w => req (ord == 0 && w == 0) (some (.wclr g))

/-- MMA with its own MODE (R176). -/
def decMma : Dec := fun g ord w => do
  let f := FormT.of w
  let d ← dstOf 3 f.dest
  let a ← srcOf 7 f.a
  let za := f.mode.extractLsb' 3 1
  let as := f.mode.extractLsb' 2 1
  let b ← if za == 1 then req (f.b == 0) (some none) else (srcOf 3 f.b).map some
  let c ← if as == 1 then (srcOf 7 f.c).map some else req (f.c == 0) (some none)
  let ty ← ElemTy.ofCode (f.mode.extractLsb' 12 5)
  let mk ← maskOf (f.mode.extractLsb' 7 1) (f.mode.extractLsb' 4 3)
  req (ord == 0 && f.mode.extractLsb' 0 1 == 0)
    (some (.mma g d a b c ty (f.mode.extractLsb' 10 2) (f.mode.extractLsb' 8 2) mk (f.mode.extractLsb' 1 1 == 1)))

/-- AMOV both ways, by FN (Table 8.3). -/
def decAmov : Dec := fun g ord w => do
  let f := FormT.of w
  let mk ← maskOf (f.mode.extractLsb' 7 1) (f.mode.extractLsb' 4 3)
  req (ord == 0 && f.b == 0 && f.c == 0 && f.mode.extractLsb' 12 5 == 0)
    (match (f.mode.extractLsb' 0 4).toNat with
    | 0 => do
      let d ← dstOf 7 f.dest
      let a ← srcOf 3 f.a
      some (.amovToTile g d a (f.mode.extractLsb' 10 2) (f.mode.extractLsb' 8 2) mk)
    | 1 => do
      let d ← dstOf 3 f.dest
      let a ← srcOf 7 f.a
      some (.amovToAcc g d a (f.mode.extractLsb' 10 2) (f.mode.extractLsb' 8 2) mk)
    | _ => none)

def decAzero : Dec := fun g ord w => do
  let f := FormT.of w
  let d ← dstOf 3 f.dest
  req (ord == 0 && f.a == 0 && f.b == 0 && f.c == 0 && f.mode == 0) (some (.azero g d))

def decAadd : Dec := fun g ord w => do
  let f := FormT.of w
  let m := VMode.of f.mode
  let d ← dstOf 3 f.dest
  let a ← srcOf 3 f.a
  let b ← srcOf 3 f.b
  let ty ← ElemTy.ofCode m.ty
  let rs ← RSel.ofCode m.rs
  req (ord == 0 && f.c == 0 && m.me == 0 && m.mr == 0 && m.fn == 0) (some (.aadd g d a b ty rs (m.sat == 1)))

/-- A level or field number 0 to 5 (R182). -/
def sixOf (x : BitVec 5) : Option (Fin 6) := if h : x.toNat < 6 then some ⟨x.toNat, h⟩ else none

def decNsetl : Dec := fun g ord w => do
  let f := FormS.of w
  let l ← sixOf f.d
  req (ord == 0 && f.rsv == 0) (some (.nsetl g l f.a f.b f.c))

def decNsetb : Dec := fun g ord w => do
  let f := FormS.of w
  let l ← sixOf f.d
  req (ord == 0 && f.b == 0 && f.c == 0 && f.rsv == 0) (some (.nsetb g l f.a))

/-- NSTAT and GSTAT: the selector is field B, 0 or 1 (R188, R255). -/
def decStat (k : Guard → SReg → Bool → Instr) : Dec := fun g ord w =>
  let f := FormS.of w
  req (ord == 0 && f.a == 0 && f.b.extractLsb' 1 4 == 0 && f.c == 0 && f.rsv == 0)
    (some (k g f.d (f.b.extractLsb' 0 1 == 1)))

/-- G and RDR of Form E. -/
def sigDst (f : FormE) : Option GDst := (regOf 5 f.gf).map fun r => ⟨r, f.rdr⟩

def decNgo : Dec := fun g ord w => do
  let f := FormE.of w
  let d ← sigDst f
  let o ← OrdScp.ofBits ord f.scp
  req (f.a == 0 && f.b == 0 && f.c == 0 && f.d == 0 && f.rsv == 0 && f.imm == 0) (some (.ngo g d o))

def decOrient2 : Dec := fun g ord w => do
  let f := FormG.of w
  let d ← dstOf 7 f.dest
  let a ← srcOf 7 f.pa
  let b ← srcOf 7 f.pb
  let c ← srcOf 7 f.pc
  req (ord == 0 && f.pd == 0 && f.rsv == 0) (some (.orient2 g d a b c))

def decG4 (k : Guard → TDst → TSrc → TSrc → TSrc → TSrc → Instr) : Dec := fun g ord w => do
  let f := FormG.of w
  let d ← dstOf 7 f.dest
  let a ← srcOf 7 f.pa
  let b ← srcOf 7 f.pb
  let c ← srcOf 7 f.pc
  let e ← srcOf 7 f.pd
  req (ord == 0 && f.rsv == 0) (some (k g d a b c e))

/-- NPACK and NUNPK require TYPE nf32 (R207). -/
def decNpack (k : Guard → TDst → TSrc → Option MReg → Instr) : Dec := fun g ord w => do
  let f := FormT.of w
  let m := VMode.of f.mode
  let d ← dstOf 7 f.dest
  let a ← srcOf 7 f.a
  let mk ← maskOf m.me m.mr
  req (ord == 0 && f.b == 0 && f.c == 0 && m.ty == 0x0E && m.rs == 0 && m.sat == 0 && m.fn == 0)
    (some (k g d a mk))

def decNrnd : Dec := fun g ord w => do
  let f := FormT.of w
  let m := VMode.of f.mode
  let d ← dstOf 7 f.dest
  let a ← srcOf 7 f.a
  let ty ← ElemTy.ofCode m.ty
  let rs ← RSel.ofCode m.rs
  let fn ← RndFn.ofCode m.fn
  let mk ← maskOf m.me m.mr
  req (ord == 0 && f.b == 0 && f.c == 0) (some (.nrnd g d a fn ty rs (m.sat == 1) mk))

/-- NMOM: the scalar index is SRC C[12:8] (R209). -/
def decNmom : Dec := fun g ord w => do
  let f := FormT.of w
  let m := VMode.of f.mode
  let d ← dstOf 7 f.dest
  let a ← srcOf 7 f.a
  let b ← srcOf 7 f.b
  let ty ← ElemTy.ofCode m.ty
  let rs ← RSel.ofCode m.rs
  let mk ← maskOf m.me m.mr
  req (ord == 0 && f.c.extractLsb' 13 2 == 0 && f.c.extractLsb' 0 8 == 0 && m.fn == 0)
    (some (.nmom g d a b (f.c.extractLsb' 8 5) ty rs (m.sat == 1) mk))

/-- NUPD: FN[2:0] names the mask register and FN[3] is the .cm form (R210). -/
def decNupd : Dec := fun g ord w => do
  let f := FormT.of w
  let m := VMode.of f.mode
  let d ← dstOf 7 f.dest
  let a ← srcOf 7 f.a
  let b ← srcOf 7 f.b
  let ty ← ElemTy.ofCode m.ty
  req (ord == 0 && f.c.extractLsb' 13 2 == 0 && f.c.extractLsb' 0 8 == 0 && m.rs == 0 && m.sat == 0 &&
    m.me == 0 && m.mr == 0)
    (some (if m.fn.extractLsb' 3 1 == 1 then .nupdCm g d a b (f.c.extractLsb' 8 5) ty (m.fn.extractLsb' 0 3)
      else .nupd g d a b (f.c.extractLsb' 8 5) ty (m.fn.extractLsb' 0 3)))

/-- PCOPY and PFILL (Table 10.1): D is unused and IMM holds ESZ. -/
def decPc (k : Guard → GDst → OrdScp → SReg → SReg → SReg → BitVec 3 → Instr) : Dec := fun g ord w => do
  let f := FormE.of w
  let d ← sigDst f
  let o ← OrdScp.ofBits ord f.scp
  req (f.d == 0 && f.rsv == 0 && f.imm.extractLsb' 3 29 == 0) (some (k g d o f.a f.b f.c (f.imm.extractLsb' 0 3)))

/-- PGATH and PSCAT: IMM holds ESZ and IW. -/
def decPi (k : Guard → GDst → OrdScp → SReg → SReg → SReg → SReg → BitVec 3 → Bool → Instr) : Dec :=
  fun g ord w => do
  let f := FormE.of w
  let d ← sigDst f
  let o ← OrdScp.ofBits ord f.scp
  req (f.rsv == 0 && f.imm.extractLsb' 4 28 == 0)
    (some (k g d o f.a f.b f.c f.d (f.imm.extractLsb' 0 3) (f.imm.extractLsb' 3 1 == 1)))

/-- PWLD: SCL is IMM[0], and D is zero without it (R218). -/
def decPwld : Dec := fun g ord w => do
  let f := FormE.of w
  let d ← sigDst f
  let o ← OrdScp.ofBits ord f.scp
  req (f.rsv == 0 && f.imm.extractLsb' 1 31 == 0 && (f.imm.extractLsb' 0 1 == 1 || f.d == 0))
    (some (.pwld g d o f.a f.b f.c (if f.imm.extractLsb' 0 1 == 1 then some f.d else none)))

def decPrem : Dec := fun g ord w => do
  let f := FormE.of w
  let d ← sigDst f
  let o ← OrdScp.ofBits ord f.scp
  req (f.rsv == 0 && f.imm.extractLsb' 3 29 == 0)
    (some (.prem g d o f.a f.b f.c f.d (f.imm.extractLsb' 0 3)))

/-- PRESUME and PCANCEL use G and RDR only (R224, R225). -/
def decPg (k : Guard → GDst → Instr) : Dec := fun g ord w => do
  let f := FormE.of w
  let d ← sigDst f
  req (ord == 0 && f.scp == 0 && f.a == 0 && f.b == 0 && f.c == 0 && f.d == 0 && f.rsv == 0 && f.imm == 0)
    (some (k g d))

def decPqstat : Dec := fun g ord w =>
  let f := FormE.of w
  req (ord == 0 && f.scp == 0 && f.gf == 0 && f.rdr == 0 && f.a == 0 && f.b == 0 && f.c == 0 && f.rsv == 0)
    (if h : f.imm.toNat < 3 then some (.pqstat g f.d ⟨f.imm.toNat, h⟩) else none)

/-- SEMADD and SEMSWP (Table 10.3). -/
def decSem (k : Guard → OrdScp → SReg → SReg → SReg → Instr) : Dec := fun g ord w => do
  let f := FormE.of w
  let o ← OrdScp.ofBits ord f.scp
  req (f.gf == 0 && f.rdr == 0 && f.c == 0 && f.rsv == 0 && f.imm == 0) (some (k g o f.d f.a f.b))

def decSemcas : Dec := fun g ord w => do
  let f := FormE.of w
  let o ← OrdScp.ofBits ord f.scp
  req (f.gf == 0 && f.rdr == 0 && f.rsv == 0 && f.imm == 0) (some (.semcas g o f.d f.a f.b f.c))

def decSemmax : Dec := fun g ord w => do
  let f := FormE.of w
  let o ← OrdScp.ofBits ord f.scp
  req (f.gf == 0 && f.rdr == 0 && f.c == 0 && f.rsv == 0 && f.imm.extractLsb' 1 31 == 0)
    (some (.semmax g o f.d f.a f.b (f.imm.extractLsb' 0 1 == 1)))

def decSemld : Dec := fun g ord w => do
  let f := FormE.of w
  let o ← OrdScp.ofBits ord f.scp
  req (f.gf == 0 && f.rdr == 0 && f.b == 0 && f.c == 0 && f.rsv == 0 && f.imm == 0)
    (some (.semld g o f.d f.a))

def decSemwt : Dec := fun g ord w => do
  let f := FormE.of w
  let o ← OrdScp.ofBits ord f.scp
  let cond ← SemCond.ofCode f.imm
  req (f.gf == 0 && f.rdr == 0 && f.c == 0 && f.rsv == 0) (some (.semwt g o f.d f.a f.b cond))

def decFence : Dec := fun g ord w => do
  let f := FormE.of w
  let o ← OrdScp.ofBits ord f.scp
  req (f.gf == 0 && f.rdr == 0 && f.a == 0 && f.b == 0 && f.c == 0 && f.d == 0 && f.rsv == 0 && f.imm == 0)
    (some (.fence g o))

/-- BAR: ORD is 0 or 3 and SCP is 1 to 4 (R236). -/
def decBar : Dec := fun g ord w => do
  let f := FormE.of w
  let s ← BarScope.ofCode f.scp
  req ((ord == 0 || ord == 3) && f.gf == 0 && f.rdr == 0 && f.a == 0 && f.b == 0 && f.c == 0 && f.d == 0 &&
    f.rsv == 0 && f.imm == 0) (some (.bar g (ord == 3) s))

def decNop : Dec := fun g ord w => req (ord == 0 && w == 0) (some (.nop g))

def decTrap (k : Guard → BitVec 16 → Instr) : Dec := fun g ord w =>
  let f := FormX.of w
  req (ord == 0 && f.d == 0 && f.a == 0 && f.csr == 0 && f.rsv == 0) (some (k g f.imm))

def decEret : Dec := fun g ord w => req (g == .always && ord == 0 && w == 0) (some .eret)

/-- RESUME (R137): stream in IMM[1:0], skip in IMM[2]. -/
def decResume : Dec := fun g ord w =>
  let f := FormX.of w
  let x := StreamId.ofCode (f.imm.extractLsb' 0 2)
  req (ord == 0 && f.d == 0 && f.csr == 0 && f.rsv == 0 && f.imm.extractLsb' 3 13 == 0)
    (if f.imm.extractLsb' 2 1 == 1 then req (f.a == 0) (some (.resumeSkip g x))
     else some (.resumeRetry g x f.a))

def decCsrr : Dec := fun g ord w => do
  let f := FormX.of w
  let c ← Csr.ofCode f.csr
  req (ord == 0 && f.a == 0 && f.rsv == 0 && f.imm == 0) (some (.csrr g f.d c))

def decCsrw : Dec := fun g ord w => do
  let f := FormX.of w
  let c ← Csr.ofCode f.csr
  req (ord == 0 && f.d == 0 && f.rsv == 0 && f.imm == 0) (some (.csrw g c f.a))

def decCsrx : Dec := fun g ord w => do
  let f := FormX.of w
  let c ← Csr.ofCode f.csr
  req (ord == 0 && f.rsv == 0 && f.imm == 0) (some (.csrx g f.d c f.a))

def decTick : Dec := fun g ord w =>
  let f := FormX.of w
  req (ord == 0 && f.a == 0 && f.csr == 0 && f.rsv == 0 && f.imm == 0) (some (.tick g f.d))

/-! ## The opcode map -/

/-- One pair of MAJ and MIN with the streams that may issue it and its operand shape (Table 4.9). -/
structure OpRow where
  maj : BitVec 8
  min : BitVec 8
  streams : List StreamId
  dec : Dec

/-- Streams written All in Table 4.9. -/
def allStreams : List StreamId := [.load, .exec, .store, .ctrl]

/-- Rows of Table 4.9. -/
def rowsScalar : List OpRow :=
  [⟨0x01, 0x00, allStreams, decSss .add⟩,
   ⟨0x01, 0x01, allStreams, decSss .sub⟩,
   ⟨0x01, 0x02, allStreams, decSss .mul⟩,
   ⟨0x01, 0x03, allStreams, decSss .mulh⟩,
   ⟨0x01, 0x04, allStreams, decSss .mulhu⟩,
   ⟨0x01, 0x05, allStreams, decSss .div⟩,
   ⟨0x01, 0x06, allStreams, decSss .divu⟩,
   ⟨0x01, 0x07, allStreams, decSss .rem⟩,
   ⟨0x01, 0x08, allStreams, decSss .remu⟩,
   ⟨0x01, 0x09, allStreams, decSss .and⟩,
   ⟨0x01, 0x0A, allStreams, decSss .or⟩,
   ⟨0x01, 0x0B, allStreams, decSss .xor⟩,
   ⟨0x01, 0x0C, allStreams, decSss .shl⟩,
   ⟨0x01, 0x0D, allStreams, decSss .shr⟩,
   ⟨0x01, 0x0E, allStreams, decSss .sar⟩,
   ⟨0x01, 0x0F, allStreams, decSss .rot⟩,
   ⟨0x01, 0x10, allStreams, decSss .min⟩,
   ⟨0x01, 0x11, allStreams, decSss .max⟩,
   ⟨0x01, 0x12, allStreams, decSss .minu⟩,
   ⟨0x01, 0x13, allStreams, decSss .maxu⟩,
   ⟨0x01, 0x14, allStreams, decSel⟩,
   ⟨0x01, 0x15, allStreams, decSs .mov⟩,
   ⟨0x01, 0x16, allStreams, decSs .clz⟩,
   ⟨0x01, 0x17, allStreams, decSs .ctz⟩,
   ⟨0x01, 0x18, allStreams, decSs .popc⟩]

/-- Rows of Table 4.9. -/
def rowsImm : List OpRow :=
  [⟨0x02, 0x00, allStreams, decImm .addi⟩,
   ⟨0x02, 0x01, allStreams, decImm .andi⟩,
   ⟨0x02, 0x02, allStreams, decImm .ori⟩,
   ⟨0x02, 0x03, allStreams, decImm .xori⟩,
   ⟨0x02, 0x04, allStreams, decShift .shli⟩,
   ⟨0x02, 0x05, allStreams, decShift .shri⟩,
   ⟨0x02, 0x06, allStreams, decShift .sari⟩,
   ⟨0x02, 0x07, allStreams, decLi⟩,
   ⟨0x02, 0x08, allStreams, decLih⟩,
   ⟨0x02, 0x09, allStreams, decImm .lea⟩,
   ⟨0x03, 0x00, allStreams, decPss .cmpEq⟩,
   ⟨0x03, 0x01, allStreams, decPss .cmpNe⟩,
   ⟨0x03, 0x02, allStreams, decPss .cmpLt⟩,
   ⟨0x03, 0x03, allStreams, decPss .cmpLe⟩,
   ⟨0x03, 0x04, allStreams, decPss .cmpGt⟩,
   ⟨0x03, 0x05, allStreams, decPss .cmpGe⟩,
   ⟨0x03, 0x06, allStreams, decPss .cmpLtu⟩,
   ⟨0x03, 0x07, allStreams, decPss .cmpLeu⟩,
   ⟨0x03, 0x08, allStreams, decPss .cmpGtu⟩,
   ⟨0x03, 0x09, allStreams, decPss .cmpGeu⟩,
   ⟨0x03, 0x10, allStreams, decPpp .pand⟩,
   ⟨0x03, 0x11, allStreams, decPpp .por⟩,
   ⟨0x03, 0x12, allStreams, decPp⟩]

/-- Rows of Table 4.9. -/
def rowsControl : List OpRow :=
  [⟨0x04, 0x00, allStreams, decKset⟩,
   ⟨0x04, 0x01, allStreams, decKadd⟩,
   ⟨0x04, 0x02, allStreams, decKmov⟩,
   ⟨0x04, 0x03, allStreams, decCadv⟩,
   ⟨0x04, 0x04, allStreams, decCrd⟩,
   ⟨0x04, 0x05, allStreams, decCwait⟩,
   ⟨0x05, 0x00, allStreams, decBr⟩,
   ⟨0x05, 0x01, allStreams, decBa .bri⟩,
   ⟨0x05, 0x02, allStreams, decCall⟩,
   ⟨0x05, 0x03, allStreams, decBa .ret⟩,
   ⟨0x05, 0x04, allStreams, decLoop⟩,
   ⟨0x05, 0x05, allStreams, decDpt⟩,
   ⟨0x05, 0x06, [.ctrl], decBare .fork⟩,
   ⟨0x05, 0x07, allStreams, decBare .join⟩,
   ⟨0x05, 0x08, allStreams, decBare .endStream⟩,
   ⟨0x05, 0x09, [.ctrl], decBa .post⟩]

/-- Rows of Table 4.9. -/
def rowsAccess : List OpRow :=
  [⟨0x20, 0x00, [.load], decTld⟩,
   ⟨0x20, 0x01, [.load], decTldp⟩,
   ⟨0x21, 0x00, [.store], decTst⟩,
   ⟨0x21, 0x01, [.store], decTstp⟩,
   ⟨0x22, 0x00, [.load, .store, .ctrl], decMs .ldsU8⟩,
   ⟨0x22, 0x01, [.load, .store, .ctrl], decMs .ldsU16⟩,
   ⟨0x22, 0x02, [.load, .store, .ctrl], decMs .ldsU32⟩,
   ⟨0x22, 0x03, [.load, .store, .ctrl], decMs .ldsU64⟩,
   ⟨0x22, 0x04, [.load, .store, .ctrl], decMs .ldsI8⟩,
   ⟨0x22, 0x05, [.load, .store, .ctrl], decMs .ldsI16⟩,
   ⟨0x22, 0x06, [.load, .store, .ctrl], decMs .ldsI32⟩,
   ⟨0x23, 0x00, [.load, .store, .ctrl], decMs .stsU8⟩,
   ⟨0x23, 0x01, [.load, .store, .ctrl], decMs .stsU16⟩,
   ⟨0x23, 0x02, [.load, .store, .ctrl], decMs .stsU32⟩,
   ⟨0x23, 0x03, [.load, .store, .ctrl], decMs .stsU64⟩,
   ⟨0x24, 0x00, [.load, .store, .ctrl], decMs .lookup⟩,
   ⟨0x24, 0x01, [.load, .store, .ctrl], decMs .tagset⟩,
   ⟨0x24, 0x02, [.load, .store, .ctrl], decTaginv⟩,
   ⟨0x24, 0x03, [.load, .store, .ctrl], decProbe⟩]

/-- Rows of Table 4.9. -/
def rowsVector1 : List OpRow :=
  [⟨0x40, 0x00, [.exec], decV2r .vadd⟩,
   ⟨0x40, 0x01, [.exec], decV2r .vsub⟩,
   ⟨0x40, 0x02, [.exec], decV2r .vmul⟩,
   ⟨0x40, 0x03, [.exec], decV3r .vfma⟩,
   ⟨0x40, 0x04, [.exec], decV3r .vfms⟩,
   ⟨0x40, 0x05, [.exec], decV2 .vmin⟩,
   ⟨0x40, 0x06, [.exec], decV2 .vmax⟩,
   ⟨0x40, 0x07, [.exec], decV1s .vabs⟩,
   ⟨0x40, 0x08, [.exec], decV1s .vneg⟩,
   ⟨0x40, 0x09, [.exec], decV2r .vdiv⟩,
   ⟨0x40, 0x0A, [.exec], decV1r .vsqrt⟩,
   ⟨0x41, 0x00, [.exec], decV1s .vrcp⟩,
   ⟨0x41, 0x01, [.exec], decV1s .vrsq⟩,
   ⟨0x41, 0x02, [.exec], decV1s .vexp2⟩,
   ⟨0x41, 0x03, [.exec], decV1s .vlog2⟩,
   ⟨0x42, 0x00, [.exec], decV2 .vand⟩,
   ⟨0x42, 0x01, [.exec], decV2 .vor⟩,
   ⟨0x42, 0x02, [.exec], decV2 .vxor⟩,
   ⟨0x42, 0x03, [.exec], decV1 .vnot⟩,
   ⟨0x42, 0x04, [.exec], decV2 .vshl⟩,
   ⟨0x42, 0x05, [.exec], decV2 .vshr⟩,
   ⟨0x42, 0x06, [.exec], decV2 .vsar⟩]

/-- Rows of Table 4.9. -/
def rowsVector2 : List OpRow :=
  [⟨0x43, 0x00, [.exec], decVcmp⟩,
   ⟨0x43, 0x01, [.exec], decVcmpb⟩,
   ⟨0x43, 0x02, [.exec], decV3 .vsel⟩,
   ⟨0x44, 0x00, [.exec], decVcvt⟩,
   ⟨0x44, 0x01, [.exec], decV1n .vmov⟩,
   ⟨0x44, 0x02, [.exec], decV1 .vsplat⟩,
   ⟨0x44, 0x03, [.exec], decV2 .vgete⟩,
   ⟨0x44, 0x04, [.exec], decV3 .vpute⟩,
   ⟨0x45, 0x00, [.exec], decVred .vred⟩,
   ⟨0x45, 0x01, [.exec], decVred .vscan⟩,
   ⟨0x45, 0x02, [.exec], decVpxor⟩,
   ⟨0x45, 0x03, [.exec], decVclmul⟩,
   ⟨0x45, 0x04, [.exec], decV1 .vpopc⟩,
   ⟨0x45, 0x05, [.exec], decV1 .vclz⟩,
   ⟨0x46, 0x00, [.exec], decV2 .vperm⟩,
   ⟨0x46, 0x01, [.exec], decV2n .vshuf⟩,
   ⟨0x46, 0x02, [.exec], decV1 .vtrn⟩,
   ⟨0x46, 0x03, [.exec], decV2n .vbcastr⟩,
   ⟨0x46, 0x04, [.exec], decV2 .vcomp⟩]

/-- Rows of Table 4.9. -/
def rowsMatrix : List OpRow :=
  [⟨0x80, 0x00, [.exec], decWlatch⟩,
   ⟨0x80, 0x01, [.exec], decWclr⟩,
   ⟨0x80, 0x02, [.exec], decMma⟩,
   ⟨0x80, 0x03, [.exec], decAmov⟩,
   ⟨0x80, 0x04, [.exec], decAzero⟩,
   ⟨0x80, 0x05, [.exec], decAadd⟩,
   ⟨0x81, 0x00, [.ctrl], decNsetl⟩,
   ⟨0x81, 0x01, [.ctrl], decNsetb⟩,
   ⟨0x81, 0x02, [.ctrl], decNgo⟩,
   ⟨0x81, 0x03, [.ctrl], decStat .nstat⟩]

/-- Rows of Table 4.9. -/
def rowsGeom : List OpRow :=
  [⟨0xA0, 0x00, [.exec], decOrient2⟩,
   ⟨0xA0, 0x01, [.exec], decG4 .orient3⟩,
   ⟨0xA0, 0x02, [.exec], decG4 .incirc⟩,
   ⟨0xA0, 0x03, [.exec], decG4 .insph⟩,
   ⟨0xA0, 0x04, [.exec], decG4 .segx⟩,
   ⟨0xA0, 0x05, [.exec], decStat .gstat⟩,
   ⟨0xB0, 0x00, [.exec], decNpack .npack⟩,
   ⟨0xB0, 0x01, [.exec], decNpack .nunpk⟩,
   ⟨0xB0, 0x02, [.exec], decNrnd⟩,
   ⟨0xB0, 0x03, [.exec], decNmom⟩,
   ⟨0xB0, 0x04, [.exec], decNupd⟩]

/-- Rows of Table 4.9. -/
def rowsEngine : List OpRow :=
  [⟨0xC0, 0x00, [.load, .store, .ctrl], decPc .pcopy⟩,
   ⟨0xC0, 0x01, [.load, .store, .ctrl], decPi .pgath⟩,
   ⟨0xC0, 0x02, [.load, .store, .ctrl], decPi .pscat⟩,
   ⟨0xC0, 0x03, [.load, .store, .ctrl], decPc .pfill⟩,
   ⟨0xC0, 0x04, [.load, .store, .ctrl], decPwld⟩,
   ⟨0xC0, 0x05, [.load, .store, .ctrl], decPrem⟩,
   ⟨0xC0, 0x06, [.load, .store, .ctrl], decPg .presume⟩,
   ⟨0xC0, 0x07, [.load, .store, .ctrl], decPg .pcancel⟩,
   ⟨0xC0, 0x08, [.load, .store, .ctrl], decPqstat⟩,
   ⟨0xC1, 0x00, [.load, .store, .ctrl], decSem .semadd⟩,
   ⟨0xC1, 0x01, [.load, .store, .ctrl], decSem .semswp⟩,
   ⟨0xC1, 0x02, [.load, .store, .ctrl], decSemcas⟩,
   ⟨0xC1, 0x03, [.load, .store, .ctrl], decSemmax⟩,
   ⟨0xC1, 0x04, [.load, .store, .ctrl], decSemld⟩,
   ⟨0xC1, 0x05, [.load, .store, .ctrl], decSemwt⟩,
   ⟨0xC2, 0x00, allStreams, decFence⟩,
   ⟨0xC2, 0x01, [.ctrl], decBar⟩]

/-- Rows of Table 4.9. -/
def rowsSystem : List OpRow :=
  [⟨0xE0, 0x00, allStreams, decNop⟩,
   ⟨0xE0, 0x01, allStreams, decTrap .trap⟩,
   ⟨0xE0, 0x02, [.ctrl], decEret⟩,
   ⟨0xE0, 0x03, [.ctrl], decResume⟩,
   ⟨0xE0, 0x04, allStreams, decCsrr⟩,
   ⟨0xE0, 0x05, allStreams, decCsrw⟩,
   ⟨0xE0, 0x06, allStreams, decCsrx⟩,
   ⟨0xE0, 0x07, allStreams, decTick⟩,
   ⟨0xE0, 0x08, allStreams, decTrap .bkpt⟩]

/-- The opcode map (Table 4.9, R101). -/
def opRows : List OpRow :=
  rowsScalar ++ rowsImm ++ rowsControl ++ rowsAccess ++ rowsVector1 ++
  rowsVector2 ++ rowsMatrix ++ rowsGeom ++ rowsEngine ++ rowsSystem

/-- The row of a pair, if the pair is assigned (R102). -/
def opRow (maj min : BitVec 8) : Option OpRow := opRows.find? fun r => r.maj == maj && r.min == min

/-- What the decode checks find in a word (Table 4.10, steps 3 to 5). -/
inductive Decoded where
  | instr (i : Instr)
  | illegalOpcode
  | wrongStream
  | reservedField
deriving DecidableEq, Repr

/-- Step 5 for a row: guard rules, operand shape and the values the page admits. -/
def OpRow.decode (r : OpRow) (w : Word96) : Option Instr := do
  let h := Head.ofWord w
  let g ← Guard.ofBits h.p h.n h.pred
  let i ← r.dec g h.ord (operands w)
  req i.wf (some i)

/-- Decode steps 3, 4 and 5 in order for the issuing stream (R103). -/
def decodeAt (x : StreamId) (w : Word96) : Decoded :=
  match opRow (Head.ofWord w).maj (Head.ofWord w).min with
  | none => .illegalOpcode
  | some r =>
    if r.streams.contains x then
      match r.decode w with
      | some i => .instr i
      | none => .reservedField
    else .wrongStream

/-- Decode steps 3 and 5, whatever the stream. -/
def decodeWord (w : Word96) : Option Instr := do
  let r ← opRow (Head.ofWord w).maj (Head.ofWord w).min
  r.decode w

/-- The streams that may issue a word's pair (Table 4.9). -/
def wordStreams (w : Word96) : List StreamId :=
  match opRow (Head.ofWord w).maj (Head.ofWord w).min with
  | none => []
  | some r => r.streams

/-! ## Packing in memory (R95 to R97) -/

/-- Number of present bytes in a header. -/
def presentCount (h : BitVec 16) : Nat :=
  (List.range 12).foldl (fun n j => if h.getLsbD j then n + 1 else n) 0

/-- Packed length L (R96). -/
def packedLen (h : BitVec 16) : Nat := 2 + presentCount h

/-- Length with its pad byte (R96). -/
def roundedLen (h : BitVec 16) : Nat := (packedLen h + 1) / 2 * 2

/-- Step 2 on the header: H[15:12] = 0b0101. -/
def prefixOk (h : BitVec 16) : Bool := h.extractLsb' 12 4 == 5

/-- The word from the present bytes, highest first: bytes for j = n − 1 down to 0. -/
def unpackFrom (h : BitVec 16) : Nat → List Byte → Nat → Nat
  | 0, _, acc => acc
  | n + 1, bs, acc =>
    if h.getLsbD n then
      match bs with
      | [] => unpackFrom h n [] (acc * 256)
      | b :: rest => unpackFrom h n rest (acc * 256 + b.toNat)
    else unpackFrom h n bs (acc * 256)

/-- The expanded word of a header and the bytes that follow it (R95). -/
def unpack (h : BitVec 16) (body : List Byte) : Word96 := BitVec.ofNat 96 (unpackFrom h 12 body 0)

/-- The pad byte, if the length is odd, is 0x00 (R96). -/
def padOk (h : BitVec 16) (body : List Byte) : Bool :=
  packedLen h % 2 == 0 || body.getD (packedLen h - 2) 0 == 0

/-- Little-endian header of the first two bytes (R95). -/
def headerOf (bs : List Byte) : BitVec 16 := (bs.getD 1 0 ++ bs.getD 0 0 : BitVec 16)

/-- Decode a packed instruction at the start of a list of bytes: the instruction and the bytes it takes. -/
def decodeBytes (bs : List Byte) : Option (Instr × Nat) := do
  let h := headerOf bs
  req (prefixOk h && decide (roundedLen h ≤ bs.length) && padOk h (bs.drop 2)) do
    let i ← decodeWord (unpack h (bs.drop 2))
    some (i, roundedLen h)

/-- Byte i of a table word: bits 8i + 7 down to 8i, the first byte at the lowest address. -/
def tableBytes (w : Nat) : List Byte := (List.range 14).map fun i => BitVec.ofNat 8 (w / 256 ^ i)

/-- The instruction the decoder reads from a word of the opcode table, its bits numbered from the first byte. -/
def decodeTableWord (nbits w : Nat) : Option Instr := (decodeBytes (tableBytes (w % 2 ^ nbits))).map (·.1)

/-! ## The encoder -/

def Guard.pBit : Guard → BitVec 1
  | .always => 0
  | .on _ _ => 1
def Guard.nBit : Guard → BitVec 1
  | .always => 0
  | .on neg _ => bit1 neg
def Guard.predBits : Guard → BitVec 3
  | .always => 0
  | .on _ p => p

/-- A word from its upper fields and operand bits (R80). -/
def mkWord (maj min : BitVec 8) (g : Guard) (ord : BitVec 3) (ops : BitVec 72) : Word96 :=
  maj ++ min ++ g.pBit ++ g.nBit ++ g.predBits ++ ord ++ ops

def FormT.pack (f : FormT) : BitVec 72 := f.dest ++ f.a ++ f.b ++ f.c ++ f.mode
def FormS.pack (f : FormS) : BitVec 72 := f.d ++ f.a ++ f.b ++ f.c ++ f.rsv
def FormI.pack (f : FormI) : BitVec 72 := f.d ++ f.a ++ f.rsv ++ f.imm
def FormB.pack (f : FormB) : BitVec 72 := f.d ++ f.a ++ f.kmask ++ f.dr ++ f.rsv ++ f.off
def FormM.pack (f : FormM) : BitVec 72 := f.t ++ f.base ++ f.str ++ f.x ++ f.sz ++ f.fl ++ f.off
def FormE.pack (f : FormE) : BitVec 72 :=
  f.gf ++ f.rdr ++ f.a ++ f.b ++ f.c ++ f.d ++ f.scp ++ f.rsv ++ f.imm
def FormG.pack (f : FormG) : BitVec 72 := f.dest ++ f.pa ++ f.pb ++ f.pc ++ f.pd ++ f.rsv
def FormX.pack (f : FormX) : BitVec 72 := f.d ++ f.a ++ f.csr ++ f.rsv ++ f.imm
def VMode.pack (m : VMode) : BitVec 17 := m.ty ++ m.rs ++ m.sat ++ m.me ++ m.mr ++ m.fn

/-- A predicate or count base in a 5-bit field. -/
def pregBits (p : PReg) : BitVec 5 := (0 : BitVec 2) ++ p
def kregBits (k : KReg) : BitVec 5 := BitVec.ofNat 5 k.val
def sixBits (k : Fin 6) : BitVec 5 := BitVec.ofNat 5 k.val
def CountSpec.baseBits : CountSpec → BitVec 3
  | .any => 7
  | .at k _ => BitVec.ofNat 3 k.val
def CountSpec.offBits : CountSpec → BitVec 5
  | .any => 0
  | .at _ off => off
def Src.bits {n : Nat} (s : Src n) : BitVec 15 := s.reg.setWidth 7 ++ s.spec.baseBits ++ s.spec.offBits
def Dst.bits {n : Nat} (d : Dst n) : BitVec 10 := d.reg.setWidth 7 ++ d.rdr
def CReg.cls : CReg → BitVec 2
  | .tile _ => 0
  | .acc _ => 1
  | .sig _ => 2
def CReg.regBits : CReg → BitVec 7
  | .tile r => r
  | .acc r => r.setWidth 7
  | .sig r => r.setWidth 7
def ElemTy.code : ElemTy → BitVec 5
  | .i4 => 0x00 | .u4 => 0x01 | .i4x => 0x02 | .i8 => 0x03 | .u8 => 0x04 | .i16 => 0x05 | .u16 => 0x06
  | .i32 => 0x07 | .u32 => 0x08 | .i64 => 0x09 | .u64 => 0x0A | .nf8 => 0x0B | .nf16 => 0x0C | .nf24 => 0x0D
  | .nf32 => 0x0E | .fp32 => 0x0F | .fp64 => 0x10 | .bf16 => 0x11 | .e8m0 => 0x12
def RSel.code : RSel → BitVec 3
  | .rmode => 0 | .rne => 1 | .rz => 2 | .ru => 3 | .rd => 4
def meBit : Option MReg → BitVec 1
  | none => 0
  | some _ => 1
def mrBits : Option MReg → BitVec 3
  | none => 0
  | some m => m
def Cond.code : Cond → BitVec 4
  | .eq => 0 | .ne => 1 | .lt => 2 | .le => 3 | .gt => 4 | .ge => 5
def RedOp.code : RedOp → BitVec 3
  | .add => 0 | .min => 1 | .max => 2 | .and => 3 | .or => 4 | .xor => 5
def RndFn.code : RndFn → BitVec 4
  | .trunc => 0 | .rn1 => 1 | .rnd => 2
def WFmt.code : WFmt → BitVec 4
  | .int8 => 0 | .int4 => 1 | .i4x => 2 | .nf => 3 | .fp64 => 4
def Scope.code : Scope → BitVec 3
  | .stream => 0 | .core => 1 | .gang => 2 | .die => 3 | .pkg => 4 | .sys => 5
def OrdScp.ordBits : OrdScp → BitVec 3
  | .plain => 0 | .acq _ => 1 | .rel _ => 2 | .ar _ => 3
def OrdScp.scpBits : OrdScp → BitVec 3
  | .plain => 0 | .acq s => s.code | .rel s => s.code | .ar s => s.code
def SemCond.code : SemCond → BitVec 32
  | .eq => 0 | .ne => 1 | .ge => 2 | .geu => 3 | .lt => 4 | .ltu => 5
def BarScope.code : BarScope → BitVec 3
  | .core => 1 | .gang => 2 | .die => 3 | .pkg => 4
def Csr.code : Csr → BitVec 12
  | .status => 0x000 | .rmode => 0x001 | .loopit => 0x002 | .drained => 0x003 | .role => 0x010 | .gsize => 0x011
  | .taskid => 0x012 | .kernid => 0x013 | .member => 0x014 | .gmode => 0x020 | .pqdepth => 0x021
  | .cause => 0x030 | .epc => 0x031 | .eaddr => 0x032 | .eword0 => 0x033 | .eword1 => 0x034 | .retpc => 0x035
  | .dlwait0 => 0x038 | .dlwait1 => 0x039 | .dlwait2 => 0x03A | .dlwait3 => 0x03B
  | .uhvec => 0x040 | .udeleg0 => 0x041 | .udeleg1 => 0x042 | .shvec => 0x080
def StreamId.code : StreamId → BitVec 2
  | .load => 0 | .exec => 1 | .store => 2 | .ctrl => 3

/-- A source any in the count instructions (R127). -/
def anyBits (x : CReg) : BitVec 15 := x.regBits ++ (0xE0 : BitVec 8)

def encS (maj min : BitVec 8) (g : Guard) (d a b c : BitVec 5) : Word96 :=
  mkWord maj min g 0 (FormS.pack ⟨d, a, b, c, 0⟩)
def encI (maj min : BitVec 8) (g : Guard) (d a : BitVec 5) (imm : BitVec 48) : Word96 :=
  mkWord maj min g 0 (FormI.pack ⟨d, a, 0, imm⟩)
def encT (maj min : BitVec 8) (g : Guard) (dest : BitVec 10) (a b c : BitVec 15) (mode : BitVec 17) : Word96 :=
  mkWord maj min g 0 (FormT.pack ⟨dest, a, b, c, mode⟩)
def encV (maj min : BitVec 8) (g : Guard) (d : TDst) (a b c : BitVec 15) (ty : BitVec 5) (rs : BitVec 3)
    (sat : Bool) (mk : Option MReg) (fn : BitVec 4) : Word96 :=
  encT maj min g d.bits a b c (VMode.pack ⟨ty, rs, bit1 sat, meBit mk, mrBits mk, fn⟩)
def encB (min : BitVec 8) (g : Guard) (d a : BitVec 5) (kmask : BitVec 7) (dr : BitVec 1) (rsv : BitVec 6)
    (off : BitVec 48) : Word96 := mkWord 0x05 min g 0 (FormB.pack ⟨d, a, kmask, dr, rsv, off⟩)
def encM (maj min : BitVec 8) (g : Guard) (t : BitVec 15) (base str : BitVec 5) (x : BitVec 15)
    (sz fl : BitVec 4) (off : BitVec 24) : Word96 := mkWord maj min g 0 (FormM.pack ⟨t, base, str, x, sz, fl, off⟩)
def encMs (maj min : BitVec 8) (g : Guard) (t base : SReg) (off : BitVec 24) : Word96 :=
  encM maj min g (t ++ (0 : BitVec 10)) base 0 0 0 0 off
def encE (maj min : BitVec 8) (g : Guard) (o : OrdScp) (gf : BitVec 7) (rdr : BitVec 3) (a b c d : BitVec 5)
    (imm : BitVec 32) : Word96 :=
  mkWord maj min g o.ordBits (FormE.pack ⟨gf, rdr, a, b, c, d, o.scpBits, 0, imm⟩)
def encP (min : BitVec 8) (g : Guard) (o : OrdScp) (d : GDst) (a b c e : BitVec 5) (imm : BitVec 32) : Word96 :=
  encE 0xC0 min g o (d.reg.setWidth 7) d.rdr a b c e imm
def encG (min : BitVec 8) (g : Guard) (d : TDst) (a b c e : BitVec 15) : Word96 :=
  mkWord 0xA0 min g 0 (FormG.pack ⟨d.bits, a, b, c, e, 0⟩)
def encX (min : BitVec 8) (g : Guard) (d a : BitVec 5) (csr : BitVec 12) (imm : BitVec 16) : Word96 :=
  mkWord 0xE0 min g 0 (FormX.pack ⟨d, a, csr, 0, imm⟩)
/-- ESZ and IW in IMM. -/
def ieBits (esz : BitVec 3) (iw : Bool) : BitVec 32 := (0 : BitVec 28) ++ bit1 iw ++ esz
/-- A scalar index in SRC C[12:8] (R209). -/
def sIndex (c : SReg) : BitVec 15 := (0 : BitVec 2) ++ c ++ (0 : BitVec 8)
/-- MODE of the matrix instructions from bits 11:10, 9:8 and 1:0. -/
def mmode (ty : BitVec 5) (q j : BitVec 2) (mk : Option MReg) (low : BitVec 4) : BitVec 17 :=
  ty ++ q ++ j ++ meBit mk ++ mrBits mk ++ low

/-- The word of an instruction (R80 to R94, with the pages); none for an event. -/
def encode : Instr → Option Word96
  | .add g d a b => some (encS 0x01 0x00 g d a b 0)
  | .sub g d a b => some (encS 0x01 0x01 g d a b 0)
  | .mul g d a b => some (encS 0x01 0x02 g d a b 0)
  | .mulh g d a b => some (encS 0x01 0x03 g d a b 0)
  | .mulhu g d a b => some (encS 0x01 0x04 g d a b 0)
  | .div g d a b => some (encS 0x01 0x05 g d a b 0)
  | .divu g d a b => some (encS 0x01 0x06 g d a b 0)
  | .rem g d a b => some (encS 0x01 0x07 g d a b 0)
  | .remu g d a b => some (encS 0x01 0x08 g d a b 0)
  | .and g d a b => some (encS 0x01 0x09 g d a b 0)
  | .or g d a b => some (encS 0x01 0x0A g d a b 0)
  | .xor g d a b => some (encS 0x01 0x0B g d a b 0)
  | .shl g d a b => some (encS 0x01 0x0C g d a b 0)
  | .shr g d a b => some (encS 0x01 0x0D g d a b 0)
  | .sar g d a b => some (encS 0x01 0x0E g d a b 0)
  | .rot g d a b => some (encS 0x01 0x0F g d a b 0)
  | .min g d a b => some (encS 0x01 0x10 g d a b 0)
  | .max g d a b => some (encS 0x01 0x11 g d a b 0)
  | .minu g d a b => some (encS 0x01 0x12 g d a b 0)
  | .maxu g d a b => some (encS 0x01 0x13 g d a b 0)
  | .sel g d a b p => some (encS 0x01 0x14 g d a b (pregBits p))
  | .mov g d a => some (encS 0x01 0x15 g d a 0 0)
  | .clz g d a => some (encS 0x01 0x16 g d a 0 0)
  | .ctz g d a => some (encS 0x01 0x17 g d a 0 0)
  | .popc g d a => some (encS 0x01 0x18 g d a 0 0)
  | .addi g d a imm => some (encI 0x02 0x00 g d a imm)
  | .andi g d a imm => some (encI 0x02 0x01 g d a imm)
  | .ori g d a imm => some (encI 0x02 0x02 g d a imm)
  | .xori g d a imm => some (encI 0x02 0x03 g d a imm)
  | .shli g d a sh => some (encI 0x02 0x04 g d a ((0 : BitVec 42) ++ sh))
  | .shri g d a sh => some (encI 0x02 0x05 g d a ((0 : BitVec 42) ++ sh))
  | .sari g d a sh => some (encI 0x02 0x06 g d a ((0 : BitVec 42) ++ sh))
  | .li g d imm => some (encI 0x02 0x07 g d 0 imm)
  | .lih g d a imm => some (encI 0x02 0x08 g d a ((0 : BitVec 32) ++ imm))
  | .lea g d a imm => some (encI 0x02 0x09 g d a imm)
  | .cmpEq g d a b => some (encS 0x03 0x00 g (pregBits d) a b 0)
  | .cmpNe g d a b => some (encS 0x03 0x01 g (pregBits d) a b 0)
  | .cmpLt g d a b => some (encS 0x03 0x02 g (pregBits d) a b 0)
  | .cmpLe g d a b => some (encS 0x03 0x03 g (pregBits d) a b 0)
  | .cmpGt g d a b => some (encS 0x03 0x04 g (pregBits d) a b 0)
  | .cmpGe g d a b => some (encS 0x03 0x05 g (pregBits d) a b 0)
  | .cmpLtu g d a b => some (encS 0x03 0x06 g (pregBits d) a b 0)
  | .cmpLeu g d a b => some (encS 0x03 0x07 g (pregBits d) a b 0)
  | .cmpGtu g d a b => some (encS 0x03 0x08 g (pregBits d) a b 0)
  | .cmpGeu g d a b => some (encS 0x03 0x09 g (pregBits d) a b 0)
  | .pand g d a b => some (encS 0x03 0x10 g (pregBits d) (pregBits a) (pregBits b) 0)
  | .por g d a b => some (encS 0x03 0x11 g (pregBits d) (pregBits a) (pregBits b) 0)
  | .pnot g d a => some (encS 0x03 0x12 g (pregBits d) (pregBits a) 0 0)
  | .kset g d imm => some (encI 0x04 0x00 g (kregBits d) 0 ((0 : BitVec 32) ++ imm))
  | .kadd g d a imm => some (encI 0x04 0x01 g (kregBits d) (kregBits a) ((0 : BitVec 32) ++ imm))
  | .kmovKS g d a => some (encS 0x04 0x02 g (kregBits d) a 0 0)
  | .kmovSK g d a => some (encS 0x04 0x02 g d (kregBits a) 1 0)
  | .kmovKK g d a => some (encS 0x04 0x02 g (kregBits d) (kregBits a) 2 0)
  | .cadv g x rdr => some (encT 0x04 0x03 g (x.regBits ++ rdr) 0 0 0 (x.cls ++ (0 : BitVec 15)))
  | .crd g d x => some (encT 0x04 0x04 g 0 (anyBits x) 0 0 (x.cls ++ (0 : BitVec 10) ++ d))
  | .cwait g x k off =>
    some (encT 0x04 0x05 g 0 (x.regBits ++ BitVec.ofNat 3 k.val ++ off) 0 0 (x.cls ++ (0 : BitVec 15)))
  | .br g off => some (encB 0x00 g 0 0 0 0 0 off)
  | .bri g a => some (encB 0x01 g 0 a 0 0 0 0)
  | .call g d off => some (encB 0x02 g d 0 0 0 0 off)
  | .ret g a => some (encB 0x03 g 0 a 0 0 0 0)
  | .loop g d kmask drain off => some (encB 0x04 g d 0 kmask (bit1 drain) 0 off)
  | .dpt a b => some (encB 0x05 .always 0 a 0 0 ((0 : BitVec 1) ++ b) 0)
  | .fork => some (encB 0x06 .always 0 0 0 0 0 0)
  | .join => some (encB 0x07 .always 0 0 0 0 0 0)
  | .endStream => some (encB 0x08 .always 0 0 0 0 0 0)
  | .post g a => some (encB 0x09 g 0 a 0 0 0 0)
  | .tld g d base str off => some (encM 0x20 0x00 g (d.reg ++ d.rdr ++ (0 : BitVec 5)) base str 0 0 0 off)
  | .tldp g d n rn1 base str off =>
    some (encM 0x20 0x01 g (d.reg ++ d.rdr ++ (0 : BitVec 5)) base str 0 ((0 : BitVec 1) ++ bit1 rn1 ++ n) 0 off)
  | .tst g a base str off => some (encM 0x21 0x00 g a.bits base str 0 0 0 off)
  | .tstp g a n none base str off => some (encM 0x21 0x01 g a.bits base str 0 ((0 : BitVec 2) ++ n) 0 off)
  | .tstp g a n (some x) base str off => some (encM 0x21 0x01 g a.bits base str x.bits ((0 : BitVec 2) ++ n) 1 off)
  | .ldsU8 g t base off => some (encMs 0x22 0x00 g t base off)
  | .ldsU16 g t base off => some (encMs 0x22 0x01 g t base off)
  | .ldsU32 g t base off => some (encMs 0x22 0x02 g t base off)
  | .ldsU64 g t base off => some (encMs 0x22 0x03 g t base off)
  | .ldsI8 g t base off => some (encMs 0x22 0x04 g t base off)
  | .ldsI16 g t base off => some (encMs 0x22 0x05 g t base off)
  | .ldsI32 g t base off => some (encMs 0x22 0x06 g t base off)
  | .stsU8 g t base off => some (encMs 0x23 0x00 g t base off)
  | .stsU16 g t base off => some (encMs 0x23 0x01 g t base off)
  | .stsU32 g t base off => some (encMs 0x23 0x02 g t base off)
  | .stsU64 g t base off => some (encMs 0x23 0x03 g t base off)
  | .lookup g t base off => some (encMs 0x24 0x00 g t base off)
  | .tagset g t base off => some (encMs 0x24 0x01 g t base off)
  | .taginv g base off => some (encMs 0x24 0x02 g 0 base off)
  | .probe g t base off range => some (encM 0x24 0x03 g (t ++ (0 : BitVec 10)) base 0 0 0 range off)
  | .vadd g d a b ty rs sat mk => some (encV 0x40 0x00 g d a.bits b.bits 0 ty.code rs.code sat mk 0)
  | .vsub g d a b ty rs sat mk => some (encV 0x40 0x01 g d a.bits b.bits 0 ty.code rs.code sat mk 0)
  | .vmul g d a b ty rs sat mk => some (encV 0x40 0x02 g d a.bits b.bits 0 ty.code rs.code sat mk 0)
  | .vfma g d a b c ty rs sat mk => some (encV 0x40 0x03 g d a.bits b.bits c.bits ty.code rs.code sat mk 0)
  | .vfms g d a b c ty rs sat mk => some (encV 0x40 0x04 g d a.bits b.bits c.bits ty.code rs.code sat mk 0)
  | .vmin g d a b ty mk => some (encV 0x40 0x05 g d a.bits b.bits 0 ty.code 0 false mk 0)
  | .vmax g d a b ty mk => some (encV 0x40 0x06 g d a.bits b.bits 0 ty.code 0 false mk 0)
  | .vabs g d a ty sat mk => some (encV 0x40 0x07 g d a.bits 0 0 ty.code 0 sat mk 0)
  | .vneg g d a ty sat mk => some (encV 0x40 0x08 g d a.bits 0 0 ty.code 0 sat mk 0)
  | .vdiv g d a b ty rs sat mk => some (encV 0x40 0x09 g d a.bits b.bits 0 ty.code rs.code sat mk 0)
  | .vsqrt g d a ty rs sat mk => some (encV 0x40 0x0A g d a.bits 0 0 ty.code rs.code sat mk 0)
  | .vrcp g d a ty sat mk => some (encV 0x41 0x00 g d a.bits 0 0 ty.code 0 sat mk 0)
  | .vrsq g d a ty sat mk => some (encV 0x41 0x01 g d a.bits 0 0 ty.code 0 sat mk 0)
  | .vexp2 g d a ty sat mk => some (encV 0x41 0x02 g d a.bits 0 0 ty.code 0 sat mk 0)
  | .vlog2 g d a ty sat mk => some (encV 0x41 0x03 g d a.bits 0 0 ty.code 0 sat mk 0)
  | .vand g d a b ty mk => some (encV 0x42 0x00 g d a.bits b.bits 0 ty.code 0 false mk 0)
  | .vor g d a b ty mk => some (encV 0x42 0x01 g d a.bits b.bits 0 ty.code 0 false mk 0)
  | .vxor g d a b ty mk => some (encV 0x42 0x02 g d a.bits b.bits 0 ty.code 0 false mk 0)
  | .vnot g d a ty mk => some (encV 0x42 0x03 g d a.bits 0 0 ty.code 0 false mk 0)
  | .vshl g d a b ty mk => some (encV 0x42 0x04 g d a.bits b.bits 0 ty.code 0 false mk 0)
  | .vshr g d a b ty mk => some (encV 0x42 0x05 g d a.bits b.bits 0 ty.code 0 false mk 0)
  | .vsar g d a b ty mk => some (encV 0x42 0x06 g d a.bits b.bits 0 ty.code 0 false mk 0)
  | .vcmp g d a b c ty mk => some (encV 0x43 0x00 g d a.bits b.bits 0 ty.code 0 false mk c.code)
  | .vcmpb g d a b c mk => some (encV 0x43 0x01 g d a.bits b.bits 0 0x04 0 false mk c.code)
  | .vsel g d a b c ty mk => some (encV 0x43 0x02 g d a.bits b.bits c.bits ty.code 0 false mk 0)
  | .vcvt g d a sty dty rs sat part mk =>
    some (encV 0x44 0x00 g d a.bits 0 ((0 : BitVec 10) ++ sty.code) dty.code rs.code sat mk part)
  | .vmov g d a mk => some (encV 0x44 0x01 g d a.bits 0 0 0 0 false mk 0)
  | .vsplat g d a ty mk => some (encV 0x44 0x02 g d a.bits 0 0 ty.code 0 false mk 0)
  | .vgete g d a b ty mk => some (encV 0x44 0x03 g d a.bits b.bits 0 ty.code 0 false mk 0)
  | .vpute g d a b c ty mk => some (encV 0x44 0x04 g d a.bits b.bits c.bits ty.code 0 false mk 0)
  | .vred g d a op row ty rs sat mk =>
    some (encV 0x45 0x00 g d a.bits 0 0 ty.code rs.code sat mk (bit1 row ++ op.code))
  | .vscan g d a op row ty rs sat mk =>
    some (encV 0x45 0x01 g d a.bits 0 0 ty.code rs.code sat mk (bit1 row ++ op.code))
  | .vpxor g d a tile ty mk => some (encV 0x45 0x02 g d a.bits 0 0 ty.code 0 false mk ((0 : BitVec 3) ++ bit1 tile))
  | .vclmul g d a b hi mk => some (encV 0x45 0x03 g d a.bits b.bits 0 0x0A 0 false mk ((0 : BitVec 3) ++ bit1 hi))
  | .vpopc g d a ty mk => some (encV 0x45 0x04 g d a.bits 0 0 ty.code 0 false mk 0)
  | .vclz g d a ty mk => some (encV 0x45 0x05 g d a.bits 0 0 ty.code 0 false mk 0)
  | .vperm g d a b ty mk => some (encV 0x46 0x00 g d a.bits b.bits 0 ty.code 0 false mk 0)
  | .vshuf g d a b mk => some (encV 0x46 0x01 g d a.bits b.bits 0 0 0 false mk 0)
  | .vtrn g d a ty mk => some (encV 0x46 0x02 g d a.bits 0 0 ty.code 0 false mk 0)
  | .vbcastr g d a b mk => some (encV 0x46 0x03 g d a.bits b.bits 0 0 0 false mk 0)
  | .vcomp g d a b ty mk => some (encV 0x46 0x04 g d a.bits b.bits 0 ty.code 0 false mk 0)
  | .wlatch g d a ws ss fmt np rn =>
    some (encT 0x80 0x00 g d.bits a.bits 0 0 (ws ++ ss ++ fmt.code ++ np ++ bit1 rn))
  | .wclr g => some (mkWord 0x80 0x01 g 0 0)
  | .mma g d a none none ty band ksel mk zs =>
    some (encT 0x80 0x02 g d.bits a.bits 0 0 (mmode ty.code band ksel mk ((0b1 : BitVec 1) ++ (0b0 : BitVec 1) ++ bit1 zs ++ (0 : BitVec 1))))
  | .mma g d a none (some c) ty band ksel mk zs =>
    some (encT 0x80 0x02 g d.bits a.bits 0 c.bits (mmode ty.code band ksel mk ((0b1 : BitVec 1) ++ (0b1 : BitVec 1) ++ bit1 zs ++ (0 : BitVec 1))))
  | .mma g d a (some b) none ty band ksel mk zs =>
    some (encT 0x80 0x02 g d.bits a.bits b.bits 0 (mmode ty.code band ksel mk ((0b0 : BitVec 1) ++ (0b0 : BitVec 1) ++ bit1 zs ++ (0 : BitVec 1))))
  | .mma g d a (some b) (some c) ty band ksel mk zs =>
    some (encT 0x80 0x02 g d.bits a.bits b.bits c.bits (mmode ty.code band ksel mk ((0b0 : BitVec 1) ++ (0b1 : BitVec 1) ++ bit1 zs ++ (0 : BitVec 1))))
  | .amovToTile g d a q j mk => some (encT 0x80 0x03 g d.bits a.bits 0 0 (mmode 0 q j mk 0))
  | .amovToAcc g d a q j mk => some (encT 0x80 0x03 g d.bits a.bits 0 0 (mmode 0 q j mk 1))
  | .azero g d => some (encT 0x80 0x04 g d.bits 0 0 0 0)
  | .aadd g d a b ty rs sat =>
    some (encT 0x80 0x05 g d.bits a.bits b.bits 0 (VMode.pack ⟨ty.code, rs.code, bit1 sat, 0, 0, 0⟩))
  | .nsetl g l a b c => some (encS 0x81 0x00 g (sixBits l) a b c)
  | .nsetb g f a => some (encS 0x81 0x01 g (sixBits f) a 0 0)
  | .nstat g d sel => some (encS 0x81 0x03 g d 0 ((0 : BitVec 4) ++ bit1 sel) 0)
  | .ngo g d ord => some (encE 0x81 0x02 g ord (d.reg.setWidth 7) d.rdr 0 0 0 0 0)
  | .orient2 g d a b c => some (encG 0x00 g d a.bits b.bits c.bits 0)
  | .orient3 g d a b c e => some (encG 0x01 g d a.bits b.bits c.bits e.bits)
  | .incirc g d a b c e => some (encG 0x02 g d a.bits b.bits c.bits e.bits)
  | .insph g d a b c e => some (encG 0x03 g d a.bits b.bits c.bits e.bits)
  | .segx g d a b c e => some (encG 0x04 g d a.bits b.bits c.bits e.bits)
  | .gstat g d sel => some (encS 0xA0 0x05 g d 0 ((0 : BitVec 4) ++ bit1 sel) 0)
  | .npack g d a mk => some (encV 0xB0 0x00 g d a.bits 0 0 0x0E 0 false mk 0)
  | .nunpk g d a mk => some (encV 0xB0 0x01 g d a.bits 0 0 0x0E 0 false mk 0)
  | .nrnd g d a fn ty rs sat mk => some (encV 0xB0 0x02 g d a.bits 0 0 ty.code rs.code sat mk fn.code)
  | .nmom g d a b c ty rs sat mk => some (encV 0xB0 0x03 g d a.bits b.bits (sIndex c) ty.code rs.code sat mk 0)
  | .nupd g d a b c ty k =>
    some (encV 0xB0 0x04 g d a.bits b.bits (sIndex c) ty.code 0 false none ((0 : BitVec 1) ++ k))
  | .nupdCm g d a b c ty k =>
    some (encV 0xB0 0x04 g d a.bits b.bits (sIndex c) ty.code 0 false none ((1 : BitVec 1) ++ k))
  | .pcopy g d ord a b c esz => some (encP 0x00 g ord d a b c 0 (ieBits esz false))
  | .pgath g d ord a b c e esz iw => some (encP 0x01 g ord d a b c e (ieBits esz iw))
  | .pscat g d ord a b c e esz iw => some (encP 0x02 g ord d a b c e (ieBits esz iw))
  | .pfill g d ord a b c esz => some (encP 0x03 g ord d a b c 0 (ieBits esz false))
  | .pwld g d ord a b c none => some (encP 0x04 g ord d a b c 0 0)
  | .pwld g d ord a b c (some e) => some (encP 0x04 g ord d a b c e 1)
  | .prem g d ord a b c e esz => some (encP 0x05 g ord d a b c e (ieBits esz false))
  | .presume g d => some (encP 0x06 g .plain d 0 0 0 0 0)
  | .pcancel g d => some (encP 0x07 g .plain d 0 0 0 0 0)
  | .pqstat g d sel => some (encE 0xC0 0x08 g .plain 0 0 0 0 0 d (BitVec.ofNat 32 sel.val))
  | .semadd g ord d a b => some (encE 0xC1 0x00 g ord 0 0 a b 0 d 0)
  | .semswp g ord d a b => some (encE 0xC1 0x01 g ord 0 0 a b 0 d 0)
  | .semcas g ord d a b c => some (encE 0xC1 0x02 g ord 0 0 a b c d 0)
  | .semmax g ord d a b u => some (encE 0xC1 0x03 g ord 0 0 a b 0 d ((0 : BitVec 31) ++ bit1 u))
  | .semld g ord d a => some (encE 0xC1 0x04 g ord 0 0 a 0 0 d 0)
  | .semwt g ord d a b cond => some (encE 0xC1 0x05 g ord 0 0 a b 0 d cond.code)
  | .fence g ord => some (encE 0xC2 0x00 g ord 0 0 0 0 0 0 0)
  | .bar g ar s => some (mkWord 0xC2 0x01 g (if ar then 3 else 0) (FormE.pack ⟨0, 0, 0, 0, 0, 0, s.code, 0, 0⟩))
  | .nop g => some (mkWord 0xE0 0x00 g 0 0)
  | .trap g imm => some (encX 0x01 g 0 0 0 imm)
  | .bkpt g imm => some (encX 0x08 g 0 0 0 imm)
  | .csrr g d c => some (encX 0x04 g d 0 c.code 0)
  | .csrw g c a => some (encX 0x05 g 0 a c.code 0)
  | .csrx g d c a => some (encX 0x06 g d a c.code 0)
  | .tick g d => some (encX 0x07 g d 0 0 0)
  | .eret => some (mkWord 0xE0 0x02 .always 0 0)
  | .resumeRetry g x a => some (encX 0x03 g 0 a 0 ((0 : BitVec 14) ++ x.code))
  | .resumeSkip g x => some (encX 0x03 g 0 0 0 ((1 : BitVec 14) ++ x.code))
  | .instructionFetch .. | .countWaitResume .. | .issueIntervalEnd .. | .vectorWriteComplete ..
  | .tileLoadComplete .. | .tileStorePerformed .. | .scalarLoadReturn .. | .scalarStorePerformed ..
  | .pageWalkComplete .. | .priResponse .. | .arrayQueueRoom .. | .wlatchComplete .. | .wclrExecute ..
  | .mmaComplete .. | .nestGroupComplete .. | .nestComplete .. | .geomAccept .. | .geomComplete ..
  | .pumpQueueRoom .. | .pumpTakeCommand .. | .pumpCommandEnd .. | .pumpPark .. | .premUnitAck ..
  | .semOpPerform .. | .semOpResult .. | .semwtHoldExpire .. | .joinComplete .. | .barComplete ..
  | .streamEnded .. | .taskRetire .. | .watchdogExpire .. | .trapDelivery .. | .eccUncorrectable ..
  | .answerRetry .. | .answerSkip .. | .answerAbandon .. | .mbrdWrite .. | .notifyWidxWrite ..
  | .requestPacket .. | .queueEnable .. | .queueDisable .. | .commandFetch .. | .cmdNop .. | .cmdLaunch ..
  | .cmdWait .. | .cmdSignal .. | .queueUnblock .. | .signalPerform .. | .launchComplete .. | .agingStep ..
  | .gangStart .. | .gangRestore .. | .sliceEnd .. | .drainWithdraw .. | .drainComplete .. | .hardStop ..
  | .saveComplete .. | .zeroingComplete .. | .functionLevelReset .. | .hostAbandon .. | .hostMemoryAccess ..
  | .portDoorWrite .. | .invVa .. | .invPasid .. | .invIpa .. | .invAll .. | .aperture .. | .migrate ..
  | .portDrainComplete .. | .pstatRead .. | .qmapWrite .. | .linkTrain .. | .flitCrcError ..
  | .packetReceive .. | .packetAck .. | .linkFaultDetect .. | .linkResolveExpire .. | .linkUp ..
  | .sourceResetNotice .. | .routingSwap .. | .keySwap .. | .swapComplete .. | .powerOn .. | .ovoneReady ..
  | .readyTimeout .. | .answerFlashWrite .. | .answerRestart .. | .attestRequest .. | .attestReportPost ..
  | .partitionEnable .. | .partitionDisable .. | .bandwidthTick .. | .bankownWrite .. | .bclaimClaim ..
  | .bclaimRelease .. | .bctlWrite .. | .bstatRead .. | .stoptickArm .. | .stopTick .. | .release ..
  | .sampleRecord .. | .twrRead .. | .leapfrogCheckpoint .. | .leap .. | .replayDiverge .. | .memoryError ..
  | .coreOffline .. | .scrubRead .. | .sensorSample .. | .powerSample .. | .thermalStop .. | .pwrctlWrite ..
  | .registerWrite .. | .imageLoaded .. | .migrateCopyComplete .. | .packetRefused .. => none

/-- Header of the canonical encoding: a bit for each byte that is not zero (R97). -/
def canonHeader (w : Word96) : BitVec 16 :=
  BitVec.ofNat 16 (0x5000 + ((List.range 12).map fun j => if w.extractLsb' (8 * j) 8 == 0 then 0 else 2 ^ j).sum)

/-- The present bytes, highest first. -/
def presentBytes (w : Word96) : List Byte :=
  ((List.range 12).reverse.map fun j => w.extractLsb' (8 * j) 8).filter (· != 0)

/-- The canonical packed bytes of a word (R95 to R97). -/
def pack (w : Word96) : List Byte :=
  let h := canonHeader w
  let bs := h.extractLsb' 0 8 :: h.extractLsb' 8 8 :: presentBytes w
  if bs.length % 2 == 0 then bs else bs ++ [0]

end Sys2Proof
end

