-- ==== Sys2Proof/Config.lean ====
section
/-! DEFINITION. What the spec leaves to the part or leaves open: free values, which no proof can see (assumption
log 7), and functions of published standards that the model takes as given (assumption log 21). -/

namespace Sys2Proof.Config

/-- A free byte for each number (assumption log 7): unpredictable bytes are taken from here. -/
opaque freeByte : Nat → BitVec 8

/-- A free 64-bit value for each number (assumption log 7). -/
opaque freeWord : Nat → BitVec 64

/-- A free tile for each number (R26, R193, R253; assumption log 7). -/
opaque freeTile : Nat → BitVec 32768

/-- The nibble of an I4X element whose partner lies outside the part that a VCVT converts, of which the spec states no result:
a function of the source tile, the rounding mode's code and the element (R79, R156; assumption log 7). -/
opaque i4xHalf : BitVec 32768 → Nat → Nat → BitVec 4

/-- The band that a step of a nest leaves whose latched weights Table 8.1 does not pair with its type, for which the spec states
no value: a function of the weights and scales latched, the codes of their format and of the type, the activation tile and
the band before (R79, R183; assumption log 7). -/
opaque unpairedBand : BitVec 524288 → BitVec 1024 → Nat → Nat → BitVec 32768 → Nat → BitVec 524288

/-- A free accumulator for each number (R179, R185; assumption log 7). -/
opaque freeAcc : Nat → BitVec 524288

/-- What a byte stored under one key reads as under another key: key of the store, key of the read, address and
stored byte (R391; assumption log 14). -/
opaque foreignByte : Nat → Nat → Nat → BitVec 8 → BitVec 8

/-- What the syndrome of a checker mismatch names, for each kind of unit (R402, R408; assumption log 7). -/
opaque checkerCode : Nat → BitVec 32

/-- The flash as the part is delivered (Table 0.1; assumption log 17): the root monitor's signed stage, the configuration
record, the Ovone image, and the signatures of the first and the last. -/
opaque monitorBytes : List (BitVec 8)
opaque monitorSig : BitVec 512
opaque recordBytes : List (BitVec 8)
opaque ovoneBytes : List (BitVec 8)
opaque ovoneSig : BitVec 512

/-- The bytes of the flash that 64-byte blocks of a staged image leave (R389; assumption log 17): item 0 to 2 and the blocks
written, given what the item held. -/
opaque installed : Nat → List (BitVec 512) → List (BitVec 8) → List (BitVec 8)

/-- The signature of an item that the blocks of a staged image leave (R389; assumption log 17). -/
opaque installedSig : Nat → List (BitVec 512) → BitVec 512 → BitVec 512

/-- Whether a signature over an SM3 hash verifies against the vendor key in ROM (R385; assumption log 21). -/
opaque vendorVerifies : BitVec 256 → BitVec 512 → Bool

/-- SM3 of a string of bytes (R386; assumption log 21). -/
opaque sm3 : List (BitVec 8) → BitVec 256

/-- The SM2 signature of a report by the part's identity key over an SM3 hash (R393; assumption log 21). -/
opaque reportSig : BitVec 256 → BitVec 512

/-- The device identity certificate (R393; assumption log 21). -/
opaque idcert : BitVec 1536

/-- The 64 bytes of a staged image that a write of KIND 0x20 puts into flash, whose places in the write the spec does not give
(R389, assumption log 17). -/
opaque stagedBytes : BitVec 512 → BitVec 512

end Sys2Proof.Config
end

