-- ==== Sys2Proof/Machine/Memory.lean ====
section
/-! DEFINITION. Byte memory in one canonical form, poison granules, and sparse tables. An unlisted address reads
0x00 (assumption log 2). -/

namespace Sys2Proof.Machine

/-- Bytes by address: addresses strictly rising, no entry equal to what an unlisted address reads as. -/
abbrev Memory := List Host.Cell

namespace Memory

/-- What an address that nothing has written reads as (assumption log 2, DESIGN CHOICE). -/
def unlisted : Byte := 0

/-- The canonical form. -/
def wf : Memory → Bool
  | [] => true
  | [c] => c.2 != unlisted
  | c :: d :: t => c.2 != unlisted && decide (c.1 < d.1) && wf (d :: t)

/-- One byte. -/
def read (m : Memory) (a : Nat) : Byte :=
  match m.find? fun c => c.1 == a with
  | some c => c.2
  | none => unlisted

/-- The cells of a run of bytes, those equal to an unlisted byte left out. -/
def cells (a : Nat) : List Byte → Memory
  | [] => []
  | b :: bs => if b == unlisted then cells (a + 1) bs else (a, b) :: cells (a + 1) bs

/-- Write a run of bytes from address a on. -/
def write (m : Memory) (a : Nat) (bs : List Byte) : Memory :=
  m.filter (fun c => decide (c.1 < a)) ++ cells a bs ++ m.filter (fun c => decide (a + bs.length ≤ c.1))

/-- n bytes from address a on, of cells whose addresses rise from a or above. -/
def bytesFrom (m : Memory) (a : Nat) : Nat → List Byte
  | 0 => []
  | n + 1 =>
    match m with
    | [] => unlisted :: bytesFrom [] (a + 1) n
    | c :: t => if c.1 == a then c.2 :: bytesFrom t (a + 1) n else unlisted :: bytesFrom (c :: t) (a + 1) n

/-- A run of n bytes from address a on. -/
def readRange (m : Memory) (a n : Nat) : List Byte :=
  bytesFrom (m.filter fun c => decide (a ≤ c.1) && decide (c.1 < a + n)) a n

end Memory

/-- Little-endian value of bytes (R3). -/
def leNat : List Byte → Nat
  | [] => 0
  | b :: bs => b.toNat + 256 * leNat bs

/-- n little-endian bytes of a value (R3). -/
def leBytes : Nat → Nat → List Byte
  | 0, _ => []
  | n + 1, v => BitVec.ofNat 8 v :: leBytes n (v / 256)

/-- Bytes with the 64-byte granules that are poisoned, rising (R403). -/
structure PoisonMem where
  bytes : Memory
  poison : List Nat
deriving DecidableEq, Repr

namespace PoisonMem

/-- Nothing listed and nothing poisoned. -/
def empty : PoisonMem := ⟨[], []⟩

/-- A granule's poison. -/
def bad (m : PoisonMem) (granule : Nat) : Bool := m.poison.contains granule

/-- Set or clear the poison of one granule. -/
def mark (m : PoisonMem) (granule : Nat) (b : Bool) : PoisonMem :=
  { m with poison := m.poison.filter (fun x => decide (x < granule)) ++ (if b then [granule] else []) ++
      m.poison.filter (fun x => decide (granule < x)) }

/-- The granules a run of n bytes touches. -/
def granules (a n : Nat) : List Nat :=
  if n == 0 then [] else (List.range ((a + n - 1) / 64 - a / 64 + 1)).map (a / 64 + ·)

/-- Some granule the run touches is poisoned. -/
def badRange (m : PoisonMem) (a n : Nat) : Bool := (granules a n).any m.bad

/-- A granule that the run covers wholly (R403). -/
def covers (a n g : Nat) : Bool := decide (a ≤ 64 * g) && decide (64 * g + 64 ≤ a + n)

/-- Store bytes whose data is poisoned or not: a granule covered wholly takes the data's poison, one covered in
part stays poisoned if it was, or takes the data's (R403). -/
def store (m : PoisonMem) (a : Nat) (bs : List Byte) (p : Bool) : PoisonMem :=
  (granules a bs.length).foldl
    (fun m g => if covers a bs.length g then m.mark g p else if p then m.mark g true else m)
    { m with bytes := m.bytes.write a bs }

/-- Canonical form: the bytes are, and the poison list rises strictly. -/
def wf (m : PoisonMem) : Bool := m.bytes.wf && decide (m.poison.Pairwise (· < ·))

end PoisonMem

/-- A sparse table: keys strictly rising. -/
abbrev Sparse (α : Type) := List (Nat × α)

namespace Sparse

/-- The entry at a key. -/
def get? {α : Type} (t : Sparse α) (k : Nat) : Option α :=
  match t.find? fun c => c.1 == k with
  | some c => some c.2
  | none => none

/-- The table with an entry set. -/
def set {α : Type} (t : Sparse α) (k : Nat) (v : α) : Sparse α :=
  t.filter (fun c => decide (c.1 < k)) ++ [(k, v)] ++ t.filter (fun c => decide (k < c.1))

/-- The table without an entry. -/
def drop {α : Type} (t : Sparse α) (k : Nat) : Sparse α := t.filter fun c => c.1 != k

end Sparse

end Sys2Proof.Machine
end

