-- ==== Sys2Proof/Machine/CoreState.lean ====
section
/-! DEFINITION. The state of one core: streams, counted registers, engines, trap state (spec/01, 02, 06 to 11,
20). Plain data. -/

namespace Sys2Proof.Machine

/-- Stream states (Table 1.3). -/
inductive StreamState where
  | idle | running | countWait | otherWait | stopped | drainStop | ended
deriving DecidableEq, Repr

/-- Rounding modes (R73, R75). -/
inductive RM where
  | rne | rz | ru | rd
deriving DecidableEq, Repr

/-- Count state of a counted register (Table 1.4, R21, R404). -/
structure Count where
  c : BitVec 16
  p : BitVec 3
  opn : Bool
  rsv : Bool
  bad : Bool
deriving DecidableEq, Repr

/-- A tile register: 4 KiB, count state, poison of its 32 rows (Table 1.4). -/
structure Tile where
  val : BitVec 32768
  cnt : Count
  poison : BitVec 32
deriving DecidableEq, Repr

/-- An accumulator: 64 KiB, count state, poison of its 128 rows (R167). -/
structure Acc where
  val : BitVec 524288
  cnt : Count
  poison : BitVec 128
deriving DecidableEq, Repr

/-- A signal register (Table 1.4). -/
structure Sig where
  val : Word
  cnt : Count
deriving DecidableEq, Repr

/-- What a read of a counted register captures (R28). -/
inductive RegVal where
  | tile (v : BitVec 32768) (p : BitVec 32)
  | acc (v : BitVec 524288) (p : BitVec 128)
  | sig (v : Word)
deriving DecidableEq, Repr

/-- What a write of a counted register changes: value bits under a bit mask and poison bits under a row mask; a
write that carries no data changes neither (R20, R29). -/
inductive WriteData where
  | count
  | tile (v m : BitVec 32768) (pv pm : BitVec 32)
  | acc (v m : BitVec 524288) (pv pm : BitVec 128)
  | sig (v : Word)
deriving DecidableEq, Repr

/-- A source: a register with its expected count, or any (R23, R26). -/
structure SrcRef where
  x : CReg
  exp : Option (BitVec 16)
deriving DecidableEq, Repr

/-- Arithmetic of Table 7.3. -/
inductive ArithOp where
  | add | sub | mul | fma | fms | min | max | abs | neg | div | sqrt
deriving DecidableEq, Repr

/-- Transcendentals (R151). -/
inductive TransOp where
  | rcp | rsq | exp2 | log2
deriving DecidableEq, Repr

/-- Logic and shifts (R152). -/
inductive LogicOp where
  | and | or | xor | not | shl | shr | sar
deriving DecidableEq, Repr

/-- The function of an instruction of the vector unit, its rounding mode already taken (R74). -/
inductive VecFn where
  | arith (op : ArithOp) (ty : ElemTy) (rm : RM) (sat : Bool)
  | trans (op : TransOp) (ty : ElemTy) (sat : Bool)
  | logic (op : LogicOp) (ty : ElemTy)
  | cmp (cond : Cond) (ty : ElemTy)
  | cmpb (cond : Cond)
  | sel (ty : ElemTy)
  | cvt (sty dty : ElemTy) (rm : RM) (sat : Bool) (part : Nat)
  | mov
  | splat (ty : ElemTy)
  | gete (ty : ElemTy)
  | pute (ty : ElemTy)
  | red (op : RedOp) (row : Bool) (ty : ElemTy) (rm : RM) (sat : Bool)
  | scan (op : RedOp) (row : Bool) (ty : ElemTy) (rm : RM) (sat : Bool)
  | pxor (tile : Bool) (ty : ElemTy)
  | clmul (hi : Bool)
  | popc (ty : ElemTy)
  | clz (ty : ElemTy)
  | perm (ty : ElemTy)
  | shuf
  | trn (ty : ElemTy)
  | bcastr
  | comp (ty : ElemTy)
  | npack
  | nunpk
  | nrnd (fn : RndFn) (ty : ElemTy) (rm : RM) (sat : Bool)
  | nmom (beta : BitVec 32) (ty : ElemTy) (rm : RM) (sat : Bool)
  | nupd (eta : BitVec 32) (ty : ElemTy) (cm : Bool) (k : MReg)
  | amovToTile (q j : BitVec 2)
  | amovToAcc (q j : BitVec 2)
  | azero
  | aadd (ty : ElemTy) (rm : RM) (sat : Bool)
deriving DecidableEq, Repr

/-- An instruction of the vector unit as issued: function, row mask, destination (R144). -/
structure VecOp where
  fn : VecFn
  mask : BitVec 32
  dst : CReg
  rdr : BitVec 3
deriving DecidableEq, Repr

/-- A vector write accepted and not complete (R146); debits says which registers the instruction debited, with
the count each then had (assumption log 12). -/
structure VecWrite where
  dst : CReg
  rdr : BitVec 3
  data : WriteData
  mreg : Option (MReg × BitVec 32)
  debits : List (CReg × BitVec 16)
  pc : VAddr
  word : Word96
  len : Nat
deriving DecidableEq, Repr

/-- Where one unit of an access lies once its address has been checked (R41, R52, R56). -/
inductive Loc where
  | cistern (off : Nat)
  | phys (pa : Nat)
  | planes (x n : Nat) (rn1 : Bool) (blocks : List (Nat × Nat))
  | zero
  | port (i : Nat) (off : Nat)
deriving DecidableEq, Repr

/-- One unit: a row, a block, an element or a scalar access (R192). -/
structure MemUnit where
  va : VAddr
  loc : Loc
deriving DecidableEq, Repr

/-- What a store writes. -/
inductive StoreData where
  | sts (bytes : List Byte)
  | tst (v : BitVec 32768) (poison : BitVec 32)
  | tstp (v : BitVec 32768) (poison : BitVec 32) (n : Nat) (m : BitVec 32)
deriving DecidableEq, Repr

/-- A store issued and not yet performed (R202, R194, R197); pc is its instruction's. -/
structure StoreRec where
  seq : Nat
  data : StoreData
  units : List MemUnit
  pc : VAddr
deriving DecidableEq, Repr

/-- A tile load in flight (R193, R196): planed gives n and RN1; buf holds bytes already read; pc is its instruction's. -/
structure LoadRec where
  seq : Nat
  dst : TReg
  rdr : BitVec 3
  planed : Option (Nat × Bool)
  units : List MemUnit
  buf : Option (BitVec 32768 × BitVec 32)
  pc : VAddr
deriving DecidableEq, Repr

/-- A page walk that holds a stream (R192), or the page of host memory it has asked the host for (R369). -/
structure Walk where
  va : VAddr
  write : Bool
  pri : Option (BitVec 36)
deriving DecidableEq, Repr

/-- Latched weights (R169, R172): raw column blocks, scales, and LFIN. -/
structure Latch where
  fmt : WFmt
  np : BitVec 2
  rn : Bool
  off : Nat
  w : BitVec 524288
  sw : BitVec 1024
  fin : Bool
deriving DecidableEq, Repr

/-- A latched format as the prospective latch records it (R169). -/
structure LatchFmt where
  fmt : WFmt
  np : BitVec 2
  rn : Bool
deriving DecidableEq, Repr

/-- A WLATCH as issued (R172), with the runs of the weight buffer that some PWLD not ordered before it writes (R48). -/
structure WlatchOp where
  races : List (Nat × Nat)
  off : Nat
  soff : Nat
  fmt : LatchFmt
  g : GReg
  rdr : BitVec 3
  pc : VAddr
deriving DecidableEq, Repr

/-- An MMA with its captured sources (R177). -/
structure MmaOp where
  d : AReg
  rdr : BitVec 3
  ty : ElemTy
  band : BitVec 2
  ksel : BitVec 2
  mask : BitVec 32
  za : Bool
  as : Bool
  zs : Bool
  x : BitVec 32768
  xp : BitVec 32
  s : BitVec 32768
  sp : BitVec 32
  b : BitVec 524288
  bp : BitVec 128
  pc : VAddr
deriving DecidableEq, Repr

/-- One level of a nest (R182). -/
structure NestLevel where
  n : BitVec 32
  sa : Word
  sw : BitVec 32
  so : BitVec 32
deriving DecidableEq, Repr

/-- The nest staging set (R182). -/
structure NestSet where
  lv : Vector NestLevel 6
  xa : VAddr
  xo : VAddr
  orow : BitVec 32
  wo : BitVec 20
  sc : BitVec 20
  cfg : BitVec 22
  start : BitVec 32
deriving DecidableEq, Repr

/-- A nest as NGO captured it, with the groups it has completed (R184), and with the runs of the weight buffer that some PWLD
not ordered before it writes (R48, R183). -/
structure NestRec where
  races : List (Nat × Nat)
  set : NestSet
  g : GReg
  rdr : BitVec 3
  o : OrdScp
  grp : Nat
  pc : VAddr
deriving DecidableEq, Repr

/-- An entry of the array queue (R168). -/
inductive AQEntry where
  | wlatch (w : WlatchOp)
  | wclr (pc : VAddr)
  | mma (m : MmaOp)
  | nest (n : NestRec)
deriving DecidableEq, Repr

/-- Pump commands (Table 10.1). -/
inductive PumpKind where
  | pcopy | pgath | pscat | pfill | pwld | prem
deriving DecidableEq, Repr

/-- A pump command (R215): scalar operands read at issue; start is the first unit to perform; scaled says that the scales
of a PWLD are in place (R218), and saved holds bytes of its source range that it has overwritten, by virtual address, with
their poison (R217). -/
structure PumpCmd where
  kind : PumpKind
  a : Word
  b : Word
  c : Word
  e : Word
  esz : Nat
  iw : Bool
  scl : Bool
  g : GReg
  rdr : BitVec 3
  o : OrdScp
  x : StreamId
  pc : VAddr
  start : Nat
  scaled : Bool := false
  saved : Sparse (Byte × Bool) := []
deriving DecidableEq, Repr

/-- A pump (R216, R223): idle, running at a unit with a PREM packet awaiting its acknowledgement, or parked with
its fault record. -/
inductive Pump where
  | idle
  | running (cmd : PumpCmd) (unit : Nat) (sent : Option (BitVec 16 × BitVec 32))
  | parked (cmd : PumpCmd) (unit : Nat) (va : VAddr) (cause : BitVec 7) (write : Bool)
deriving DecidableEq, Repr

/-- What carries the order of a party to another (Table 12.3): a write of a counted register, by the count it makes, or a
release on a cell. -/
inductive Handoff where
  | reg (x : CReg) (n : BitVec 16)
  | cell (c : CoreId) (i : BitVec 12)
deriving DecidableEq, Repr

/-- A PWLD that has ended (R48): its completion register, the count of that write, the runs of the weight buffer it wrote, the
streams of its core that are ordered after it through that count, and what they have released since. -/
structure Landed where
  g : GReg
  n : BitVec 16
  runs : List (Nat × Nat)
  after : List StreamId
  via : List Handoff
deriving DecidableEq, Repr

/-- Geometry instructions (Table 11.1). -/
inductive GeomKind where
  | orient2 | orient3 | incirc | insph | segx
deriving DecidableEq, Repr

/-- A geometry instruction with its captured point registers (R243). -/
structure GeomOp where
  kind : GeomKind
  regs : List (BitVec 32768)
  poison : BitVec 32
  dst : TReg
  rdr : BitVec 3
  sym : Bool
  flag : Bool
  pc : VAddr
deriving DecidableEq, Repr

/-- Where a semaphore operation goes (R50). -/
inductive SemTarget where
  | cell (c : CoreId) (i : BitVec 12)
  | remote (dev : BitVec 16)
deriving DecidableEq, Repr

/-- A semaphore operation in progress (R230); result is the old value once performed, seq the packet sent. -/
structure SemOp where
  kind : SemKind
  handle : Word
  target : SemTarget
  d : SReg
  b : Word
  c : Word
  o : OrdScp
  seq : Option (BitVec 32)
  result : Option Word
deriving DecidableEq, Repr

/-- A SEMWT in progress (R231). The hold on a cell of this package is kept in the state's list of watches; a cell of
another device is asked for its value again and again. -/
structure SemWait where
  handle : Word
  target : SemTarget
  cond : SemCond
  d : SReg
  b : Word
  o : OrdScp
  seq : Option (BitVec 32)
deriving DecidableEq, Repr

/-- An LDS whose data has not returned (R201). -/
structure LdsOp where
  seq : Nat
  t : SReg
  size : Nat
  signed : Bool
  unit : MemUnit
deriving DecidableEq, Repr

/-- What follows once the counted sources of an instruction are readable. -/
inductive SrcOp where
  | cwait
  | vec (o : VecOp)
  | wlatch (w : WlatchOp)
  | mma (m : MmaOp)
  | store (planed : Option Nat) (cm : Bool) (units : List MemUnit)
  | geom (kind : GeomKind) (dst : TReg) (rdr : BitVec 3)
deriving DecidableEq, Repr

/-- What follows once the destination may be written and is reserved. -/
inductive DstOp where
  | count
  | vec (data : WriteData) (mreg : Option (MReg × BitVec 32))
  | load (planed : Option (Nat × Bool)) (units : List MemUnit)
  | wlatch (w : WlatchOp)
  | mma (m : MmaOp)
  | nest (o : OrdScp)
  | geom (o : GeomOp)
  | pump (cmd : PumpCmd)
  | presume
  | pcancel
deriving DecidableEq, Repr

/-- What a stream waits for (R20, R24, R134, R215, R230, R231, R236, R243). An instruction that waits to write keeps
the debits it made, which are undone if it is abandoned (R35, R337, assumption log 12). -/
inductive Pend where
  | none
  | src (srcs : List SrcRef) (op : SrcOp)
  | dst (x : CReg) (rdr : BitVec 3) (debits : List (CReg × BitVec 16)) (op : DstOp)
  | array (e : AQEntry) (debits : List (CReg × BitVec 16))
  | geomRoom (srcs : List SrcRef) (kind : GeomKind) (dst : TReg) (rdr : BitVec 3)
  | maskWait (srcs : List SrcRef) (op : SrcOp) (k : MReg)
  | lds (o : LdsOp)
  | sem (o : SemOp)
  | semwt (o : SemWait)
  | join
  | bar (s : BarScope) (n : Nat)
  | finish
deriving DecidableEq, Repr

/-- An instruction fetched and expanded (R98). -/
structure Fetched where
  pc : VAddr
  word : Word96
  len : Nat
deriving DecidableEq, Repr

/-- What a debugger has asked of a stream (R280): nothing, stopped by it, to go on past a breakpoint, to issue one
instruction, or to stop before its next one. -/
inductive Dbg where
  | off | stopped | go | step | stepped
deriving DecidableEq, Repr

/-- One stream (Table 1.2, R131, R133, R15): again says that its instruction comes to issue once more after a page walk,
which is no issue of its own (R192); brk and dbg are a debugger's breakpoints and control (R280). -/
structure Stream where
  st : StreamState
  pc : VAddr
  s : Vector Word 32
  p : Vector Bool 8
  k : Vector (BitVec 16) 7
  rmode : BitVec 2
  loopit : Word
  dr : Bool
  cl : Bool
  at_ : Bool
  hs : Bool
  jord : Nat
  live : BitVec 128
  ibuf : Option Fetched
  word : Word96
  len : Nat
  pend : Pend
  walk : Option Walk
  stores : List StoreRec
  again : Bool
  brk : List VAddr
  dbg : Dbg
deriving DecidableEq, Repr

/-- The issue interval EXEC is in: none, that of an instruction of the vector unit, or of a geometry instruction
(R146, R252). -/
inductive Interval where
  | none | vec | geom
deriving DecidableEq, Repr

/-- A trap as raised (R332): base cause, stream, asynchronous or not, what the handler will read, the pump of a
PUMP_FAULT (R336), and CTRL's handler level and the global tick at the trap (Table 20.2). -/
structure TrapRec where
  base : BitVec 7
  x : StreamId
  async : Bool
  epc : VAddr
  eaddr : Word
  eword0 : Word
  eword1 : Word
  len : Nat
  pump : Bool := false
  hl : Nat := 0
  tick : Nat := 0
deriving DecidableEq, Repr

/-- The trap CSRs of one handler level (R334), with the length of the trapped instruction for skip (R137). -/
structure TrapSet where
  cause : BitVec 10
  epc : VAddr
  eaddr : Word
  eword0 : Word
  eword1 : Word
  retpc : VAddr
  len : Nat
deriving DecidableEq, Repr

/-- The registers of one handler level (R334). -/
structure Bank where
  s : Vector Word 32
  p : Vector Bool 8
deriving DecidableEq, Repr

/-- A trap escalated and not answered (R339). -/
structure Escal where
  trap : TrapRec
  hl : Nat
  tick : Nat
deriving DecidableEq, Repr

/-- The task on a core (R296, R297, R327, R328). -/
structure Task where
  key : NodeKey
  part : PartId
  pasid : BitVec 20
  image : BitVec 32
  tag : BitVec 16
  role : Nat
  gsize : Nat
  member : Word
  binding : List CoreId
  entryLoad : VAddr
  entryExec : VAddr
  entryStore : VAddr
  start : Nat
deriving DecidableEq, Repr

/-- A TLB entry (R353, R358): context, PASID, first page and number of pages, frame, permissions. -/
structure TlbEntry where
  part : PartId
  pasid : BitVec 20
  vpn : Nat
  pages : Nat
  frame : Nat
  ipn : Nat
  r : Bool
  w : Bool
  x : Bool
  sup : Bool
deriving DecidableEq, Repr

/-- A line of the instruction cache (R98, R100): the address space it was fetched in, whether the fetch could use SUP pages
(R356), and the expanded word. -/
structure CacheLine where
  part : PartId
  pasid : BitVec 20
  sup : Bool
  f : Fetched
deriving DecidableEq, Repr

/-- One counter set of the exact sign unit (R255). -/
structure GStat where
  cnta : BitVec 16
  cntb : BitVec 16
  cntc : BitVec 16
  cnts : BitVec 16
  pck : Bool
  nfs : Bool
deriving DecidableEq, Repr

/-- The fault record NSTAT selector 1 reads (R188). -/
structure NestFault where
  va : VAddr
  cause : BitVec 7
  store : Bool
deriving DecidableEq, Repr

/-- One core: codeView is the cistern as fetch sees it, where it no longer follows stores (R100); worn says that three
checker mismatches have come within 2^31 ticks (R405). -/
structure Core where
  load : Stream
  exec : Stream
  store : Stream
  ctrl : Stream
  m : Vector (BitVec 32) 8
  tiles : Vector Tile 128
  accs : Vector Acc 8
  sigs : Vector Sig 32
  cistern : PoisonMem
  tags : Vector Word 512
  wbuf : PoisonMem
  cells : Sparse Word
  gmode : BitVec 2
  pqlim : BitVec 5
  uhvec : VAddr
  udeleg0 : Word
  udeleg1 : Word
  shvec : VAddr
  dlwait : Vector Word 4
  hl : Nat
  entry1 : Nat
  entry2 : Nat
  bank1 : Bank
  bank2 : Bank
  trap1 : TrapSet
  trap2 : TrapSet
  held : List TrapRec
  escal : List Escal
  ctrlEsc : Bool
  posted : Word
  forked : Bool
  barOrd : Vector Nat 4
  barArr : Vector Nat 4
  aq : List AQEntry
  platch : Option LatchFmt
  latch : Option Latch
  nestSet : NestSet
  nestBand : Option (BitVec 524288)
  nestPoison : BitVec 128
  npck : Bool
  ngrp : Nat
  nfault : Option NestFault
  pumpq : List PumpCmd
  pump0 : Pump
  pump1 : Pump
  landed : List Landed
  geom : List GeomOp
  gstat : GStat
  vwrites : List VecWrite
  interval : Interval
  loads : List LoadRec
  seq : Nat
  wdSince : Option Nat
  tlb : List TlbEntry
  icache : List CacheLine
  codeView : Option PoisonMem
  task : Option Task
  drainSince : Option Nat
  saving : Bool
  zeroing : Bool
  lastPart : Option PartId
  offline : Bool
  mismatches : List Nat
  worn : Bool
  gated : Bool
deriving DecidableEq, Repr

/-- Count state of zeros (R14). -/
def Count.zero : Count := ⟨0, 0, false, false, false⟩
/-- A tile of zeros at count 0 (R14). -/
def Tile.zero : Tile := ⟨0, Count.zero, 0⟩
/-- An accumulator of zeros at count 0 (R14). -/
def Acc.zero : Acc := ⟨0, Count.zero, 0⟩
/-- A signal of zero at count 0 (R14). -/
def Sig.zero : Sig := ⟨0, Count.zero⟩
/-- A stream that is IDLE with every register zero (R14, log 1). -/
def Stream.zero : Stream where
  st := .idle
  pc := 0
  s := Vector.replicate 32 0
  p := Vector.replicate 8 false
  k := Vector.replicate 7 0
  rmode := 0
  loopit := 0
  dr := false
  cl := false
  at_ := false
  hs := false
  jord := 0
  live := 0
  ibuf := none
  word := 0
  len := 0
  pend := .none
  walk := none
  stores := []
  again := false
  brk := []
  dbg := .off
/-- A trap set of zeros. -/
def TrapSet.zero : TrapSet := ⟨0, 0, 0, 0, 0, 0, 0⟩
/-- A bank of zeros (R334). -/
def Bank.zero : Bank := ⟨Vector.replicate 32 0, Vector.replicate 8 false⟩
/-- A staging set of zeros (R182). -/
def NestSet.zero : NestSet := ⟨Vector.replicate 6 ⟨0, 0, 0, 0⟩, 0, 0, 0, 0, 0, 0, 0⟩
/-- A core with every register zero and every engine idle (log 1). -/
def Core.zero : Core where
  load := Stream.zero
  exec := Stream.zero
  store := Stream.zero
  ctrl := Stream.zero
  m := Vector.replicate 8 0
  tiles := Vector.replicate 128 Tile.zero
  accs := Vector.replicate 8 Acc.zero
  sigs := Vector.replicate 32 Sig.zero
  cistern := PoisonMem.empty
  tags := Vector.replicate 512 0
  wbuf := PoisonMem.empty
  cells := []
  gmode := 0
  pqlim := 0
  uhvec := 0
  udeleg0 := 0
  udeleg1 := 0
  shvec := 0
  dlwait := Vector.replicate 4 0
  hl := 0
  entry1 := 0
  entry2 := 0
  bank1 := Bank.zero
  bank2 := Bank.zero
  trap1 := TrapSet.zero
  trap2 := TrapSet.zero
  held := []
  escal := []
  ctrlEsc := false
  posted := 0
  forked := false
  barOrd := Vector.replicate 4 0
  barArr := Vector.replicate 4 0
  aq := []
  platch := none
  latch := none
  nestSet := NestSet.zero
  nestBand := none
  nestPoison := 0
  npck := false
  ngrp := 0
  nfault := none
  pumpq := []
  pump0 := .idle
  pump1 := .idle
  landed := []
  geom := []
  gstat := ⟨0, 0, 0, 0, false, false⟩
  vwrites := []
  interval := .none
  loads := []
  seq := 0
  wdSince := none
  tlb := []
  icache := []
  codeView := none
  task := none
  drainSince := none
  saving := false
  zeroing := false
  lastPart := none
  offline := false
  mismatches := []
  worn := false
  gated := false

end Sys2Proof.Machine
end

