-- ==== Sys2Proof/Machine/HostState.lean ====
section
/-! DEFINITION. The state outside the cores: memory with keys, partitions, queues and graph nodes, translation
ports, host and fabric, start, monitoring banks, reliability and power (spec/19 to spec/28). Plain data. -/

namespace Sys2Proof.Machine

/-- Registers of the host's that the spec gives no offset (R370 to R376, R379 to R381). -/
inductive HostReg where
  | mbrd | mbwr
  | record (i : BitVec 6)
  | fmMbrd | fmMbwr
  | fmRecord (i : BitVec 6)
  | mgmtstat | ftswap | remapEn | devid
  | ndrop (fn : BitVec 6)
  | vfpart (fn : BitVec 6)
  | qmap (q : BitVec 15)
  | descriptor (q : BitVec 15)
  | remap (fn : BitVec 6) (vec : BitVec 11)
  | routing (bank : Bool) (dev : BitVec 16)
  | keyTab (bank : Bool) (key : BitVec 16)
deriving DecidableEq, Repr

/-- Who moves next: a stream issues, an event of the table comes about, a pump performs one unit, or a checker
mismatch meets a stream's next instruction in a scalar unit (R402); the host reads or writes bytes of a function's BAR, the
last with the PASID the write carries, reads a register without an offset, or writes an answer register (R370 to R376); a
debugger sets a breakpoint of a stream, lets a core run, or lets a stream issue one instruction (R280); an error of the PCI
Express link is reported (R369). (Assumption log 5.) -/
inductive Pick where
  | issue (c : CoreId) (x : StreamId) (useCache : Bool)
  | event (i : Instr)
  | pumpUnit (c : CoreId) (pump : Bool)
  | pipeCheck (c : CoreId) (x : StreamId)
  | barRead (fn : BitVec 6) (bar2 : Bool) (off n : Nat)
  | barWrite (fn : BitVec 6) (bar2 : Bool) (off : Nat) (pasid : Option (BitVec 20)) (bytes : List Byte)
  | regRead (fn : BitVec 6) (r : HostReg)
  | answerWrite (fn : BitVec 6) (bytes : List Byte)
  | debugBreak (c : CoreId) (x : StreamId) (a : VAddr)
  | debugRun (c : CoreId)
  | debugStep (c : CoreId) (x : StreamId)
  | linkError (code : BitVec 32)
deriving DecidableEq, Repr

/-- Global memory (Table 21.1): bytes and poison, and the key generation of the last write of a granule of HBM4E
or LPDDR6 (R390, R391). -/
structure GlobalMem where
  mem : PoisonMem
  keys : Sparse Nat
deriving DecidableEq, Repr

/-- What fetch may see of stores to code (R100, R276): memory as it stood when an invalidation completed that covers a run
of virtual addresses of a partition, under one PASID or all, or a run of its intermediate addresses. -/
structure CodeView where
  part : PartId
  pasid : Option (BitVec 20)
  ipa : Bool
  lo : Nat
  hi : Nat
  mem : GlobalMem
deriving DecidableEq, Repr

/-- The hold of a SEMWT on a cell of this package (R231). -/
structure Watch where
  c : CoreId
  x : StreamId
  core : CoreId
  cell : BitVec 12
  cond : SemCond
  b : Word
  since : Option Nat
  val : Word
deriving DecidableEq, Repr

/-- What several parties may do in one cycle in an order that the spec fixes: operations on a cell (R232); on one core,
entries into the array queue (R168), tag operations (R44), entries of the pump queue (R215), takes of the pumps (R367), and
deliveries of traps (R336). -/
inductive Contest where
  | cell (c : CoreId) (i : BitVec 12)
  | array (c : CoreId)
  | tag (c : CoreId)
  | append (c : CoreId)
  | take (c : CoreId)
  | trap (c : CoreId)
deriving DecidableEq, Repr

/-- What has been done in one tick of what the spec orders within a cycle: the tick, for each contest the place of the last
one in that order, and whether something was done in it after what comes later (assumption log 5). -/
structure Turns where
  tick : Nat
  last : List (Contest × Nat)
  late : Bool
deriving DecidableEq, Repr

/-- RETRY or SKIP that came for a gated core: it is delivered after the release (R412). -/
structure HeldAnswer where
  fn : BitVec 6
  taskid : Word
  role : BitVec 16
  skip : Bool
deriving DecidableEq, Repr

/-- Aperture transforms (Table 2.2). -/
inductive Xform where
  | identity | trunc (n : Nat) | rn1 (n : Nat) | zero
deriving DecidableEq, Repr

/-- An aperture register (R55). -/
structure Aperture where
  vbase : Nat
  vsize : Nat
  pbase : Nat
  xf : Xform
deriving DecidableEq, Repr

/-- An export record (R380). -/
structure ExportRec where
  idx : BitVec 4
  key : BitVec 16
  pasid : BitVec 20
  vbase : VAddr
  vsize : VAddr
  queue : BitVec 15
  node : BitVec 12
deriving DecidableEq, Repr

/-- A partition: its record (Table 25.1), translation context (R354), key (R390), measurement (R392), tick offset
(R409), buckets (R398), apertures, exports, images, and the queue number at which the round robin of each level starts (R324).
owed says that cores have become free or a node READY since the last dispatch (R324, R330), and kept holds the units the
partition had when EN was cleared, which it has until the last of its gangs is gone (R396). -/
structure Partition where
  en : Bool
  shared : Bool
  retire : Bool
  group : BitVec 4
  units : BitVec 26
  slice : BitVec 32
  saveBase : Word
  saveSize : Word
  share0 : BitVec 8
  share1 : BitVec 8
  depth : BitVec 16
  udeleg0d : Word
  udeleg1d : Word
  shvecd : Word
  pkey : BitVec 16
  key : Option Nat
  invDrained : Bool
  pmeas : BitVec 256
  lcount : BitVec 32
  dtoff : Nat
  gatedAt : Option Nat
  ptab : Word
  ptlen : BitVec 13
  s2en : Bool
  s2root : Word
  apert : Vector (Option Aperture) 64
  exports : List ExportRec
  images : List Image
  tok0 : Nat
  tok1 : Nat
  cred0 : Nat
  cred1 : Nat
  robin : Vector Nat 8
  owed : Bool
  kept : BitVec 26
deriving DecidableEq, Repr

/-- A field of a partition's record that takes effect at the next tick after its write (R394), with the value. -/
inductive PartField where
  | retire (v : Bool)
  | slice (v : BitVec 32)
  | share (die : Bool) (v : BitVec 8)
  | depth (v : BitVec 16)
  | udeleg0 (v : Word)
  | udeleg1 (v : Word)
  | shvec (v : Word)
  | pkey (v : BitVec 16)
deriving DecidableEq, Repr

/-- A slice group of SHARED partitions (R397): sent says that the end of the slice has sent DRAIN to a gang, and saved that a save
has begun since. -/
structure SliceGroup where
  holder : Option PartId
  start : Option Nat
  ending : Bool
  next : Option PartId
  sent : Bool
  saved : Bool
deriving DecidableEq, Repr

/-- Queue states (Table 19.2). -/
inductive QState where
  | disabled | active | blocked | halted
deriving DecidableEq, Repr

/-- A SIGNAL admitted and not performed (R318): the LAUNCHes admitted before it. -/
structure SignalRec where
  core : CoreId
  cell : BitVec 12
  value : Word
  after : Nat
deriving DecidableEq, Repr

/-- A blocking WAIT (R318, R331). -/
structure WaitRec where
  core : CoreId
  cell : BitVec 12
  value : Word
  ready : Bool
deriving DecidableEq, Repr

/-- A work queue (R315 to R317, R324). cmd is a command that has passed Table 19.4 and not been performed; req says
that it came as a request packet (R373). -/
structure Queue where
  desc : BitVec 512
  st : QState
  ridx : BitVec 32
  widx : BitVec 32
  halt : BitVec 8
  hidx : BitVec 32
  hsub : BitVec 16
  hedge : Bool
  qirq : BitVec 18
  qmap : BitVec 32
  deficit : Int
  launches : Nat
  cmd : Option (BitVec 512)
  req : Bool
  wait : Option WaitRec
  signals : List SignalRec
deriving DecidableEq, Repr

/-- An edge record (R320). -/
structure Edge where
  src : Nat
  dst : Nat
  kind : Nat
  key : Word
deriving DecidableEq, Repr

/-- A LAUNCH whose graph was accepted (R318, R321): num counts the LAUNCHes its queue admitted before it. -/
structure Launch where
  queue : BitVec 15
  seq : BitVec 32
  num : Nat
  handle : Option (CoreId × BitVec 12)
  value : Word
  edges : List Edge
deriving DecidableEq, Repr

/-- Node states (Table 19.6). -/
inductive NodeSt where
  | waiting | ready | dispatching | running | preempted | retired | skipped
deriving DecidableEq, Repr

/-- A graph node (R322): the image, its place in the FIFO of its queue (readyAt), the ticks it has spent READY (spent
before since) and the levels they gave (R323), the cores gathered, the roles retired, the result word, the first save
area it holds, the roles as saved, its address sets, and its domain identifiers; armed when its own edges are resolved
with one taken, aband when it was abandoned (R348). -/
structure Node where
  key : NodeKey
  st : NodeSt
  part : PartId
  pasid : BitVec 20
  prio : Nat
  gsize : Nat
  set : BitVec 16
  tag : BitVec 16
  img : Image
  readyAt : Nat
  since : Nat
  spent : Nat
  aged : Nat
  cores : List CoreId
  retired : List Nat
  result : Word
  first : Option Nat
  draining : Bool
  saves : List Core
  writes : List (Nat × Nat)
  domDie : BitVec 16
  domPkg : BitVec 16
  armed : Bool
  aband : Bool
deriving DecidableEq, Repr

/-- A port command in progress (R361 to R365): the partition whose context it acts on, whether it names an IPA, its
fields, the ERR it will report, effect taken or not, drained or not, and a MIGRATE's old frame. -/
structure PortCmd where
  kind : Nat
  part : Option PartId
  ipa : Bool
  pasid : BitVec 20
  apn : Nat
  addr : Nat
  npg : Nat
  handle : Option (CoreId × BitVec 12)
  value : Word
  newpa : Nat
  xf : Word
  plen : Nat
  err : BitVec 8
  done : Bool
  drained : Bool
  oldPa : Nat
deriving DecidableEq, Repr

/-- A translation port (Table 21.4). -/
structure Port where
  cmd : Vector Word 8
  busy : Bool
  drop : Bool
  err : BitVec 8
  cur : Option PortCmd
deriving DecidableEq, Repr

/-- A function's mailbox (R376). -/
structure Mailbox where
  ring : Vector (BitVec 512) 64
  mbrd : BitVec 32
  mbwr : BitVec 32
  heldBack : List (BitVec 512)
  ignored : Nat
deriving DecidableEq, Repr

/-- An interrupt message sent (R375). -/
structure Irq where
  fn : BitVec 6
  vec : BitVec 11
  remapped : Option (Word × BitVec 32)
deriving DecidableEq, Repr

/-- An entry of the interrupt remap table (R375). -/
structure Remap where
  addr : Word
  data : BitVec 32
  valid : Bool
deriving DecidableEq, Repr

/-- A Vornus link (R377 to R382): up, elision of the neighbour, whether it has failed since the last routing swap
that found it up, and the tick of a fault whose packets are not resolved yet. -/
structure Link where
  up : Bool
  elide : Bool
  fresh : Bool
deriving DecidableEq, Repr

/-- A fault of a link (R379, R382): the tick of its detection, the links that new packets could use just before it, the devices that
lost their last port with it, and the tick at which what was outstanding on it was resolved, once it was. -/
structure LinkDrop where
  link : Fin 24
  tick : Nat
  before : List (Fin 24)
  lost : List (BitVec 16)
  done : Option Nat
deriving DecidableEq, Repr

/-- Who waits for a packet's acknowledgement. -/
inductive PktOwner where
  | sem (c : CoreId) (x : StreamId)
  | pump (c : CoreId) (second : Bool)
deriving DecidableEq, Repr

/-- A packet sent and not acknowledged (R382): its port, its owner, the answer, its payload with nothing elided (R378), and
the routing entry of its injection (R381). -/
structure OutPkt where
  pkt : Packet
  port : Fin 24
  owner : PktOwner
  ack : Option AckRes
  full : PacketBody
  entry : Word
deriving DecidableEq, Repr

/-- A packet received and not performed: the partition its key admitted it to when it was checked (R381), and the gang for
whose restore it is held (R299). -/
structure HeldPkt where
  pkt : Packet
  part : Option PartId
  gang : Option NodeKey
deriving DecidableEq, Repr

/-- Sequence state of one source at this target (R384). -/
structure RxState where
  next : BitVec 32
  window : List (BitVec 32)
  waiting : List HeldPkt
deriving DecidableEq, Repr

/-- An acknowledgement this device has returned (R384): target, sequence number, old value of a semaphore
operation, or the status of a refusal. -/
structure AckOut where
  dev : BitVec 16
  seq : BitVec 32
  res : AckRes
deriving DecidableEq, Repr

/-- The fabric (R377 to R384), with the targets in each die's remote cache (R366). -/
structure Fabric where
  devid : BitVec 16
  links : Vector Link 24
  drops : List LinkDrop
  routeA : Sparse Word
  routeB : Sparse Word
  keyA : Sparse (BitVec 32)
  keyB : Sparse (BitVec 32)
  routeBank : Bool
  keyBank : Bool
  routeSwap : Bool
  keySwap : Bool
  txSeq : Sparse (BitVec 32)
  rx : Sparse RxState
  out : List OutPkt
  acks : List AckOut
  windows : Vector (List (BitVec 16)) 2
deriving DecidableEq, Repr

/-- Where the start is (Table 24.1, R388). -/
inductive BootStage where
  | off | awaitReady | up | minimal
deriving DecidableEq, Repr

/-- An item of the flash that a start verifies: its bytes and the SM2 signature over their hash (R385). -/
structure FlashItem where
  bytes : List Byte
  sig : BitVec 512
deriving DecidableEq, Repr

/-- The module's flash (Table 0.1): the root monitor's signed stage and the Ovone image, and the configuration record,
whose signature is among its bytes (Table 24.2). -/
structure Flash where
  monitor : FlashItem
  record : List Byte
  ovone : FlashItem
deriving DecidableEq, Repr

/-- The root monitor's state (R385 to R389): what the environment gives the start in progress, the tick of power-on, the
flash and the blocks of a staged image written to it (R389), and the trims of the accepted record (R2). -/
structure Boot where
  stage : BootStage
  items : Option BootInput
  mreg : Vector (BitVec 256) 8
  fails : BitVec 8
  svnFloor : BitVec 32
  svn : BitVec 32
  reason : BitVec 8
  powered : Nat
  en0 : BitVec 128
  en1 : BitVec 128
  trims : List Byte
  flash : Flash
  staged : List (BitVec 512)
  record : BitVec 1024
deriving DecidableEq, Repr

/-- A report requested and snapped, not posted (R393). -/
structure Attest where
  fn : BitVec 6
  part : BitVec 16
  nonce : BitVec 256
  tick : Nat
  status : BitVec 8
  pmeas : BitVec 256
  lcount : BitVec 32
deriving DecidableEq, Repr

/-- Bytes of a node's write set within one granule, at an address of the node's: what its partition reads there, and the
granule's poison (R311, R391, R403). -/
structure SetBytes where
  va : Nat
  bytes : List Byte
  bad : Bool
deriving DecidableEq, Repr

/-- A snapshot of a gang for leapfrog (R419): view tick, cores, bytes of the write set, all of them or those that a move wrote, and
the SEMWT holds of its streams (R231). -/
structure Snapshot where
  tick : Nat
  cores : List (CoreId × Core)
  mem : List SetBytes
  watches : List Watch
deriving DecidableEq, Repr

/-- An entry of a recording's log (R419): the gang after a move, with the view tick before it and the bytes of the write set that
the move wrote; whether the move is an input that R419 lists; the pick, where it completes an access, a pump command or a nest,
and the model's counter of free values before it. -/
structure LfStep where
  after : Snapshot
  input : Bool
  own : Option Pick
  fresh : Nat
deriving DecidableEq, Repr

/-- A replay (R420, R421): the gang's cores, the checkpoint that is still to be put back, the entries still to come, oldest
first, the view tick at which a leap gates again, and that of the original stop. -/
structure Replay where
  cores : List CoreId
  start : Option Snapshot
  todo : List LfStep
  leapTo : Option Nat
  stop : Nat
deriving DecidableEq, Repr

/-- A leapfrog recording (R419 to R421): the gang, whether it has stopped for want of room, the tick since which it gates the
gang's cores for a checkpoint, how many checkpoints it has made, the checkpoints kept, newest first, each with the log since
it, newest first, the view ticks at which streams issued, newest first, and a replay. -/
structure Leapfrog where
  key : Option NodeKey
  full : Bool
  copying : Option (Nat × List CoreId)
  made : Nat
  checks : List (Snapshot × List LfStep)
  issues : List (CoreId × StreamId × Nat)
  resume : Option Replay
deriving DecidableEq, Repr

/-- What a request of a core belongs to, and waits for before it is complete (R398, R414): the page walk of a stream, a load, a
store or an LDS in progress, a unit of a pump's command by its number, or a group of a nest. -/
inductive ReqOwner where
  | walk (c : CoreId) (x : StreamId)
  | load (c : CoreId) (seq : Nat)
  | store (c : CoreId) (x : StreamId) (seq : Nat)
  | lds (c : CoreId) (x : StreamId) (seq : Nat)
  | unit (c : CoreId) (second : Bool) (n : Nat)
  | group (c : CoreId) (n : Nat)
deriving DecidableEq, Repr

/-- The core whose port made a request. -/
def ReqOwner.core (o : ReqOwner) : CoreId :=
  match o with
  | .walk c _ => c
  | .load c _ => c
  | .store c _ _ => c
  | .lds c _ _ => c
  | .unit c _ _ => c
  | .group c _ => c

/-- A request that a bank has sampled and not written (R414): the known part of its record, and, once it is complete, the view
tick and the tick of that. -/
structure Sampled where
  owner : ReqOwner
  head : BitVec 256
  done : Option (Nat × Nat)
deriving DecidableEq, Repr

/-- An asynchronous trap that came about while its core was gated (R412): it is raised after the release, on the task it came
about for. -/
structure LateTrap where
  c : CoreId
  key : Option NodeKey
  base : BitVec 7
  eaddr : Word
  pump : Bool
deriving DecidableEq, Repr

/-- A monitoring bank (Table 27.1): claimed is the tick of a virtual function's claim that gave it (R400); only names the cores
that its gate holds where a replay has diverged (R421); samples counts the requests of each core port (R414), and pend holds
the known part of the records of requests sampled and not written. -/
structure MBank where
  owner : BitVec 7
  claimed : Option Nat
  mode : BitVec 2
  keyKern : Bool
  event : BitVec 8
  bfilt : Word
  total : Word
  sat : Bool
  absent : Bool
  late : Bool
  tovf : Bool
  nock : Bool
  noroom : Bool
  diverged : Bool
  tdrop : BitVec 32
  srate : BitVec 24
  tbase : Word
  tlog2 : BitVec 5
  twr : BitVec 32
  trd : BitVec 32
  stoptick : Word
  arm : Bool
  act : Bool
  held : Bool
  only : Option (List CoreId)
  lfctl : BitVec 13
  lfbase : Word
  lflen : Word
  cells : Sparse Nat
  samples : Sparse Nat
  pend : List Sampled
  lf : Leapfrog
deriving DecidableEq, Repr

/-- A function's view of the banks (R399, R410): BSEL, the bank of its last claim and the claim's result. -/
structure FnRegs where
  part : PartId
  bsel : BitVec 7
  claim : BitVec 7
  bclaim : BitVec 2
  ndrop : Nat
deriving DecidableEq, Repr

/-- A corrected-error record that later ones of its region or structure may merge into (R408): the region or structure,
its place in the sequence of records, and the tick of its first event. -/
structure MergeRec where
  key : Nat
  index : BitVec 32
  tick : Nat
deriving DecidableEq, Repr

/-- The error ring (R408). -/
structure ErrRing where
  recs : Sparse (BitVec 512)
  wr : BitVec 32
  rd : BitVec 32
  ovf : Nat
  merge : List MergeRec
deriving DecidableEq, Repr

/-- A scrub region (R406, R407): how far the scrub lags its position, as the model counts it (assumption log 19), the tick
to which that is counted, the tick of the last scrub read, and the granules injected toward it in the last 4,000 ticks, by
tick, newest first. -/
structure ScrubRegion where
  temp : Nat
  pos : Nat
  corrected : List Nat
  mult16 : Nat
  passes : Nat
  lag : Nat
  counted : Nat
  last : Option Nat
  demand : List (Nat × Nat)
deriving DecidableEq, Repr

/-- Power and clocks (R422, R423, R426): the samples of board power of the last 1 ms, newest first, each with its tick and the PLIM
it was held against, the readings of the eight junction sensors, and the ticks of the last sample of each kind. -/
structure Power where
  plim : BitVec 12
  fstep : BitVec 5
  pcap : Bool
  tcap : Bool
  bpwr : BitVec 12
  recent : List (Nat × Nat × Nat)
  sampledAt : Option Nat
  junctions : Vector Nat 8
  sensedAt : Option Nat
  stopped : Bool
deriving DecidableEq, Repr

/-- ATS answers for pages of host memory (R369). -/
structure AtsEntry where
  part : PartId
  pasid : BitVec 20
  page : BitVec 36
  ok : Bool
deriving DecidableEq, Repr

def Partition.zero : Partition where
  en := false
  shared := false
  retire := false
  group := 0
  units := 0
  slice := 0
  saveBase := 0
  saveSize := 0
  share0 := 0
  share1 := 0
  depth := 0
  udeleg0d := 0
  udeleg1d := 0
  shvecd := 0
  pkey := 0
  key := none
  invDrained := false
  pmeas := 0
  lcount := 0
  dtoff := 0
  gatedAt := none
  ptab := 0
  ptlen := 0
  s2en := false
  s2root := 0
  apert := Vector.replicate 64 none
  exports := []
  images := []
  tok0 := 0
  tok1 := 0
  cred0 := 0
  cred1 := 0
  robin := Vector.replicate 8 0
  owed := false
  kept := 0

def Queue.zero : Queue where
  desc := 0
  st := .disabled
  ridx := 0
  widx := 0
  halt := 0
  hidx := 0
  hsub := 0
  hedge := false
  qirq := 0
  qmap := 0
  deficit := 0
  launches := 0
  cmd := none
  req := false
  wait := none
  signals := []

def Port.zero : Port := ⟨Vector.replicate 8 0, false, false, 0, none⟩
def Mailbox.zero : Mailbox := ⟨Vector.replicate 64 0, 0, 0, [], 0⟩
def Link.zero : Link := ⟨false, false, false⟩
def RxState.zero : RxState := ⟨0, [], []⟩
def Fabric.zero : Fabric where
  devid := 0
  links := Vector.replicate 24 Link.zero
  drops := []
  routeA := []
  routeB := []
  keyA := []
  keyB := []
  routeBank := false
  keyBank := false
  routeSwap := false
  keySwap := false
  txSeq := []
  rx := []
  out := []
  acks := []
  windows := Vector.replicate 2 []
def Boot.zero : Boot where
  stage := .off
  items := none
  mreg := Vector.replicate 8 0
  fails := 0
  svnFloor := 0
  svn := 0
  reason := 0
  powered := 0
  en0 := 0
  en1 := 0
  trims := []
  flash := ⟨⟨[], 0⟩, [], ⟨[], 0⟩⟩
  staged := []
  record := 0
def Leapfrog.zero : Leapfrog := ⟨none, false, none, 0, [], [], none⟩
def MBank.zero : MBank where
  owner := 0
  claimed := none
  mode := 0
  keyKern := false
  event := 0
  bfilt := 0
  total := 0
  sat := false
  absent := false
  late := false
  tovf := false
  nock := false
  noroom := false
  diverged := false
  tdrop := 0
  srate := 0
  tbase := 0
  tlog2 := 0
  twr := 0
  trd := 0
  stoptick := 0
  arm := false
  act := false
  held := false
  only := none
  lfctl := 0
  lfbase := 0
  lflen := 0
  cells := []
  samples := []
  pend := []
  lf := Leapfrog.zero
def FnRegs.zero : FnRegs := ⟨0, 0, 0, 0, 0⟩
def ErrRing.zero : ErrRing := ⟨[], 0, 0, 0, []⟩
def ScrubRegion.zero : ScrubRegion := ⟨0, 0, [], 16, 0, 0, 0, none, []⟩
def Power.zero : Power := ⟨0, 0, false, false, 0, [], none, Vector.replicate 8 0, none, false⟩

end Sys2Proof.Machine
end

