-- ==== Sys2Proof/Machine/State.lean ====
section
/-! DEFINITION. The state of the SG-CX9M, its reset, and the reasons a step can stop. -/

namespace Sys2Proof.Machine

/-- Why the machine stops with a fault. The spec gives every instruction of the table an effect, so no meaning
raises one on ordinary states. -/
inductive Fault where
  /-- Raised by the step after the module has stopped by heat (R423): nothing runs until a module reset. Safe:
  the machine does nothing where the hardware does nothing. -/
  | moduleStopped
deriving DecidableEq, Repr

/-- Why a step is refused. -/
inductive Refusal where
  /-- Raised by the dispatch for an instruction without a meaning yet, by its mnemonic. Safe: nothing can be
  proved of what such an instruction does. -/
  | notModelled (mnemonic : String)
deriving DecidableEq, Repr

/-- The state: everything the spec gives the machine, and the model's own schedule, current stream and counter of
free values (assumption logs 5 and 7). -/
structure State where
  tick : Nat
  cores : Vector Core 208
  gmem : GlobalMem
  codeViews : List CodeView
  l2 : Vector (List TlbEntry) 2
  ats : List AtsEntry
  watches : List Watch
  lateTraps : List LateTrap
  turns : Turns
  later : List (PartId × PartField)
  ticked : Vector Nat 2
  injected : List (ReqOwner × Nat)
  parts : Vector Partition 64
  groups : Vector SliceGroup 16
  queues : Sparse Queue
  launches : List Launch
  nodes : List Node
  ports : Vector Port 65
  fns : Vector FnRegs 64
  mboxes : Vector Mailbox 64
  fmbox : Mailbox
  answers : List HeldAnswer
  binderr : Bool
  parterr : Bool
  bankerr : Bool
  remapEn : Bool
  remap : Sparse Remap
  irqs : List Irq
  irqDropped : Nat
  aer : List (BitVec 32)
  fabric : Fabric
  boot : Boot
  attests : List Attest
  banks : Vector MBank 128
  errs : ErrRing
  scrub : Vector ScrubRegion 40
  power : Power
  nextKey : Nat
  nextDom : Nat
  hostRead : List Byte
  sched : List (Nat × Pick)
  cur : CoreId × StreamId
  fresh : Nat
deriving DecidableEq, Repr

/-- The machine right after reset: power applied, no start run yet. The tick is 0 (R425), the measurement registers
are zero (R386), every queue is DISABLED (Table 19.2), bank v is VF v's for v in 1 to 63 (R399); what the spec gives
no reset value is zero, but for PLIM and FSTEP, which stand inside the ranges of R422 and Table 28.1 (assumption log
1); memory has nothing listed (assumption log 2). -/
def State.reset : State where
  tick := 0
  cores := Vector.replicate 208 Core.zero
  gmem := ⟨PoisonMem.empty, []⟩
  codeViews := []
  l2 := Vector.replicate 2 []
  ats := []
  watches := []
  lateTraps := []
  turns := ⟨0, [], false⟩
  later := []
  ticked := Vector.replicate 2 0
  injected := []
  parts := Vector.replicate 64 Partition.zero
  groups := Vector.replicate 16 ⟨none, none, false, none, false, false⟩
  queues := []
  launches := []
  nodes := []
  ports := Vector.replicate 65 Port.zero
  fns := Vector.replicate 64 FnRegs.zero
  mboxes := Vector.replicate 64 Mailbox.zero
  fmbox := Mailbox.zero
  answers := []
  binderr := false
  parterr := false
  bankerr := false
  remapEn := false
  remap := []
  irqs := []
  irqDropped := 0
  aer := []
  fabric := Fabric.zero
  boot := { Boot.zero with flash := ⟨⟨Config.monitorBytes, Config.monitorSig⟩, Config.recordBytes, ⟨Config.ovoneBytes, Config.ovoneSig⟩⟩ }
  attests := []
  banks := Vector.ofFn fun i => { MBank.zero with owner := if 1 ≤ i.val && i.val ≤ 63 then BitVec.ofNat 7 i.val else 0 }
  errs := ErrRing.zero
  scrub := Vector.replicate 40 ScrubRegion.zero
  power := { Power.zero with plim := 2400, fstep := 20 }
  nextKey := 0
  nextDom := 0
  hostRead := []
  sched := []
  cur := (0, .load)
  fresh := 0

end Sys2Proof.Machine
end

