-- ==== Sys2Proof/Machine/Base.lean ====
section
/-! DEFINITION. The named operations over registers, counts and records, over which every instruction and event is
written. -/

namespace Sys2Proof.Machine

/-- What a meaning answers. -/
abbrev Out := Host.Outcome State Fault Refusal

/-! ## Cores, streams and scalar registers -/

/-- Stream codes (Table 1.1). -/
def codeOf : StreamId → Nat
  | .load => 0
  | .exec => 1
  | .store => 2
  | .ctrl => 3

/-- The four streams in code order. -/
def coreStreams : List StreamId := [.load, .exec, .store, .ctrl]

namespace Core

/-- One of the four streams. -/
def stream (k : Core) : StreamId → Stream
  | .load => k.load
  | .exec => k.exec
  | .store => k.store
  | .ctrl => k.ctrl

/-- The core with one stream replaced. -/
def setStream (k : Core) (x : StreamId) (v : Stream) : Core :=
  match x with
  | .load => { k with load := v }
  | .exec => { k with exec := v }
  | .store => { k with store := v }
  | .ctrl => { k with ctrl := v }

/-- The core with one stream changed. -/
def modStream (k : Core) (x : StreamId) (f : Stream → Stream) : Core := k.setStream x (f (k.stream x))

/-- A scalar as instructions of the stream name it: s0 reads zero (Table 1.2), and CTRL in a handler names the
bank of its level (R334). -/
def readS (k : Core) (x : StreamId) (r : SReg) : Word :=
  if r == 0 then 0
  else match x with
    | .ctrl =>
      if k.hl == 1 then k.bank1.s[r.toNat]'r.isLt
      else if k.hl == 2 then k.bank2.s[r.toNat]'r.isLt
      else k.ctrl.s[r.toNat]'r.isLt
    | _ => (k.stream x).s[r.toNat]'r.isLt

/-- Write a scalar: writes to s0 are discarded (R117). -/
def writeS (k : Core) (x : StreamId) (r : SReg) (v : Word) : Core :=
  if r == 0 then k
  else match x with
    | .ctrl =>
      if k.hl == 1 then { k with bank1 := { k.bank1 with s := k.bank1.s.set r.toNat v r.isLt } }
      else if k.hl == 2 then { k with bank2 := { k.bank2 with s := k.bank2.s.set r.toNat v r.isLt } }
      else { k with ctrl := { k.ctrl with s := k.ctrl.s.set r.toNat v r.isLt } }
    | _ => k.modStream x fun t => { t with s := t.s.set r.toNat v r.isLt }

/-- A predicate: p0 reads true (Table 1.2). -/
def readP (k : Core) (x : StreamId) (r : PReg) : Bool :=
  if r == 0 then true
  else match x with
    | .ctrl =>
      if k.hl == 1 then k.bank1.p[r.toNat]'r.isLt
      else if k.hl == 2 then k.bank2.p[r.toNat]'r.isLt
      else k.ctrl.p[r.toNat]'r.isLt
    | _ => (k.stream x).p[r.toNat]'r.isLt

/-- Write a predicate: writes to p0 are discarded (R117). -/
def writeP (k : Core) (x : StreamId) (r : PReg) (v : Bool) : Core :=
  if r == 0 then k
  else match x with
    | .ctrl =>
      if k.hl == 1 then { k with bank1 := { k.bank1 with p := k.bank1.p.set r.toNat v r.isLt } }
      else if k.hl == 2 then { k with bank2 := { k.bank2 with p := k.bank2.p.set r.toNat v r.isLt } }
      else { k with ctrl := { k.ctrl with p := k.ctrl.p.set r.toNat v r.isLt } }
    | _ => k.modStream x fun t => { t with p := t.p.set r.toNat v r.isLt }

end Core

namespace State

/-- A core by its physical number. -/
def core (s : State) (c : CoreId) : Core := s.cores[c.val]

/-- The state with one core replaced. -/
def setCore (s : State) (c : CoreId) (k : Core) : State := { s with cores := s.cores.set c.val k }

/-- The state with one core changed. -/
def modCore (s : State) (c : CoreId) (f : Core → Core) : State := s.setCore c (f (s.core c))

/-- A stream of a core. -/
def stream (s : State) (c : CoreId) (x : StreamId) : Stream := (s.core c).stream x

/-- The state with one stream changed. -/
def modStream (s : State) (c : CoreId) (x : StreamId) (f : Stream → Stream) : State :=
  s.modCore c fun k => k.modStream x f

/-- A partition's record. -/
def part (s : State) (p : PartId) : Partition := s.parts[p.val]

/-- The state with one partition changed. -/
def modPart (s : State) (p : PartId) (f : Partition → Partition) : State :=
  { s with parts := s.parts.set p.val (f (s.part p)) }

/-- The partition a virtual function is bound to (R370). -/
def fnPart (s : State) (fn : BitVec 6) : PartId := (s.fns[fn.toNat]'fn.isLt).part

/-- The core whose stream is issuing. -/
def curCore (s : State) : Core := s.core s.cur.1

/-- The stream that is issuing. -/
def curStream (s : State) : Stream := s.stream s.cur.1 s.cur.2

/-- A scalar of the issuing stream. -/
def rs (s : State) (r : SReg) : Word := s.curCore.readS s.cur.2 r

/-- Write a scalar of the issuing stream. -/
def ws (s : State) (r : SReg) (v : Word) : State := s.modCore s.cur.1 fun k => k.writeS s.cur.2 r v

/-- A predicate of the issuing stream. -/
def rp (s : State) (r : PReg) : Bool := s.curCore.readP s.cur.2 r

/-- Write a predicate of the issuing stream. -/
def wp (s : State) (r : PReg) (v : Bool) : State := s.modCore s.cur.1 fun k => k.writeP s.cur.2 r v

/-- A count base of the issuing stream. -/
def rk (s : State) (r : KReg) : BitVec 16 := s.curStream.k[r.val]

/-- Write a count base of the issuing stream. -/
def wk (s : State) (r : KReg) (v : BitVec 16) : State :=
  s.modStream s.cur.1 s.cur.2 fun t => { t with k := t.k.set r.val v }

/-- The guard of the issuing instruction (R81). -/
def guard (s : State) : Guard → Bool
  | .always => true
  | .on neg p => s.rp p ^^ neg

/-- The address of the issuing instruction. -/
def pc (s : State) : VAddr := s.curStream.pc

/-- The address of the next instruction in sequence (R96). -/
def nextPc (s : State) : VAddr := s.curStream.pc + BitVec.ofNat 51 s.curStream.len

/-- Continue at an address. -/
def goto (s : State) (a : VAddr) : State := s.modStream s.cur.1 s.cur.2 fun t => { t with pc := a }

/-- Continue at the next instruction. -/
def adv (s : State) : State := s.goto s.nextPc

/-- The tick in a partition's view (R409): the gated length so far is not counted. -/
def viewOf (s : State) (p : PartId) : Nat :=
  match (s.part p).gatedAt with
  | some t => t - (s.part p).dtoff
  | none => s.tick - (s.part p).dtoff

/-- The tick in the view of the partition a core serves; the global tick on a core without a task. -/
def view (s : State) (c : CoreId) : Nat :=
  match (s.core c).task with
  | some t => s.viewOf t.part
  | none => s.tick

/-- A fresh number for a free value (assumption log 7). -/
def useFresh (s : State) : State := { s with fresh := s.fresh + 1 }

end State

/-! ## The order of one cycle (R44, R168, R215, R232, R336, R367) -/

/-- What has been done in this tick, with its places. -/
def State.turnsNow (s : State) : List (Contest × Nat) := if s.turns.tick == s.tick then s.turns.last else []

/-- Something that comes after a place in the order of a contest has been done in this tick. -/
def State.turnPast (s : State) (k : Contest) (rank : Nat) : Bool := s.turnsNow.any fun t => t.1 == k && decide (rank < t.2)

/-- Something of a given place is done in this tick: it is late where what comes after it has been done. -/
def State.takeTurn (s : State) (k : Contest) (rank : Nat) : State :=
  { s with turns := ⟨s.tick, (k, rank) :: s.turnsNow.filter (fun t => t.1 != k),
                     (s.turns.tick == s.tick && s.turns.late) || s.turnPast k rank⟩ }

/-- What is done in this tick without a place of its own is late where what comes after it has been done. -/
def State.checkTurn (s : State) (k : Contest) (rank : Nat) : State :=
  { s with turns := ⟨s.tick, s.turnsNow, (s.turns.tick == s.tick && s.turns.late) || s.turnPast k rank⟩ }

/-! ## Counted registers (R19 to R31) -/

namespace Core

/-- Count state of a register. -/
def cnt (k : Core) : CReg → Count
  | .tile r => (k.tiles[r.toNat]'r.isLt).cnt
  | .acc r => (k.accs[r.toNat]'r.isLt).cnt
  | .sig r => (k.sigs[r.toNat]'r.isLt).cnt

/-- The core with a register's count state replaced. -/
def setCnt (k : Core) (x : CReg) (n : Count) : Core :=
  match x with
  | .tile r => { k with tiles := k.tiles.set r.toNat { k.tiles[r.toNat]'r.isLt with cnt := n } r.isLt }
  | .acc r => { k with accs := k.accs.set r.toNat { k.accs[r.toNat]'r.isLt with cnt := n } r.isLt }
  | .sig r => { k with sigs := k.sigs.set r.toNat { k.sigs[r.toNat]'r.isLt with cnt := n } r.isLt }

/-- The value and poison of a register. -/
def regVal (k : Core) : CReg → RegVal
  | .tile r => .tile (k.tiles[r.toNat]'r.isLt).val (k.tiles[r.toNat]'r.isLt).poison
  | .acc r => .acc (k.accs[r.toNat]'r.isLt).val (k.accs[r.toNat]'r.isLt).poison
  | .sig r => .sig (k.sigs[r.toNat]'r.isLt).val

end Core

/-- A write may proceed: P is 0 or OPEN is set, and no earlier write is in flight (R20). -/
def Count.writable (n : Count) : Bool := (n.p == 0 || n.opn) && !n.rsv

/-- Reserved for a write (R21). -/
def Count.reserve (n : Count) : Count := { n with rsv := true }

/-- The reservation released without a write (R31). -/
def Count.release (n : Count) : Count := { n with rsv := false }

/-- The count state a completed write leaves (R20). -/
def Count.complete (n : Count) (rdr : BitVec 3) : Count :=
  if rdr == 7 then { n with c := n.c + 1, p := 0, opn := true, rsv := false }
  else { n with c := n.c + 1, p := rdr, opn := false, rsv := false }

/-- One read's debit (Table 1.6). -/
def Count.debit (n : Count) : Count := if n.opn then n else { n with p := n.p - 1 }

/-- Old bits outside a mask, new bits inside. -/
def mergeBits {n : Nat} (old new mask : BitVec n) : BitVec n := (old &&& ~~~mask) ||| (new &&& mask)

namespace Core

/-- The value of a register after a write's data (R20): a class that does not match changes nothing. -/
def putData (k : Core) (x : CReg) (d : WriteData) : Core :=
  match x, d with
  | .tile r, .tile v m pv pm =>
    let t := (k.tiles[r.toNat]'r.isLt)
    let t := { t with val := mergeBits t.val v m, poison := mergeBits t.poison pv pm }
    { k with tiles := k.tiles.set r.toNat t r.isLt }
  | .acc r, .acc v m pv pm =>
    let t := (k.accs[r.toNat]'r.isLt)
    let t := { t with val := mergeBits t.val v m, poison := mergeBits t.poison pv pm }
    { k with accs := k.accs.set r.toNat t r.isLt }
  | .sig r, .sig v =>
    let t := (k.sigs[r.toNat]'r.isLt)
    { k with sigs := k.sigs.set r.toNat { t with val := v } r.isLt }
  | _, _ => k

/-- A write completes: value, C, P and OPEN appear together and the reservation is released (R20, R21). -/
def completeWrite (k : Core) (x : CReg) (rdr : BitVec 3) (d : WriteData) : Core :=
  (k.putData x d).setCnt x ((k.cnt x).complete rdr)

/-- Reserve a register for a write. -/
def reserve (k : Core) (x : CReg) : Core := k.setCnt x (k.cnt x).reserve

end Core

/-- One counted source against a count state (Table 1.6). -/
inductive SrcState where
  | ready | stale | wait | overrun
deriving DecidableEq, Repr

/-- Table 1.6: d is C minus the expected count, read serially. -/
def Count.source (n : Count) (e : BitVec 16) : SrcState :=
  let d := n.c - e
  if d == 0 then (if n.p != 0 || n.opn then .ready else .overrun)
  else if d.toNat < 0x8000 then .stale
  else .wait

/-- REG and CLS in bits [9:0] and a count in bits [25:10] (Table 1.9). -/
def countEaddr (x : CReg) (e : BitVec 16) : Word :=
  let cls : BitVec 3 := match x with
    | .tile _ => 0
    | .acc _ => 1
    | .sig _ => 2
  let reg : BitVec 7 := match x with
    | .tile r => r
    | .acc r => r.setWidth 7
    | .sig r => r.setWidth 7
  ((0 : BitVec 38) ++ e ++ cls ++ reg)

/-- What the sources of an instruction come to (R24, R25, R404). -/
inductive SrcVerdict where
  | conflict (x : CReg)
  | failing (x : CReg)
  | stale (x : CReg) (e : BitVec 16)
  | wait
  | overrun (x : CReg) (e : BitVec 16)
  | ready
deriving DecidableEq, Repr

/-- The first register two counted sources name under different counts (Table 1.7). -/
def conflictIn : List SrcRef → Option CReg
  | [] => none
  | r :: rest =>
    match r.exp with
    | none => conflictIn rest
    | some e =>
      if rest.any (fun q => q.x == r.x && q.exp.isSome && q.exp != some e) then some r.x else conflictIn rest

/-- The first source in a given state, in operand order: which of several sources that fail alike EADDR names is the
model's choice (assumption log 28). -/
def Core.firstIn (k : Core) (st : SrcState) (srcs : List SrcRef) : Option (CReg × BitVec 16) :=
  srcs.findSome? fun r =>
    match r.exp with
    | none => none
    | some e => if (k.cnt r.x).source e == st then some (r.x, e) else none

/-- R24 over all counted sources, after the check of Table 1.7; a register whose count state has failed raises
before anything else (R404). -/
def Core.evalSources (k : Core) (srcs : List SrcRef) : SrcVerdict :=
  match srcs.find? fun r => (k.cnt r.x).bad with
  | some r => .failing r.x
  | none =>
    match k.firstIn .stale srcs with
    | some (x, e) => .stale x e
    | none =>
      match k.firstIn .wait srcs with
      | some _ => .wait
      | none =>
        match k.firstIn .overrun srcs with
        | some (x, e) => .overrun x e
        | none => .ready

/-- The distinct counted registers of a list of sources. -/
def countedRegs (srcs : List SrcRef) : List CReg :=
  ((srcs.filter fun r => r.exp.isSome).map (·.x)).eraseDups

/-! ### What is ordered after the loads of the weight buffer (R37, R48, R227, R264) -/

/-- A stream is ordered after a PWLD. -/
def Landed.learn (l : Landed) (x : StreamId) : Landed := if l.after.contains x then l else { l with after := x :: l.after }

/-- What a stream reads of a register's write with count n orders it after a PWLD: the completion itself (R227), or a write that
a stream so ordered has made. -/
def Landed.reaches (l : Landed) (x : CReg) (n : BitVec 16) : Bool :=
  (x == .sig l.g && n == l.n) || l.via.contains (.reg x n)

/-- A counted read orders its stream after the PWLDs that the write it names is ordered after; a read of an OPEN register is no
handoff (R37). -/
def Core.orderReads (k : Core) (x : StreamId) (srcs : List SrcRef) : Core :=
  { k with landed := k.landed.map fun l =>
      if srcs.any fun r => match r.exp with
        | some n => !(k.cnt r.x).opn && l.reaches r.x n
        | none => false
      then l.learn x else l }

/-- A write of a register that a stream issues carries the stream's order under the count it will make (R37). -/
def Core.handOn (k : Core) (x : StreamId) (regs : List CReg) : Core :=
  { k with landed := k.landed.map fun l =>
      let made := regs.map fun r => Handoff.reg r ((k.cnt r).c + 1)
      { l with via := (if l.after.contains x then made else []) ++ l.via.filter fun h => !made.contains h } }

/-- A stream that is ordered after a PWLD carries its order to others (Table 12.3: FORK, JOIN). -/
def Core.handTo (k : Core) (givers takers : List StreamId) : Core :=
  { k with landed := k.landed.map fun l => if givers.any l.after.contains then takers.foldl Landed.learn l else l }

/-- An operation on a cell takes the order of what was released on it, and releases its stream's own where it writes the cell
(R229, R233, Table 12.3). -/
def Core.orderCell (k : Core) (x : StreamId) (acq rel : Bool) (c : CoreId) (i : BitVec 12) : Core :=
  { k with landed := k.landed.map fun l =>
      let l := if acq && l.via.contains (.cell c i) then l.learn x else l
      if rel && l.after.contains x && !l.via.contains (.cell c i) then { l with via := .cell c i :: l.via } else l }

/-- Debit every distinct counted register once (R24 step 4); the reads order their stream (R37). -/
def Core.debitAll (k : Core) (x : StreamId) (srcs : List SrcRef) : Core :=
  ((countedRegs srcs).foldl (fun k x => k.setCnt x (k.cnt x).debit) k).orderReads x srcs

/-- The debits an instruction makes, with each register's count then (assumption log 12). -/
def Core.debitsOf (k : Core) (srcs : List SrcRef) : List (CReg × BitVec 16) :=
  ((countedRegs srcs).filter fun x => !(k.cnt x).opn).map fun x => (x, (k.cnt x).c)

/-- The hard stop is in force on a stream (R342): until the drain is withdrawn (R341) or the task restored. -/
def Stream.hard (v : Stream) : Bool := v.hs && v.dr

/-- An ordering kind that acquires (Table 4.7). -/
def acquires : OrdScp → Bool
  | .acq _ => true
  | .ar _ => true
  | _ => false

/-- An ordering kind that releases (Table 4.7). -/
def releases : OrdScp → Bool
  | .rel _ => true
  | .ar _ => true
  | _ => false

/-! ## Records to the host -/

/-- A write of a management register by the host: in minimal mode it is discarded (R389). -/
def State.bar0 (s : State) (f : State → State) : Out := .next (if s.boot.stage == .minimal then s else f s)

/-- 64 bytes as one value, byte 0 lowest. -/
def recordOf (bs : List Byte) : BitVec 512 := BitVec.ofNat 512 (leNat bs)

/-- Post a record to a mailbox, or hold it back when the ring is full (R376). -/
def Mailbox.post (m : Mailbox) (r : BitVec 512) : Mailbox :=
  if m.heldBack.isEmpty && (m.mbwr - m.mbrd).toNat < 64 then
    { m with ring := m.ring.set (m.mbwr.toNat % 64) r (Nat.mod_lt _ (by decide)), mbwr := m.mbwr + 1 }
  else { m with heldBack := m.heldBack ++ [r] }

namespace State

/-- An interrupt message (R375): a VF vector above 63 sends nothing, and the remap table decides where it is on. -/
def sendIrq (s : State) (fn : BitVec 6) (vec : BitVec 11) : State :=
  if fn != 0 && decide (63 < vec.toNat) then s
  else if s.remapEn then
    match s.remap.get? (2048 * fn.toNat + vec.toNat) with
    | some e =>
      if e.valid then { s with irqs := s.irqs ++ [⟨fn, vec, some (e.addr, e.data)⟩] }
      else { s with irqDropped := s.irqDropped + 1 }
    | none => { s with irqDropped := s.irqDropped + 1 }
  else { s with irqs := s.irqs ++ [⟨fn, vec, none⟩] }

/-- The state with one function's mailbox changed. -/
def modMbox (s : State) (fn : BitVec 6) (f : Mailbox → Mailbox) : State :=
  { s with mboxes := s.mboxes.set fn.toNat (f (s.mboxes[fn.toNat]'fn.isLt)) fn.isLt }

/-- Post to a function's mailbox; PF vector 0 signals a record of the PF mailbox (R375, R376). In minimal mode the mailboxes
take nothing (R389). -/
def postMail (s : State) (fn : BitVec 6) (r : BitVec 512) : State :=
  if s.boot.stage == .minimal then s
  else
    let s := s.modMbox fn fun m => m.post r
    if fn == 0 then s.sendIrq 0 0 else s

/-- Post a notice to the PF and fabric-manager mailboxes (R383). -/
def postNotice (s : State) (kind port : Nat) (dev : BitVec 16) : State :=
  let r := recordOf (leBytes 1 kind ++ leBytes 1 port ++ leBytes 2 dev.toNat ++ leBytes 4 0 ++ leBytes 8 s.tick)
  { s.postMail 0 r with fmbox := s.fmbox.post r }

/-- Write an error record (R408): dropped and counted when the ring is full. -/
def errorRecord (s : State) (kind src unit part count : Nat) (addr : Nat) (taskid pc syn : Nat) : State :=
  let r := recordOf (leBytes 1 kind ++ leBytes 1 src ++ leBytes 2 unit ++ leBytes 2 part ++ leBytes 2 count ++
    leBytes 8 s.tick ++ leBytes 8 addr ++ leBytes 8 taskid ++ leBytes 8 pc ++ leBytes 4 syn)
  if (s.errs.wr - s.errs.rd).toNat < 4096 then
    { s with errs := { s.errs with recs := s.errs.recs.set (s.errs.wr.toNat % 4096) r, wr := s.errs.wr + 1 } }
  else { s with errs := { s.errs with ovf := s.errs.ovf + 1 } }

end State

/-- TASKID (R327). -/
def taskidOf (k : NodeKey) : Word := k.seq ++ (0 : BitVec 5) ++ k.queue ++ k.node

/-- KERNID (R328). -/
def Task.kernid (t : Task) : Word := (0 : BitVec 16) ++ t.tag ++ t.image

/-- The die of a core (R395): units 0 to 12 lie on die 0. -/
def dieOf (c : CoreId) : Nat := if c.val < 104 then 0 else 1

/-! ## Fields of a partition's record that wait for the next tick (R394) -/

/-- The record with a field's new value. -/
def PartField.apply (f : PartField) (r : Partition) : Partition :=
  match f with
  | .retire v => { r with retire := v }
  | .slice v => { r with slice := v }
  | .share die v => if die then { r with share1 := v } else { r with share0 := v }
  | .depth v => { r with depth := v }
  | .udeleg0 v => { r with udeleg0d := v }
  | .udeleg1 v => { r with udeleg1d := v }
  | .shvec v => { r with shvecd := v }
  | .pkey v => { r with pkey := v }

/-- A field written now, which takes effect at the next tick. -/
def State.writeLater (s : State) (p : PartId) (f : PartField) : State := { s with later := s.later ++ [(p, f)] }

/-- A partition's record as it will stand at the next tick, which is how it reads. -/
def State.partRecord (s : State) (p : PartId) : Partition :=
  (s.later.filter fun w => w.1 == p).foldl (fun r w => w.2.apply r) (s.part p)

/-- The fields written in the tick that ends take effect. -/
def State.takeFields (s : State) : State :=
  { s.later.foldl (fun s w => s.modPart w.1 w.2.apply) s with later := [] }

/-! ## Monitoring hooks (R416) -/

/-- The bank counts this task's events: its owner's partition and its filter (Table 27.1). -/
def State.bankCovers (s : State) (b : BitVec 7) (c : CoreId) : Bool :=
  let k := (s.banks[b.toNat]'b.isLt)
  match (s.core c).task with
  | none => k.owner == 0x7F && !(k.bfilt.getLsbD 58) && !(k.bfilt.getLsbD 32)
  | some t =>
    let pf := k.owner == 0x7F
    let vfPart := (s.fns[(k.owner.setWidth 6).toNat]'(k.owner.setWidth 6).isLt).part
    (if pf then !(k.bfilt.getLsbD 58) || k.bfilt.extractLsb' 48 10 == BitVec.ofNat 10 t.part.val
     else k.owner != 0 && vfPart == t.part) &&
    (!(k.bfilt.getLsbD 32) || k.bfilt.extractLsb' 0 32 == t.image)

/-- The four hash multipliers (R416). -/
def sketchMul : List Nat := [0x9E3779B97F4A7C15, 0xC2B2AE3D27D4EB4F, 0x165667B19E3779F9, 0xD6E8FEB86659FD93]

/-- The column of a key in row r (R416). -/
def sketchCol (mul key : Nat) : Nat := key * mul % 2 ^ 64 / 2 ^ 54

/-- Add weight w for a key to one bank (R416): cells saturate and set SAT. -/
def MBank.count (b : MBank) (key w : Nat) : MBank :=
  let step := fun (b : MBank) (rm : Nat × Nat) =>
    let i := 1024 * rm.1 + sketchCol rm.2 key
    let v := (b.cells.get? i).getD 0 + w
    { b with cells := b.cells.set i (if v < 2 ^ 32 then v else 2 ^ 32 - 1),
             sat := b.sat || decide (2 ^ 32 - 1 ≤ v) }
  let b := ((List.range 4).zip sketchMul).foldl step b
  { b with total := b.total + BitVec.ofNat 64 w }

/-- An event of Table 27.3 on a core, with the PC of the instruction concerned: every bank in sketch mode that
names the event and covers the core counts it. -/
def State.sketch (s : State) (ev : BitVec 8) (c : CoreId) (pc : VAddr) (w : Nat) : State :=
  if s.banks.toList.any (fun b => b.mode == 1 && b.event == ev) then
    { s with banks := s.banks.mapIdx fun i b =>
        if b.mode == 1 && b.event == ev && s.bankCovers (BitVec.ofNat 7 i) c then
          b.count (if b.keyKern then ((s.core c).task.map fun t => t.kernid.toNat).getD 0 else pc.toNat) w
        else b }
  else s

/-! ## Records of a core's errors (R402, R408) -/

/-- An error record about a core (Table 26.4). -/
def State.coreRecord (s : State) (kind : Nat) (c : CoreId) (addr : Nat) (pc : VAddr) (syn : Nat) : State :=
  let k := s.core c
  let (part, id) := match k.task with
    | some t => (t.part.val, (taskidOf t.key).toNat)
    | none => (0xFFFF, 0)
  s.errorRecord kind (dieOf c) c.val part 1 addr id pc.toNat syn

/-- The units with checkers (Table 26.2). -/
inductive Checker where
  | scalar | vector | array | sign | pump | sem
deriving DecidableEq, Repr

/-- The syndrome that names a unit in an error record (R402): its code is the part's. -/
def Checker.code (u : Checker) : BitVec 32 :=
  match u with
  | .scalar => Config.checkerCode 0
  | .vector => Config.checkerCode 1
  | .array => Config.checkerCode 2
  | .sign => Config.checkerCode 3
  | .pump => Config.checkerCode 4
  | .sem => Config.checkerCode 5

/-- A core after one more mismatch (R405): three within 2^31 ticks wear it, whatever comes later. -/
def Core.mismatchAt (k : Core) (tick : Nat) : Core :=
  let l := (tick :: k.mismatches).take 3
  { k with mismatches := l, worn := k.worn || (match l with
    | [a, _, b] => decide (a ≤ b + 2 ^ 31)
    | _ => false) }

/-- A checker mismatch on a core (R402): its record of kind 0x04, which names the unit, the mark that counts toward
taking the core offline (R405), and the sketch event. -/
def State.mismatch (s : State) (c : CoreId) (u : Checker) (pc : VAddr) : State :=
  let s := s.coreRecord 4 c 0 pc u.code.toNat
  (s.modCore c fun k => k.mismatchAt s.tick).sketch 0x0B c pc 1

/-! ## Base causes (Table 20.1) -/

namespace Cause
def illegalOpcode : BitVec 7 := 0x01
def reservedField : BitVec 7 := 0x02
def wrongStream : BitVec 7 := 0x03
def illegalPrefix : BitVec 7 := 0x04
def fetchFault : BitVec 7 := 0x05
def controlState : BitVec 7 := 0x06
def softwareTrap : BitVec 7 := 0x07
def staleRead : BitVec 7 := 0x10
def readerOverrun : BitVec 7 := 0x11
def countDeadlock : BitVec 7 := 0x12
def countConflict : BitVec 7 := 0x13
def pageNotPresent : BitVec 7 := 0x20
def permission : BitVec 7 := 0x21
def stage2Fault : BitVec 7 := 0x22
def misaligned : BitVec 7 := 0x23
def apertureViolation : BitVec 7 := 0x24
def peerLost : BitVec 7 := 0x25
def localRange : BitVec 7 := 0x26
def badHandle : BitVec 7 := 0x27
def tagIndex : BitVec 7 := 0x28
def intDivZero : BitVec 7 := 0x40
def matrixState : BitVec 7 := 0x41
def geomNonfinite : BitVec 7 := 0x50
def pumpFault : BitVec 7 := 0x60
def pumpQueueError : BitVec 7 := 0x61
def pipeCheck : BitVec 7 := 0x70
def poisonConsumed : BitVec 7 := 0x71
def eccUncorrectable : BitVec 7 := 0x72
def privilege : BitVec 7 := 0x78
def bkpt : BitVec 7 := 0x7C
def tickStop : BitVec 7 := 0x7D
end Cause

end Sys2Proof.Machine
end

