-- ==== Sys2Proof/Machine/Operands.lean ====
section
/-! DEFINITION. Operands in memory: effective addresses, address checks, translation, apertures, and reading and
writing the bytes of one unit (spec/02 R41 to R58, spec/09 R190 to R199, spec/21 R350 to R358). -/

namespace Sys2Proof.Machine

/-! ## Source and destination specifiers -/

/-- e = k_b + sext(off), mod 2^16 (R23). -/
def State.expect (s : State) : CountSpec → Option (BitVec 16)
  | .any => none
  | .at k off => some (s.rk k + off.signExtend 16)

/-- A tile source of the issuing instruction. -/
def State.tsrc (s : State) (a : TSrc) : SrcRef := ⟨.tile a.reg, s.expect a.spec⟩
/-- An accumulator source. -/
def State.asrc (s : State) (a : ASrc) : SrcRef := ⟨.acc a.reg, s.expect a.spec⟩
/-- A signal source. -/
def State.gsrc (s : State) (a : GSrc) : SrcRef := ⟨.sig a.reg, s.expect a.spec⟩
/-- The registers of a point group (R93). -/
def State.group (s : State) (a : TSrc) (n : Nat) : List SrcRef :=
  (List.range n).map fun i => ⟨.tile (a.reg + BitVec.ofNat 7 i), s.expect a.spec⟩

/-- EA = (s[BASE] + sext(OFF)) mod 2^51 (R190). -/
def State.ea (s : State) (base : SReg) (off : BitVec 24) : VAddr := (s.rs base + sext64 off).setWidth 51

/-- The stride of a tile instruction: s[STR], or the dense value when STR is 0 (R190). -/
def State.stride (s : State) (str : SReg) (dense : Nat) : Word :=
  if str == 0 then BitVec.ofNat 64 dense else s.rs str

/-- Unit u at (EA + u * stride) mod 2^51 (R190). -/
def unitAddr (ea : VAddr) (stride : Word) (u : Nat) : VAddr :=
  (ea.zeroExtend 64 + stride * BitVec.ofNat 64 u).setWidth 51

/-- The entry index of a tag instruction (R203). -/
def State.tagIdx (s : State) (base : SReg) (off : BitVec 24) : Word := s.rs base + sext64 off

/-! ## The local window and the physical map -/

/-- First byte of the local window (R41). -/
def windowBase : Nat := 0x7FFFFFC000000

/-- Bytes of the cistern (R42). -/
def cisternSize : Nat := 0x200000

/-- HBM4E (Table 21.1). -/
def inHbm (pa : Nat) : Bool := decide (pa < 0x8000000000)
/-- LPDDR6 (Table 21.1). -/
def inLpddr (pa : Nat) : Bool := decide (0x100000000000 ≤ pa) && decide (pa < 0x10C000000000)
/-- Translation ports (Table 21.1). -/
def inPorts (pa : Nat) : Bool := decide (0x4000000000000 ≤ pa) && decide (pa < 0x4000002000000)
/-- Host memory (Table 21.1). -/
def inHost (pa : Nat) : Bool := decide (0x8000000000000 ≤ pa) && decide (pa < 0x10000000000000)
/-- The device's own memory. -/
def inDram (pa : Nat) : Bool := inHbm pa || inLpddr pa

/-- Both ends of a range lie in one row of Table 21.1. -/
def inRow (row : Nat → Bool) (pa size : Nat) : Bool := row pa && row (pa + size - 1)

/-- A leaf may name a range with a TIER (R350): one row of the map covers it, with its tier; any for host memory. -/
def tierOk (pa size : Nat) (tier : Bool) : Bool :=
  inRow inHost pa size || (if tier then inRow inLpddr pa size else inRow inHbm pa size || inRow inPorts pa size)

/-! ## Regions and poisoned granules (R401, R406) -/

/-- The region of a physical address: stacks 0 to 7 of 64 GiB, then channels 0 to 31 of 24 GiB. -/
def regionOf (pa : Nat) : Option (Fin 40) :=
  let n := if inHbm pa then pa / 0x1000000000 else if inLpddr pa then 8 + (pa - 0x100000000000) / 0x600000000 else 40
  if h : n < 40 then some ⟨n, h⟩ else none

/-- The first byte of a region. -/
def regionBase (r : Fin 40) : Nat := if r.val < 8 then r.val * 0x1000000000 else 0x100000000000 + (r.val - 8) * 0x600000000

/-- Bytes of a region. -/
def regionSize (r : Fin 40) : Nat := if r.val < 8 then 0x1000000000 else 0x600000000

/-- UNIT of a record about a region (Table 26.4). -/
def regionUnit (r : Fin 40) : Nat := if r.val < 8 then r.val else r.val - 8

/-- UNIT of a record about a physical address (Table 26.4): its stack or channel, 0 for host memory. -/
def unitOf (pa : Nat) : Nat := ((regionOf pa).map regionUnit).getD 0

/-- What meets an error of memory, as its record names it (Table 26.4): the partition of the access, or 0xFFFF, its TASKID and the
address of its instruction, or 0. -/
structure Meets where
  part : Nat
  id : Nat
  pc : VAddr
deriving DecidableEq, Repr

/-- No access of a task: the scrub, a copy, the host. -/
def meetsNone (part : Nat) : Meets := ⟨part, 0, 0⟩

/-- An access that an instruction of a core's task makes. -/
def State.meets (s : State) (c : CoreId) (pc : VAddr) : Meets :=
  match (s.core c).task with
  | some t => ⟨t.part.val, (taskidOf t.key).toNat, pc⟩
  | none => meetsNone 0xFFFF

/-- A granule of global memory that is poisoned. -/
def GlobalMem.spoil (g : GlobalMem) (granule : Nat) : GlobalMem := { g with mem := g.mem.mark granule true }

/-- An uncorrectable error of a granule met by an access: it is poisoned, as a fetch sees it too, with its record (R401, R403,
R408). -/
def State.granulePoisoned (s : State) (m : Meets) (pa syn : Nat) : State :=
  { s with gmem := s.gmem.spoil (pa / 64),
           codeViews := s.codeViews.map fun (w : CodeView) => { w with mem := w.mem.spoil (pa / 64) }
  }.errorRecord 2 2 (unitOf pa) m.part 1 pa m.id m.pc.toNat syn

/-- A granule of the cistern that an uncorrectable error poisons, as a fetch sees it too (R401, R403). -/
def Core.spoilCistern (k : Core) (granule : Nat) : Core :=
  { k with cistern := k.cistern.mark granule true, codeView := k.codeView.map fun (m : PoisonMem) => m.mark granule true }

/-! ## Global memory under keys (R390, R391, R403) -/

/-- The key a partition's accesses use. -/
def State.keyOf (s : State) (p : PartId) : Nat := ((s.part p).key).getD 0

/-- A byte of global memory as a partition reads it: a granule last written under another key reads as bytes that
have nothing to do with what was stored (R391). -/
def State.readByte (s : State) (p : PartId) (pa : Nat) : Byte :=
  let b := s.gmem.mem.bytes.read pa
  match s.gmem.keys.get? (pa / 64) with
  | some k => if k == s.keyOf p then b else Config.foreignByte k (s.keyOf p) pa b
  | none => b

/-- A run of bytes of global memory as a partition reads it. -/
def State.readPhys (s : State) (p : PartId) (pa n : Nat) : List Byte :=
  if s.gmem.keys.isEmpty then s.gmem.mem.bytes.readRange pa n
  else (List.range n).map fun i => s.readByte p (pa + i)

/-- Some granule of the run is poisoned. -/
def State.physBad (s : State) (pa n : Nat) : Bool := s.gmem.mem.badRange pa n

/-- A granule that a run of n bytes at pa is about to change: where it was stored under another key and is not covered
wholly, its bytes become what the partition reads there (R391). -/
def State.takeGranule (s : State) (p : PartId) (pa n g : Nat) : State :=
  match s.gmem.keys.get? g with
  | some k =>
    if k == s.keyOf p || PoisonMem.covers pa n g then s
    else
      let old := s.gmem.mem.bytes.write (64 * g) (s.readPhys p (64 * g) 64)
      { s with gmem := { s.gmem with mem := { s.gmem.mem with bytes := old } } }
  | none => s

/-- The key a granule is stored under once a partition writes it: its own, or none for a partition without one. -/
def State.keyGranule (s : State) (p : PartId) (g : Nat) : State :=
  match (s.part p).key with
  | some k => { s with gmem := { s.gmem with keys := s.gmem.keys.set g k } }
  | none => { s with gmem := { s.gmem with keys := s.gmem.keys.drop g } }

/-- Every granule of the device's own memory that a run touches, before the run is stored. -/
def State.ownGranule (s : State) (p : PartId) (pa n g : Nat) : State :=
  if inDram (64 * g) then (s.takeGranule p pa n g).keyGranule p g else s

/-- Write a run of bytes of global memory for a partition. A granule written only in part that was stored under
another key keeps, in its other bytes, what the partition reads there (R391). -/
def State.writePhys (s : State) (p : PartId) (pa : Nat) (bs : List Byte) (poison : Bool) : State :=
  let s := (PoisonMem.granules pa bs.length).foldl (fun s g => s.ownGranule p pa bs.length g) s
  { s with gmem := { s.gmem with mem := s.gmem.mem.store pa bs poison } }

/-! ## Page tables (R351 to R356) -/

/-- What an access needs of a page (R356). -/
inductive AccKind where
  | read | write | fetch
deriving DecidableEq, Repr

/-- Who translates: partition, PASID, whether the access may use SUP pages, and what it needs. -/
structure TransCtx where
  part : PartId
  pasid : BitVec 20
  sup : Bool
  kind : AccKind
deriving DecidableEq, Repr

/-- A translation: physical address, the final IPA, the stage-1 and last-stage leaf entries, the lowest index bit of the
stage-1 leaf's level, and whether a second stage took part. -/
structure Trans where
  pa : Nat
  ipa : Nat
  leaf : Word
  last : Word
  sh : Nat
  staged : Bool
deriving DecidableEq, Repr

/-- The outcome of a walk: a translation, a cause, an entry in a poisoned granule with its physical address (Table 26.1),
or a page that a MIGRATE blocks (R365). -/
inductive WalkRes where
  | ok (t : Trans)
  | fault (cause : BitVec 7)
  | poison (pa : Nat)
  | blocked
deriving DecidableEq, Repr

/-- An entry of a table, or none when its granule is poisoned (Table 26.1). -/
def State.pte (s : State) (p : PartId) (pa : Nat) : Option Word :=
  if s.physBad pa 8 then none
  else if inDram pa || inHost pa then some (BitVec.ofNat 64 (leNat (s.readPhys p pa 8)))
  else some 0

def pteV (e : Word) : Bool := e.getLsbD 0
def pteL (e : Word) : Bool := e.getLsbD 1
def pteR (e : Word) : Bool := e.getLsbD 2
def pteW (e : Word) : Bool := e.getLsbD 3
def pteX (e : Word) : Bool := e.getLsbD 4
def pteSup (e : Word) : Bool := e.getLsbD 5
def pteTier (e : Word) : Bool := e.getLsbD 6
def pteCt (e : Word) : Bool := e.getLsbD 7
/-- ADDR as a byte address. -/
def pteAddr (e : Word) : Nat := (e.extractLsb' 15 37).toNat * 0x8000

/-- Well formed at a level whose index starts at bit sh (R352): sh is 39, 27 or 15. CT of a larger leaf says nothing:
no rule makes such an entry malformed. -/
def pteForm (sh : Nat) (e : Word) : Bool :=
  pteV e && e.extractLsb' 8 7 == 0 &&
    (if pteL e then pteAddr e % 2 ^ sh == 0 else sh != 15 && e.extractLsb' 2 6 == 0)

/-- The entry allows the access (R356). -/
def pteAllows (k : AccKind) (e : Word) : Bool :=
  match k with
  | .read => pteR e
  | .write => pteW e
  | .fetch => pteX e

/-- A last-stage leaf agrees with the physical map over its whole frame (R350): covered, of its tier, and a port only
as the partition's own and under a stage-1 leaf with SUP. -/
def mapOk (p : PartId) (sup : Bool) (tier : Bool) (pa size : Nat) : Bool :=
  tierOk pa size tier &&
    (!inPorts pa || (sup && decide (size ≤ 0x8000) && decide ((pa - 0x4000000000000) / 0x8000 = p.val + 1)))

/-- The three levels by the lowest bit of their index (Table 21.2). -/
def walkShifts : List Nat := [39, 27, 15]

/-- A stage-2 walk of an IPA (R355): the physical address and the leaf, which agrees with the physical map under the
SUP of the stage-1 leaf that produced the IPA (R350). -/
def State.walk2 (s : State) (p : PartId) (k : AccKind) (sup : Bool) (ipa : Nat) : List Nat → Nat → WalkRes
  | [], _ => .fault Cause.stage2Fault
  | sh :: rest, table =>
    let at_ := table + 8 * (ipa / 2 ^ sh % 4096)
    match s.pte p at_ with
    | none => .poison at_
    | some e =>
      if !pteForm sh e then .fault Cause.stage2Fault
      else if pteL e then
        if mapOk p sup (pteTier e) (pteAddr e) (2 ^ sh) && pteAllows k e then
          .ok ⟨pteAddr e + ipa % 2 ^ sh, ipa, e, e, sh, true⟩
        else .fault Cause.stage2Fault
      else s.walk2 p k sup ipa rest (pteAddr e)

/-- A MIGRATE in progress at a port, whose new translations are blocked (R365). -/
def Port.moves (q : Port) (p : PartId) (ipa : Bool) (a : Nat) : Bool :=
  match q.cur with
  | some m => m.kind == 6 && m.err == 0 && m.done && m.part == some p && m.ipa == ipa && decide (m.addr ≤ a) &&
      decide (a < m.addr + 0x8000 * m.npg)
  | none => false

/-- A page of intermediate addresses that a MIGRATE moves (R365). -/
def State.blockedIpa (s : State) (p : PartId) (ipa : Nat) : Bool := s.ports.toList.any fun q => q.moves p true ipa

/-- A MIGRATE moves intermediate pages of a partition (R365). -/
def State.movingIpa (s : State) (p : PartId) : Bool :=
  s.ports.toList.any fun q => match q.cur with
    | some m => m.kind == 6 && m.err == 0 && m.done && m.ipa && m.part == some p
    | none => false

/-- An IPA to its physical address, under the SUP of the stage-1 leaf: as it stands without stage 2 (R355). -/
def State.stage2 (s : State) (p : PartId) (k : AccKind) (sup : Bool) (ipa : Nat) : WalkRes :=
  if (s.part p).s2en then
    if 2 ^ 51 ≤ ipa then .fault Cause.stage2Fault
    else if s.blockedIpa p ipa then .blocked
    else s.walk2 p k sup ipa walkShifts ((s.part p).s2root.toNat / 0x8000 * 0x8000)
  else .ok ⟨ipa, ipa, 0, 0, 15, false⟩

/-- A stage-1 walk (R351, R355, R356): each table address passes through stage 2. -/
def State.walk1 (s : State) (x : TransCtx) (va : Nat) : List Nat → Nat → WalkRes
  | [], _ => .fault Cause.pageNotPresent
  | sh :: rest, table =>
    match s.stage2 x.part .read false (table + 8 * (va / 2 ^ sh % 4096)) with
    | .fault c => .fault c
    | .poison pa => .poison pa
    | .blocked => .blocked
    | .ok t =>
      match s.pte x.part t.pa with
      | none => .poison t.pa
      | some e =>
        if !pteForm sh e then .fault Cause.pageNotPresent
        else if !pteL e then s.walk1 x va rest (pteAddr e)
        else
          let ipa := pteAddr e + va % 2 ^ sh
          let s2 := (s.part x.part).s2en
          if !s2 && !mapOk x.part (pteSup e) (pteTier e) (pteAddr e) (2 ^ sh) then .fault Cause.pageNotPresent
          else if !pteAllows x.kind e || (pteSup e && !x.sup) then .fault Cause.permission
          else
            match s.stage2 x.part x.kind (pteSup e) ipa with
            | .ok t => .ok ⟨t.pa, ipa, e, if s2 then t.last else e, sh, s2⟩
            | r => r

/-- The walk of an address under a PASID (R354): the PASID table gives the stage-1 root. What a PTAB that is not aligned, a PTLEN of 0
or above 4,096, low bits of S2ROOT and bits [63:52] of an entry do is the model's choice: the first two are taken as written, the
others are ignored (assumption log 31). -/
def State.walk (s : State) (x : TransCtx) (va : Nat) : WalkRes :=
  let q := s.part x.part
  if q.ptlen.toNat ≤ x.pasid.toNat then .fault Cause.pageNotPresent
  else match s.pte x.part (q.ptab.toNat + 8 * x.pasid.toNat) with
    | none => .poison (q.ptab.toNat + 8 * x.pasid.toNat)
    | some e =>
      if !(e.getLsbD 0) || e.extractLsb' 1 14 != 0 then .fault Cause.pageNotPresent
      else s.walk1 x va walkShifts (pteAddr e)

/-- The frames that CT = 1 of a level-3 leaf declares may be held as one entry (R353): the leaf is the last stage, and
the 32 frames it implies exist and lie in one row of the map, as its own does. -/
def wideOk (x : TransCtx) (va : Nat) (t : Trans) : Bool :=
  let first := t.pa / 0x8000 - va / 0x8000 % 32
  pteCt t.leaf && t.sh == 15 && !t.staged && decide (va / 0x8000 % 32 ≤ t.pa / 0x8000) &&
    mapOk x.part (pteSup t.leaf) (pteTier t.leaf) (0x8000 * first) (32 * 0x8000)

/-- The TLB entry a walk may leave (R353, R358): one page, or the aligned 1 MiB that CT = 1 declares. -/
def tlbOf (x : TransCtx) (va : Nat) (t : Trans) (wide : Bool) : TlbEntry :=
  let n := if wide && wideOk x va t then 32 else 1
  let vpn := va / 0x8000 / n * n
  { part := x.part, pasid := x.pasid, vpn := vpn, pages := n, frame := t.pa / 0x8000 - (va / 0x8000 - vpn),
    ipn := t.ipa / 0x8000, r := pteR t.leaf && pteR t.last, w := pteW t.leaf && pteW t.last,
    x := pteX t.leaf && pteX t.last, sup := pteSup t.leaf }

/-- An entry serves an access: its tags and page match and it permits the access. -/
def TlbEntry.serves (e : TlbEntry) (x : TransCtx) (va : Nat) : Bool :=
  e.part == x.part && e.pasid == x.pasid && decide (e.vpn ≤ va / 0x8000) &&
    decide (va / 0x8000 < e.vpn + e.pages) && (!e.sup || x.sup) &&
    (match x.kind with
    | .read => e.r
    | .write => e.w
    | .fetch => e.x)

/-- The physical address an entry gives. -/
def TlbEntry.pa (e : TlbEntry) (va : Nat) : Nat := (e.frame + (va / 0x8000 - e.vpn)) * 0x8000 + va % 0x8000

/-- Insert into a TLB of a given size: the oldest entry leaves a full one (assumption log 9). -/
def tlbInsert (size : Nat) (l : List TlbEntry) (e : TlbEntry) : List TlbEntry :=
  (e :: l.filter (fun q => q != e)).take size

/-- Entries of a second-level TLB and of a core's TLB. -/
def l2Size : Nat := 16384
def tlbSize : Nat := 512

/-- The second-level TLB of a core's die. -/
def State.l2Of (s : State) (c : CoreId) : List TlbEntry := if dieOf c == 0 then s.l2[0] else s.l2[1]

/-- A walk's entry enters both TLBs. -/
def State.fillTlb (s : State) (c : CoreId) (e : TlbEntry) : State :=
  let s := s.modCore c fun k => { k with tlb := tlbInsert tlbSize k.tlb e }
  if dieOf c == 0 then { s with l2 := s.l2.set 0 (tlbInsert l2Size s.l2[0] e) }
  else { s with l2 := s.l2.set 1 (tlbInsert l2Size s.l2[1] e) }

/-- The lookup of a core's TLB. -/
def Core.tlbFind (k : Core) (x : TransCtx) (va : Nat) : Option Nat :=
  (k.tlb.find? fun e => e.serves x va).map fun e => e.pa va

/-- A page of virtual addresses that a MIGRATE moves, whose new translations are blocked (R365). -/
def State.blockedPage (s : State) (p : PartId) (pasid : BitVec 20) (va : Nat) : Bool :=
  s.ports.toList.any fun q => q.moves p false va && (q.cur.map fun m => m.pasid) == some pasid

/-- The outcome of a translation through the TLB. -/
inductive TransRes where
  | ok (pa : Nat)
  | miss
  | fault (cause : BitVec 7)
  | poison (pa : Nat)
deriving DecidableEq, Repr

/-- Translate for a stream: a miss starts a walk (R192). -/
def State.translate (s : State) (c : CoreId) (x : TransCtx) (va : Nat) : TransRes :=
  match (s.core c).tlbFind x va with
  | some pa => .ok pa
  | none => .miss

/-- Translate for an engine or a fetch: a miss is walked at once. -/
def State.translateNow (s : State) (c : CoreId) (x : TransCtx) (va : Nat) : TransRes :=
  match (s.core c).tlbFind x va with
  | some pa => .ok pa
  | none =>
    if s.blockedPage x.part x.pasid va then .miss
    else match s.walk x va with
      | .ok t => .ok t.pa
      | .fault c => .fault c
      | .poison pa => .poison pa
      | .blocked => .miss

/-! ## Apertures (R55 to R57) -/

/-- The lowest-numbered aperture that governs a byte (R55). -/
def State.apertureAt (s : State) (p : PartId) (va : Nat) : Option Aperture :=
  ((s.part p).apert.toList.find? fun a =>
    match a with
    | some a => decide (a.vbase ≤ va) && decide (va < a.vbase + a.vsize)
    | none => false).getD none

/-- Blocks of planed storage that a run of n virtual bytes at offset x of a PLANES(m) aperture reads. -/
def planeBlocks (m x n : Nat) : List Nat :=
  let b0 := x / m / 128
  let b1 := (x + n - 1) / m / 128
  (List.range (b1 - b0 + 1)).map (b0 + ·)

/-- The outcome of the checks of one unit (Table 9.2). -/
inductive UnitRes where
  | ok (l : Loc)
  | miss (va : VAddr)
  | pri (page : BitVec 36)
  | fault (cause : BitVec 7) (ea : VAddr)
  | poison (ea : VAddr) (pa : Nat)
deriving DecidableEq, Repr

/-- What a unit access needs: core, translation context, size, alignment, planed or not, an engine or a stream,
and whether it is an aligned LDS.u64 or STS.u64 (R361). -/
structure UnitAcc where
  c : CoreId
  x : TransCtx
  size : Nat
  align : Nat
  planed : Bool
  engine : Bool
  u64 : Bool
deriving DecidableEq, Repr

/-- The page of host memory a physical address lies in, where the host has not answered for it, or its refusal (R369):
none where the access may go on. -/
def State.hostBar (s : State) (x : TransCtx) (va : VAddr) (pa : Nat) : Option UnitRes :=
  let page := BitVec.ofNat 36 (pa / 0x8000)
  if inHost pa then
    match s.ats.find? fun e => e.part == x.part && e.pasid == x.pasid && e.page == page with
    | some e => if e.ok then none else some (.fault Cause.pageNotPresent va)
    | none => some (.pri page)
  else none

/-- A byte of an aperture's buffer as a physical address, or what stops the access (R55, R363, R365, R369). A PBASE that
is no IPA and leads to a port or to no row of Table 21.1 raises APERTURE_VIOLATION, for which the spec names no cause
(assumption log 31). -/
def State.aperturePa (s : State) (x : TransCtx) (va : VAddr) (pa : Nat) : Except UnitRes Nat :=
  match s.stage2 x.part x.kind false pa with
  | .ok t =>
    if inDram t.pa || inHost t.pa then
      match s.hostBar x va t.pa with
      | some r => .error r
      | none => .ok t.pa
    else .error (.fault Cause.apertureViolation va)
  | .fault c => .error (.fault c va)
  | .poison pa => .error (.poison va pa)
  | .blocked => .error (.miss va)

/-- The physical addresses of some blocks of planed storage, or the first that stops the access. -/
def State.apertureBlocks (s : State) (x : TransCtx) (va : VAddr) (base : Nat) : List Nat → Except UnitRes (List (Nat × Nat))
  | [] => .ok []
  | b :: rest =>
    match s.aperturePa x va (base + 512 * b) with
    | .error r => .error r
    | .ok pa =>
      match s.apertureBlocks x va base rest with
      | .error r => .error r
      | .ok l => .ok ((b, pa) :: l)

/-- Step 3 of Table 9.2 for a unit inside an aperture (R55 to R57, R363). -/
def State.apertureUnit (s : State) (a : UnitAcc) (q : Aperture) (va : VAddr) : UnitRes :=
  let x := va.toNat - q.vbase
  let planes := fun (n : Nat) (rn1 : Bool) =>
    if a.x.kind == .write || a.planed then UnitRes.fault Cause.apertureViolation va
    else match s.apertureBlocks a.x va q.pbase (planeBlocks n x a.size) with
      | .error r => r
      | .ok blocks => .ok (.planes x n rn1 blocks)
  match q.xf with
  | .identity =>
    match s.aperturePa a.x va (q.pbase + x) with
    | .error r => r
    | .ok pa => .ok (.phys pa)
  | .zero => .ok .zero
  | .trunc n => planes n false
  | .rn1 n => planes n true

/-- Access to a port register (R361, Table 21.4): only aligned LDS.u64 of PSTAT and STS.u64 of CMD0 to DOOR. That an LDS.u64 of
another offset and an STS.u64 of PSTAT or past it raise PERMISSION too is the model's choice (assumption log 31). -/
def portAccess (a : UnitAcc) (off : Nat) : Bool :=
  a.u64 && (match a.x.kind with
    | .read => off == 0x48
    | .write => decide (off ≤ 0x40) && off % 8 == 0
    | .fetch => false)

/-- A physical address to a place, with the rules of ports and host memory (R361, R369). -/
def State.physUnit (s : State) (a : UnitAcc) (va : VAddr) (pa : Nat) : UnitRes :=
  if inPorts pa then
    if portAccess a (pa % 0x8000) then .ok (.port ((pa - 0x4000000000000) / 0x8000) (pa % 0x8000))
    else .fault Cause.permission va
  else (s.hostBar a.x va pa).getD (.ok (.phys pa))

/-- The checks of one unit in the order of Table 9.2 (R192). -/
def State.checkUnit (s : State) (a : UnitAcc) (va : VAddr) : UnitRes :=
  let v := va.toNat
  if v % a.align != 0 then .fault Cause.misaligned va
  else if windowBase ≤ v then
    let off := v - windowBase
    if off + a.size ≤ cisternSize then .ok (.cistern off)
    else .fault Cause.localRange (BitVec.ofNat 51 (windowBase + max off cisternSize))
  else
    let g0 := s.apertureAt a.x.part v
    if g0 != s.apertureAt a.x.part (v + a.size - 1) then .fault Cause.apertureViolation va
    else match g0 with
      | some q => s.apertureUnit a q va
      | none =>
        match if a.engine then s.translateNow a.c a.x v else s.translate a.c a.x v with
        | .ok pa => s.physUnit a va pa
        | .miss => .miss va
        | .fault cause => .fault cause va
        | .poison pa => .poison va pa

/-- The checks of all units in ascending order (R192): the first failure, the first page that must be walked or
asked for, or every unit with its place. -/
def State.checkUnits (s : State) (a : UnitAcc) : List VAddr → Except UnitRes (List MemUnit)
  | [] => .ok []
  | va :: rest =>
    match s.checkUnit a va with
    | .ok l =>
      match s.checkUnits a rest with
      | .ok us => .ok (⟨va, l⟩ :: us)
      | .error e => .error e
    | e => .error e

/-! ## Planes (R71, R72) -/

/-- Byte k of significance of element i of a planed block: plane k at 128k + i (R71). -/
def planeByte (blk : List Byte) (k i : Nat) : Nat := (blk.getD (128 * k + i) 0).toNat

/-- The value of element i of a planed block read on n planes by TRUNC: planes 0 to n - 1, plane 0 highest
(R72). -/
def truncVal (blk : List Byte) (n i : Nat) : Nat :=
  (List.range n).foldl (fun v k => 256 * v + planeByte blk k i) 0

/-- The RN1 rule of R72 on a value of n planes and the next plane's byte. -/
def rn1Round (n v g : Nat) : Nat :=
  let w := 8 * n - 6
  if v / 2 ^ w % 32 == 31 then v
  else if g < 0x80 then v
  else
    let mag := v % 2 ^ (8 * n - 1) + 1
    let mag := if mag / 2 ^ w % 32 == 31 then 31 * 2 ^ w - 1 else mag
    v / 2 ^ (8 * n - 1) * 2 ^ (8 * n - 1) + mag

/-- The value of element i of a planed block on n planes, TRUNC or RN1 (R72). -/
def planeVal (blk : List Byte) (n : Nat) (rn1 : Bool) (i : Nat) : Nat :=
  if rn1 then rn1Round n (truncVal blk n i) (planeByte blk n i) else truncVal blk n i

/-- The planes a read of n planes touches: RN1 also reads plane n (R72). -/
def planesRead (n : Nat) (rn1 : Bool) : List Nat := List.range (if rn1 then n + 1 else n)

/-! ## Reading and writing a unit -/

/-- Bytes and poison that a place returns for an access of n bytes. A port register reads zero here: PSTAT is read
by its own operation (Table 21.4). -/
def State.readLoc (s : State) (c : CoreId) (p : PartId) (l : Loc) (n : Nat) : List Byte × Bool :=
  match l with
  | .cistern off => ((s.core c).cistern.bytes.readRange off n, (s.core c).cistern.badRange off n)
  | .phys pa => (s.readPhys p pa n, s.physBad pa n)
  | .zero => (List.replicate n 0, false)
  | .port _ _ => (List.replicate n 0, false)
  | .planes x w rn1 blocks =>
    let data := blocks.map fun b => (b.1, b.2, s.readPhys p b.2 512)
    let one := fun (i : Nat) =>
      let j := (x + i) / w
      match data.find? fun b => b.1 == j / 128 with
      | none => ((0 : Byte), false)
      | some (_, pa, blk) =>
        (BitVec.ofNat 8 (planeVal blk w rn1 (j % 128) / 256 ^ ((x + i) % w)),
          (planesRead w rn1).any fun k => s.physBad (pa + 128 * k + j % 128) 1)
    let r := (List.range n).map one
    (r.map (·.1), r.any (·.2))

/-- Store bytes at a place: what lies in a ZERO aperture is discarded (R56). A port register is written by its own
operation. -/
def State.writeLoc (s : State) (c : CoreId) (p : PartId) (l : Loc) (bs : List Byte) (poison : Bool) : State :=
  match l with
  | .cistern off => s.modCore c fun k => { k with cistern := k.cistern.store off bs poison }
  | .phys pa => s.writePhys p pa bs poison
  | _ => s

/-- A place as ADDR of an error record names it (Table 26.4): its physical address; a byte of the cistern, which has none,
by its address in the local window. -/
def Loc.addr (l : Loc) : Nat :=
  match l with
  | .cistern off => windowBase + off
  | .phys pa => pa
  | .planes _ _ _ blocks => match blocks with
    | b :: _ => b.2
    | [] => 0
  | .zero => 0
  | .port _ _ => 0

/-- An uncorrectable error that a read of a place meets, for an instruction of the core's task: its granule becomes poisoned, with
a record (R401, R408). -/
def State.locError (s : State) (c : CoreId) (pc : VAddr) (l : Loc) : State :=
  match l with
  | .cistern off => (s.modCore c fun k => k.spoilCistern (off / 64)).coreRecord 6 c 0 pc 0
  | .phys pa => s.granulePoisoned (s.meets c pc) pa 0
  | .planes x w _ blocks => match blocks with
    | b :: _ => s.granulePoisoned (s.meets c pc) (b.2 + x / w % 128) 0
    | [] => s
  | .zero => s
  | .port _ _ => s

/-- The place k bytes further on. -/
def Loc.plus (l : Loc) (k : Nat) : Loc :=
  match l with
  | .cistern off => .cistern (off + k)
  | .phys pa => .phys (pa + k)
  | .planes x n r b => .planes (x + k) n r b
  | .zero => .zero
  | .port i off => .port i (off + k)

/-- The first poisoned byte of n bytes at a place, as ADDR of an error record names it (R408). -/
def State.badAddr (s : State) (c : CoreId) (l : Loc) (n : Nat) : Nat :=
  match (List.range n).find? fun i => (s.readLoc c 0 (l.plus i) 1).2 with
  | some i => (l.plus i).addr
  | none => l.addr

/-- The place is memory or the cistern, which a read can find an error in. -/
def Loc.isMemory : Loc → Bool
  | .cistern _ => true
  | .phys _ => true
  | .planes _ _ _ _ => true
  | .zero => false
  | .port _ _ => false

/-- The place is host memory (Table 21.1). -/
def Loc.isHost : Loc → Bool
  | .phys pa => inHost pa
  | .planes _ _ _ (b :: _) => inHost b.2
  | _ => false

/-- Runs of bytes that an access of n bytes covers: the space, the start and the length. A block of planed storage is
covered wholly, and so are the registers of a port, whose DOOR changes what PSTAT reads (R361). -/
def Loc.spans (l : Loc) (n : Nat) : List (Nat × Nat × Nat) :=
  match l with
  | .cistern off => [(0, off, n)]
  | .phys pa => [(1, pa, n)]
  | .planes _ _ _ blocks => blocks.map fun b => (1, b.2, 512)
  | .port i _ => [(2, i, 1)]
  | .zero => []

/-- Two accesses touch a common byte (R212). -/
def Loc.overlaps (l : Loc) (n : Nat) (l' : Loc) (n' : Nat) : Bool :=
  (l.spans n).any fun a => (l'.spans n').any fun b =>
    a.1 == b.1 && decide (a.2.1 < b.2.1 + b.2.2) && decide (b.2.1 < a.2.1 + a.2.2)

/-! ## Bytes of tiles -/

/-- Bytes as one number, row by row of 128 (R3, R59). -/
def rowsNat : List (List Byte) → Nat
  | [] => 0
  | r :: rest => leNat (r.take 128) + 2 ^ 1024 * rowsNat rest

/-- A tile from its 32 rows. -/
def tileOfRows (rows : List (List Byte)) : BitVec 32768 := BitVec.ofNat 32768 (rowsNat rows)

/-- n bytes of a tile from byte a on. -/
def tileBytes (t : BitVec 32768) (a n : Nat) : List Byte := leBytes n (t.toNat / 256 ^ a)

/-- Row r of a tile as 128 bytes. -/
def tileRow (t : BitVec 32768) (r : Nat) : List Byte := tileBytes t (128 * r) 128

/-- A number built from 2^d fields of w bits: field i is f (lo + i), lowest first. -/
def packFields (w : Nat) (f : Nat → Nat) : Nat → Nat → Nat
  | 0, lo => f lo % 2 ^ w
  | d + 1, lo => packFields w f d lo + packFields w f d (lo + 2 ^ d) * 2 ^ (w * 2 ^ d)

/-- Field i of w bits of a number. -/
def fieldOf (w v i : Nat) : Nat := v / 2 ^ (w * i) % 2 ^ w

/-- The bits [sh + n - 1 : sh] of a mask of 1024-bit rows: all ones in every row whose bit is set. -/
def rowMaskBits (m : BitVec 32) : BitVec 32768 :=
  BitVec.ofNat 32768 (packFields 1024 (fun r => if m.getLsbD r then 2 ^ 1024 - 1 else 0) 5 0)

/-- The partition whose context a core uses: that of its task, partition 0 without one. -/
def Core.partId (k : Core) : PartId :=
  match k.task with
  | some t => t.part
  | none => 0

/-- The PASID a core's accesses translate under (R354). -/
def Core.pasid (k : Core) : BitVec 20 :=
  match k.task with
  | some t => t.pasid
  | none => 0

/-- The translation context of a stream's access: only CTRL at handler level 2 may use a SUP page (R356). -/
def Core.ctx (k : Core) (x : StreamId) (kind : AccKind) : TransCtx :=
  { part := k.partId, pasid := k.pasid, sup := x == .ctrl && k.hl == 2, kind := kind }

/-! ## Requests as the monitoring banks see them (R398, R414, R416) -/

/-- The granules an access injects toward memory (R398), by their numbers: none for the cistern, a ZERO aperture or a port. -/
def Loc.granuleList (l : Loc) (n : Nat) : List Nat :=
  match l with
  | .phys pa => PoisonMem.granules pa n
  | .planes _ w rn1 blocks => blocks.flatMap fun b => (planesRead w rn1).flatMap fun k =>
      [(b.2 + 128 * k) / 64, (b.2 + 128 * k) / 64 + 1]
  | _ => []

/-- A physical address that an access reads or writes first, where it goes to memory. -/
def Loc.memory? (l : Loc) : Option Nat :=
  match l with
  | .phys pa => some pa
  | .planes _ _ _ blocks => blocks.head?.map (·.2)
  | _ => none

/-- The part of a sample record that the request itself gives (Table 27.2). -/
def State.sampleHead (s : State) (c : CoreId) (pc : VAddr) (u : MemUnit) (write pump : Bool) : BitVec 256 :=
  let host := (u.loc.memory?.map inHost).getD false
  let tier := (u.loc.memory?.map inLpddr).getD false
  let word : Word := (0 : BitVec 7) ++ bit1 host ++ (0 : BitVec 2) ++ bit1 tier ++ bit1 write ++ bit1 pump ++ pc
  let id : Word := match (s.core c).task with
    | some t => taskidOf t.key
    | none => 0
  u.va.zeroExtend 64 ++ id ++ word ++ BitVec.ofNat 64 (s.view c)

/-- Request j of a core port is sampled when j mod N is N − 1 (R414). -/
def MBank.request (b : MBank) (c : CoreId) (o : ReqOwner) (head : BitVec 256) : MBank :=
  let j := (b.samples.get? c.val).getD 0
  let n := b.srate.toNat
  { b with samples := b.samples.set c.val (j + 1),
           pend := if n != 0 && j % n == n - 1 then b.pend ++ [⟨o, head, none⟩] else b.pend }

/-- One request of a core port (R414): a row, a block, an element, a scalar access, a read of a walk or a PREM unit, with the
granules it injects toward memory (R398), each with its number where it has one; or, with miss, a lookup that its page is
missing from the TLB for, which is no request (Table 27.3). -/
structure Req where
  u : MemUnit
  granules : List (Option Nat)
  write : Bool
  pump : Bool
  miss : Bool
deriving DecidableEq, Repr

/-- The request of a unit that touches some parts of it: offset and length. -/
def unitReq (write pump : Bool) (u : MemUnit) (parts : List (Nat × Nat)) : Req :=
  ⟨u, parts.flatMap fun p => ((u.loc.plus p.1).granuleList p.2).map some, write, pump, false⟩

/-- One request of a core port: samples, granules, and misses of the memory-side cache, of which there are as many as
the granules allow (Table 27.3, assumption log 22). -/
def State.request (s : State) (c : CoreId) (pc : VAddr) (o : ReqOwner) (r : Req) : State :=
  let g := r.granules.length
  let s := (s.sketch 5 c pc g).sketch 7 c pc ((Config.freeWord s.fresh).toNat % (g + 1))
  { s with banks := s.banks.mapIdx fun i (b : MBank) =>
      if b.mode == 2 && s.bankCovers (BitVec.ofNat 7 i) c then b.request c o (s.sampleHead c pc r.u r.write r.pump)
      else b }.useFresh

/-- Requests of a core port, in order: those that go to memory (R398, R414), and lookups that miss (Table 27.3); nothing where no
bank is on. -/
def State.requests (s : State) (c : CoreId) (pc : VAddr) (o : ReqOwner) (rs : List Req) : State :=
  if s.banks.toList.all fun b => b.mode == 0 then s
  else rs.foldl (fun s r => if r.miss then s.sketch 6 c pc 1 else if r.granules.isEmpty then s else s.request c pc o r) s

/-! ## The reads of a walk (R351, R355, R414) -/

/-- The table entries a stage-2 walk reads. -/
def State.trace2 (s : State) (p : PartId) (ipa : Nat) : List Nat → Nat → List Nat
  | [], _ => []
  | sh :: rest, table =>
    let at_ := table + 8 * (ipa / 2 ^ sh % 4096)
    at_ :: (match s.pte p at_ with
      | some e => if pteForm sh e && !pteL e then s.trace2 p ipa rest (pteAddr e) else []
      | none => [])

/-- The same for an IPA, where stage 2 is on. -/
def State.stage2Trace (s : State) (p : PartId) (ipa : Nat) : List Nat :=
  if (s.part p).s2en && decide (ipa < 2 ^ 51) then s.trace2 p ipa walkShifts ((s.part p).s2root.toNat / 0x8000 * 0x8000)
  else []

/-- The table entries a stage-1 walk reads, those of stage 2 among them. -/
def State.trace1 (s : State) (x : TransCtx) (va : Nat) : List Nat → Nat → List Nat
  | [], _ => []
  | sh :: rest, table =>
    let at_ := table + 8 * (va / 2 ^ sh % 4096)
    s.stage2Trace x.part at_ ++ (match s.stage2 x.part .read false at_ with
      | .ok t => t.pa :: (match s.pte x.part t.pa with
        | some e => if !pteForm sh e then [] else if pteL e then s.stage2Trace x.part (pteAddr e + va % 2 ^ sh)
                    else s.trace1 x va rest (pteAddr e)
        | none => [])
      | _ => [])

/-- Every entry the walk of an address reads. -/
def State.walkTrace (s : State) (x : TransCtx) (va : Nat) : List Nat :=
  let q := s.part x.part
  if q.ptlen.toNat ≤ x.pasid.toNat then []
  else
    let at_ := q.ptab.toNat + 8 * x.pasid.toNat
    at_ :: (match s.pte x.part at_ with
      | some e => if !(e.getLsbD 0) || e.extractLsb' 1 14 != 0 then [] else s.trace1 x va walkShifts (pteAddr e)
      | none => [])

/-- The requests of a walk: one for each read (R414). -/
def State.walkReqs (s : State) (x : TransCtx) (va : VAddr) (pump : Bool) : List Req :=
  (s.walkTrace x va.toNat).map fun pa => unitReq false pump ⟨va, .phys pa⟩ [(0, 8)]

/-- An access that an engine sets out to make: its kind, its address, the parts of it that it touches, and its place, where its
check lets it be made. -/
structure Attempt where
  kind : AccKind
  va : VAddr
  parts : List (Nat × Nat)
  made : Option Loc
deriving DecidableEq, Repr

/-- The context an engine's accesses translate under: they use no SUP page (R356). -/
def State.engineCtx (s : State) (c : CoreId) (kind : AccKind) : TransCtx := { (s.core c).ctx .ctrl kind with sup := false }

/-- An engine's access looks its page up in the core's TLB (R10), unless it lies in the local window or under an aperture. -/
def State.looksUp (s : State) (x : TransCtx) (va : VAddr) : Bool :=
  decide (va.toNat < windowBase) && (s.apertureAt x.part va.toNat).isNone

/-- The entry that an engine's lookup brings into the TLBs: none where it hits, or where the walk fails. -/
def State.engineEntry (s : State) (c : CoreId) (x : TransCtx) (va : VAddr) : Option TlbEntry :=
  if !s.looksUp x va || ((s.core c).tlbFind x va.toNat).isSome then none
  else match s.walk x va.toNat with
    | .ok t => some (tlbOf x va.toNat t false)
    | _ => none

/-- The requests of an engine's accesses, in order (R10, R414, Table 27.3): an access whose page the core's TLB does not hold misses
and walks the tables, whether or not the walk succeeds, and leaves its entry in the TLBs. -/
def State.engineReqs (s : State) (c : CoreId) (pump : Bool) : List Attempt → List Req
  | [] => []
  | a :: rest =>
    let x := s.engineCtx c a.kind
    let walks := if s.looksUp x a.va && ((s.core c).tlbFind x a.va.toNat).isNone then
        ⟨⟨a.va, .zero⟩, [], false, pump, true⟩ :: s.walkReqs x a.va pump
      else []
    let made := match a.made with
      | some l => [unitReq (a.kind == .write) pump ⟨a.va, l⟩ a.parts]
      | none => []
    let s' := match s.engineEntry c x a.va with
      | some e => s.fillTlb c e
      | none => s
    walks ++ made ++ s'.engineReqs c pump rest

/-- The entries that an engine's accesses leave in the TLBs. -/
def State.engineFill (s : State) (c : CoreId) (as : List Attempt) : State :=
  as.foldl (fun s a => match s.engineEntry c (s.engineCtx c a.kind) a.va with
    | some e => s.fillTlb c e
    | none => s) s

/-- The parts of a unit that a load reads (R193, R196): a row, or the planes of a block. -/
def loadParts (planed : Option (Nat × Bool)) : List (Nat × Nat) :=
  match planed with
  | none => [(0, 128)]
  | some (n, rn1) => (planesRead n rn1).map fun k => (128 * k, 128)

/-- The request of a unit of a load. -/
def loadReq (planed : Option (Nat × Bool)) (u : MemUnit) : Req := unitReq false false u (loadParts planed)

/-- The pieces of memory that some parts of a unit are. -/
def MemUnit.pieces (u : MemUnit) (parts : List (Nat × Nat)) : List (Loc × Nat) := parts.map fun p => (u.loc.plus p.1, p.2)

/-- The memory that a load reads. -/
def LoadRec.pieces (r : LoadRec) : List (Loc × Nat) := r.units.flatMap fun u => u.pieces (loadParts r.planed)

end Sys2Proof.Machine
end

