-- ==== Sys2Proof/Machine/Fetch.lean ====
section
/-! DEFINITION. Fetching the bytes of an instruction (spec/04 R95 to R100, spec/12 R276, spec/21 R357). -/

namespace Sys2Proof.Machine

/-! ## Fetch (R98) -/

/-- One byte of an instruction: fetched, poisoned with the physical address (a cistern byte's own address), failed with the
cause behind it, or not answered yet. -/
inductive ByteRes where
  | ok (b : Byte)
  | poison (pa : Nat)
  | fault (cause : BitVec 7)
  | wait
deriving DecidableEq, Repr

/-- The intermediate address an instruction's address leads to, where it leads to one. -/
def State.codeIpa (s : State) (p : PartId) (pasid : BitVec 20) (va : Nat) : Option Nat :=
  match s.walk ⟨p, pasid, true, .fetch⟩ va with
  | .ok t => some t.ipa
  | _ => none

/-- An invalidation that a view records covers the instruction at an address (R276, Table 21.5). -/
def State.viewCovers (s : State) (p : PartId) (pasid : BitVec 20) (va : Nat) (w : CodeView) : Bool :=
  let within := fun (a : Nat) => decide (w.lo ≤ a) && decide (a < w.hi)
  w.part == p && (w.pasid == none || w.pasid == some pasid) &&
    (if w.ipa then match s.codeIpa p pasid va with
      | some a => within a
      | none => false
    else within va)

/-- Memory as fetch sees it for the instruction at an address (R100, R276): as it stood when the last invalidation that covers
that address completed, or when the first task of the partition started after; one memory for every byte of the instruction,
so that none is a mixture. As it stands where neither has been, for a core that no task's start has reached (assumption log
10). -/
def State.codeMem (s : State) (p : PartId) (pasid : BitVec 20) (va : Nat) : GlobalMem :=
  match s.codeViews.find? (s.viewCovers p pasid va) with
  | some w => w.mem
  | none => s.gmem

/-- An invalidation of a run of addresses completes: fetch sees what memory holds now (R276). -/
def State.viewCode (s : State) (p : PartId) (pasid : Option (BitVec 20)) (ipa : Bool) (lo hi : Nat) : State :=
  let whole := !ipa && lo == 0 && hi == 2 ^ 51
  let kept := s.codeViews.filter fun w => !(w.part == p && (pasid == none || w.pasid == pasid) &&
    (whole || (w.ipa == ipa && decide (lo ≤ w.lo) && decide (w.hi ≤ hi))))
  { s with codeViews := ⟨p, pasid, ipa, lo, hi, s.gmem⟩ :: kept }

/-- The cistern as fetch sees it, from now on until the next such order (R276, assumption log 10). -/
def Core.viewCistern (k : Core) : Core := { k with codeView := some k.cistern }

/-- Fetch one byte, memory and its poison seen as fetch sees them (R98, R276, R403): the local window is never translated (R41),
and fetch uses no aperture (R55). -/
def State.fetchByte (s : State) (c : CoreId) (x : StreamId) (code : GlobalMem) (va : VAddr) : ByteRes :=
  let k := s.core c
  let v := va.toNat
  if windowBase ≤ v then
    let off := v - windowBase
    let seen := k.codeView.getD k.cistern
    if off < cisternSize then (if seen.bad (off / 64) then .poison v else .ok (seen.bytes.read off))
    else .fault Cause.localRange
  else match s.translateNow c (k.ctx x .fetch) v with
    | .miss => .wait
    | .fault cause => .fault cause
    | .poison pa => .poison pa
    | .ok pa =>
      if inPorts pa then .fault Cause.permission
      else if inHost pa && !(s.ats.any fun e => e.part == k.partId && e.pasid == k.pasid &&
          e.page == BitVec.ofNat 36 (pa / 0x8000) && e.ok) then
        if s.ats.any fun e => e.part == k.partId && e.pasid == k.pasid && e.page == BitVec.ofNat 36 (pa / 0x8000)
        then .fault Cause.pageNotPresent
        else .wait
      else if { s with gmem := code }.physBad pa 1 then .poison pa
      else .ok ({ s with gmem := code }.readByte k.partId pa)

/-- What a fetch comes to: a word with its length in memory, or the first byte that fails; a poisoned byte with the length
where the header could be read. -/
inductive FetchRes where
  | ok (f : Fetched)
  | badPrefix (h : BitVec 16) (len : Nat)
  | poison (off pa len : Nat)
  | fault (off : Nat) (cause : BitVec 7)
  | wait
deriving DecidableEq, Repr

/-- Bytes off to off + n − 1 of an instruction at pc, the first failure in order of address. -/
def State.fetchRun (s : State) (c : CoreId) (x : StreamId) (code : GlobalMem) (pc : VAddr) :
    Nat → Nat → Except FetchRes (List Byte)
  | _, 0 => .ok []
  | off, n + 1 =>
    match s.fetchByte c x code (pc + BitVec.ofNat 51 off) with
    | .ok b =>
      match s.fetchRun c x code pc (off + 1) n with
      | .ok bs => .ok (b :: bs)
      | .error e => .error e
    | .poison pa => .error (.poison off pa 0)
    | .fault cause => .error (.fault off cause)
    | .wait => .error .wait

/-- Fetch the instruction at an address: header first, then the present bytes and any pad byte (R98); step 1 of Table
4.10, which every byte passes before the prefix and the pad byte are checked, step 2. -/
def State.fetchAt (s : State) (c : CoreId) (x : StreamId) (pc : VAddr) : FetchRes :=
  let code := s.codeMem (s.core c).partId (s.core c).pasid pc.toNat
  match s.fetchRun c x code pc 0 2 with
  | .error e => e
  | .ok hb =>
    let h := headerOf hb
    match s.fetchRun c x code pc 2 (roundedLen h - 2) with
    | .error (.poison off pa _) => .poison off pa (roundedLen h)
    | .error e => e
    | .ok body => if prefixOk h && padOk h body then .ok ⟨pc, unpack h body, roundedLen h⟩ else .badPrefix h (roundedLen h)

/-- The instruction cache line of an address (R100): one that was fetched where SUP pages may be used serves only there
(R356). -/
def Core.cached (k : Core) (x : StreamId) (pc : VAddr) : Option Fetched :=
  (k.icache.find? fun l => l.part == k.partId && l.pasid == k.pasid && l.f.pc == pc &&
    (!l.sup || (k.ctx x .fetch).sup)).map (·.f)

end Sys2Proof.Machine
end

