-- ==== Sys2Proof/Machine/Ops.lean ====
section
/-! DEFINITION. Taking an exception, escalating one, and returning from a handler (spec/20 R332 to R339). -/

namespace Sys2Proof.Machine

/-! ## Taking an exception (R332 to R339) -/

/-- CAUSE bits [9:0] of a trap (R332): a trap that stops no stream reports CTRL with AS set. -/
def TrapRec.cause (t : TrapRec) : BitVec 10 :=
  bit1 t.async ++ t.base ++ (if t.async then (3 : BitVec 2) else match t.x with
    | .load => 0
    | .exec => 1
    | .store => 2
    | .ctrl => 3)

/-- Never delivered in the partition (R336, R357). -/
def TrapRec.stage2 (t : TrapRec) : Bool :=
  t.base == Cause.stage2Fault || (t.base == Cause.fetchFault && t.eaddr.extractLsb' 56 7 == 0x22)

/-- UDELEG0 and UDELEG1 delegate base cause b (R335). -/
def Core.delegated (k : Core) (b : BitVec 7) : Bool :=
  if b.toNat < 64 then k.udeleg0.getLsbD b.toNat else k.udeleg1.getLsbD (b.toNat - 64)

/-- CTRL has an LDS, STS or semaphore operation in progress, which completes before a diversion (R337). One whose page walk, or
whose page of host memory, has not come counts as held at issue, which the rule does not settle (assumption log 29). -/
def Core.ctrlBusy (k : Core) : Bool :=
  match k.ctrl.pend with
  | .lds _ => true
  | .sem _ => true
  | _ => false

/-- What a trap's delivery comes to (R336). -/
inductive Delivery where
  | hold
  | escalate
  | level (l : Nat)
deriving DecidableEq, Repr

/-- The decision of R336; a trap that would divert CTRL inside an instruction, or stop it there, is held for the
boundary (R337). -/
def Core.deliveryOf (k : Core) (t : TrapRec) : Delivery :=
  let own := t.x == .ctrl && !t.async
  if t.stage2 then .escalate
  else if k.ctrlEsc then .hold
  else if k.hl != 0 && !own then .hold
  else if own && k.hl == 2 then .escalate
  else
    let l := if own && k.hl == 1 then 2 else if k.delegated t.base && k.uhvec != 0 then 1 else 2
    if k.ctrlBusy && (t.async || (t.x != .ctrl && (l == 1 || k.shvec != 0))) then .hold
    else if l == 2 && k.shvec == 0 then .escalate
    else .level l

/-- The trap CSRs a handler of a trap reads (R334, R336), with the address at which CTRL is diverted. -/
def TrapRec.set (t : TrapRec) (divert : VAddr) : TrapSet :=
  { cause := t.cause, epc := t.epc, eaddr := t.eaddr, eword0 := t.eword0,
    eword1 := t.eword1, retpc := if t.x == .ctrl && !t.async then t.epc else divert, len := t.len }

/-- Undo the debits of an instruction of which nothing is performed: a register keeps the read it is still owed while
its count has not moved on (R35, R146, R337, assumption log 12). -/
def Core.recredit (k : Core) (debits : List (CReg × BitVec 16)) : Core :=
  debits.foldl (fun k d =>
    let n := k.cnt d.1
    if n.c == d.2 && !n.opn then k.setCnt d.1 { n with p := n.p + 1 } else k) k

/-- The reservation of a register released (R31). -/
def Core.releaseReg (k : Core) (x : CReg) : Core := k.setCnt x (k.cnt x).release

/-- The nest staging set names its accumulator in bits [20:18] of CFG (R182). -/
def NestSet.acc (n : NestSet) : AReg := n.cfg.extractLsb' 18 3

/-- Abandon what a stream waits for, with nothing performed (R337): debits are undone, and what an entry held before
the array queue had reserved is released. A page walk in progress is abandoned with its instruction and made again after ERET
(assumption log 29). -/
def Core.abandonWait (k : Core) (x : StreamId) : Core :=
  let k' := match (k.stream x).pend with
    | .dst _ _ debits _ => k.recredit debits
    | .array (.nest n) _ => (k.releaseReg (.sig n.g)).releaseReg (.acc n.set.acc)
    | .array (.mma m) debits => (k.recredit debits).releaseReg (.acc m.d)
    | .array (.wlatch w) debits => (k.recredit debits).releaseReg (.sig w.g)
    | _ => k
  k'.modStream x fun v => { v with pend := .none, walk := none, again := false }

/-- Divert CTRL to the handler of level l (R336, R337): what CTRL was waiting for is abandoned with nothing
performed. A CTRL that has ENDED is diverted at its END, which it executes again after ERET (assumption log 29). One that a
debugger has stopped is diverted and stays stopped by it, at the handler's first instruction, until the debugger lets it go
on (assumption log 29: R280 and R336 do not say which holds). -/
def Core.divert (k : Core) (t : TrapRec) (l : Nat) : Core :=
  let set := t.set k.ctrl.pc
  let k := k.abandonWait .ctrl
  let ctrl := { k.ctrl with st := if k.ctrl.dbg == .stopped then .stopped else .running, pc := if l == 1 then k.uhvec else k.shvec, pend := .none,
                            walk := none, ibuf := none }
  if l == 1 then { k with ctrl := ctrl, trap1 := set, entry1 := k.hl, hl := 1 }
  else { k with ctrl := ctrl, trap2 := set, entry2 := k.hl, hl := 2 }

/-- The escalation record of Table 20.2. -/
def escalationRecord (s : State) (c : CoreId) (t : TrapRec) (hl tick : Nat) : BitVec 512 :=
  let (taskid, role) := match (s.core c).task with
    | some t => ((taskidOf t.key).toNat, t.role)
    | none => (0, 0)
  recordOf (leBytes 8 taskid ++ leBytes 2 role ++ leBytes 2 c.val ++ leBytes 2 t.cause.toNat ++
    leBytes 1 hl ++ leBytes 1 0 ++ leBytes 8 t.epc.toNat ++ leBytes 8 t.eaddr.toNat ++
    leBytes 8 t.eword0.toNat ++ leBytes 8 t.eword1.toNat ++ leBytes 8 tick)

/-- The function that owns a queue: the physical one's while the queue is not bound (R371). -/
def Queue.fn (q : Queue) : BitVec 6 := if q.qmap.getLsbD 31 then q.qmap.extractLsb' 0 6 else 0

/-- The function whose mailbox takes a core's records: that of its task's queue (R339, R371); a STAGE2_FAULT goes
to the physical function (R357). -/
def State.recordFn (s : State) (c : CoreId) (t : TrapRec) : BitVec 6 :=
  if t.stage2 then 0
  else match (s.core c).task with
    | some k => match s.queues.get? k.key.queue.toNat with
      | some q => q.fn
      | none => 0
    | none => 0

/-- The hold of a stream's SEMWT ends with its wait (R231, R337). -/
def State.dropWatch (s : State) (c : CoreId) (x : StreamId) : State :=
  { s with watches := s.watches.filter fun w => !(w.c == c && w.x == x) }

/-- Escalate a trap (R339): its stream stays STOPPED, CTRL when the trap is CTRL's or stops no stream, and the
record is posted. -/
def State.escalate (s : State) (c : CoreId) (t : TrapRec) : State :=
  let k := s.core c
  let own := t.x == .ctrl || t.async
  let k' := { k with escal := k.escal ++ [⟨t, t.hl, t.tick⟩], ctrlEsc := k.ctrlEsc || own }
  let k' := if own then (k'.abandonWait .ctrl).modStream .ctrl fun v => { v with st := .stopped } else k'
  ((if own then s.dropWatch c .ctrl else s).setCore c k').postMail (s.recordFn c t)
    (escalationRecord s c t t.hl t.tick)

/-- The instruction at which CTRL would be diverted, with its length: the one it has in issue, or the one its fetch
finds; a word of zeros and no length where none can be fetched (assumption log 29). -/
def State.divertWord (s : State) (c : CoreId) : Word96 × Nat :=
  let v := (s.core c).ctrl
  if v.pend != .none || v.walk.isSome then (v.word, v.len)
  else match s.fetchAt c .ctrl v.pc with
    | .ok f => (f.word, f.len)
    | _ => (0, 0)

/-- What an asynchronous trap reports at its delivery (R103, R332): EPC is the diversion address, EWORD0 and EWORD1 hold
the instruction there, and skip passes it (R339). -/
def State.atBoundary (s : State) (c : CoreId) (t : TrapRec) : TrapRec :=
  if t.async then
    let w := s.divertWord c
    { t with epc := (s.core c).ctrl.pc, eword0 := w.1.extractLsb' 0 64, eword1 := (w.1.extractLsb' 64 32).zeroExtend 64,
             len := w.2 }
  else t

/-- The place of a trap in stream-code order; asynchronous ones are CTRL's, those of pump 1 last (R336, R338). -/
def trapOrder (t : TrapRec) : Nat :=
  if t.async then (if t.pump then 4 else 3) else match t.x with
    | .load => 0
    | .exec => 1
    | .store => 2
    | .ctrl => 3

/-- Delivery of a trap whose stream has stopped (R336): into a handler level of CTRL, held, or escalated; those of one cycle
in stream-code order, so that none is held behind one that comes after it in that order. -/
def State.deliver (s : State) (c : CoreId) (t : TrapRec) : State :=
  let t' := s.atBoundary c t
  match (s.core c).deliveryOf t with
  | .hold => (s.modCore c fun k => { k with held := k.held ++ [t] }).checkTurn (.trap c) (trapOrder t)
  | .escalate => (s.escalate c t').takeTurn (.trap c) (trapOrder t)
  | .level l =>
    (((s.modCore c fun k => k.divert t' l).dropWatch c .ctrl).sketch 0x0A c t'.epc 1).takeTurn (.trap c) (trapOrder t)

/-- Stop the stream that raised a trap (R336); CTRL goes on in its handler. -/
def Core.stopFor (k : Core) (t : TrapRec) : Core :=
  if t.x == .ctrl || t.async then k
  else (k.abandonWait t.x).modStream t.x fun v => { v with st := .stopped }

/-- Raise a trap on a core: stop its stream and deliver it, with CTRL's level and the tick at the trap (Table 20.2). -/
def State.raise (s : State) (c : CoreId) (t : TrapRec) : State :=
  (s.modCore c fun k => k.stopFor t).deliver c { t with hl := (s.core c).hl, tick := s.tick }

/-- A precise trap of the instruction a stream has in issue (R103, R332): EWORD0 and EWORD1 hold its word. -/
def State.trapOn (s : State) (c : CoreId) (x : StreamId) (base : BitVec 7) (eaddr : Word) : State :=
  let v := s.stream c x
  s.raise c
    { base := base, x := x, async := false, epc := v.pc, eaddr := eaddr, eword0 := v.word.extractLsb' 0 64,
      eword1 := (v.word.extractLsb' 64 32).zeroExtend 64, len := v.len }

/-- A precise trap of the issuing instruction. -/
def State.trap (s : State) (base : BitVec 7) (eaddr : Word) : State := s.trapOn s.cur.1 s.cur.2 base eaddr

/-- An asynchronous trap on CTRL (R332); its address and instruction are those at its delivery. On a core whose clocks stand it is
raised after the release, so that the captured state stays as it is (R412). -/
def State.asyncTrap (s : State) (c : CoreId) (base : BitVec 7) (eaddr : Word) (pump : Bool := false) : State :=
  if (s.core c).gated then
    { s with lateTraps := s.lateTraps ++ [⟨c, (s.core c).task.map fun t => t.key, base, eaddr, pump⟩] }
  else
    s.raise c { base := base, x := .ctrl, async := true, epc := 0, eaddr := eaddr, eword0 := 0, eword1 := 0,
                len := 0, pump := pump }

/-- RESERVED_FIELD with the instruction address (Table 10.6). -/
def State.trapReserved (s : State) : State := s.trap Cause.reservedField (s.pc.zeroExtend 64)

/-- PIPE_CHECK on a stream: nothing of its instruction is performed (R146, R402). -/
def State.pipeCheckOn (s : State) (c : CoreId) (x : StreamId) (u : Checker) : State :=
  (s.mismatch c u (s.stream c x).pc).trapOn c x Cause.pipeCheck 0

/-- POISON_CONSUMED on a stream, with its record of kind 0x03 at a physical address (Table 26.3, R408). -/
def State.poisonOn (s : State) (c : CoreId) (x : StreamId) (ea : VAddr) (pa : Nat) : State :=
  (s.coreRecord 3 c pa (s.stream c x).pc 0).trapOn c x Cause.poisonConsumed (ea.zeroExtend 64)

/-- The first held trap in stream-code order, and the others. -/
def takeHeld : List TrapRec → Option (TrapRec × List TrapRec)
  | [] => none
  | t :: rest =>
    match takeHeld rest with
    | none => some (t, rest)
    | some (u, others) => if trapOrder u < trapOrder t then some (u, t :: others) else some (t, rest)

/-- Held traps may be delivered: level 0, CTRL not stopped by an escalation, CTRL at a boundary (R338). -/
def Core.canDeliver (k : Core) : Bool := k.hl == 0 && !k.ctrlEsc && !k.ctrlBusy && !k.held.isEmpty

/-- Deliver one held trap (R338). -/
def State.deliverHeld (s : State) (c : CoreId) : State :=
  let k := s.core c
  if k.canDeliver then
    match takeHeld k.held with
    | none => s
    | some (t, others) => (s.setCore c { k with held := others }).deliver c t
  else s

/-- The trap set of CTRL's handler level (R334). -/
def Core.trapSet (k : Core) : TrapSet := if k.hl == 1 then k.trap1 else k.trap2

/-- The core with the trap set of its handler level changed. -/
def Core.modTrapSet (k : Core) (f : TrapSet → TrapSet) : Core :=
  if k.hl == 1 then { k with trap1 := f k.trap1 } else { k with trap2 := f k.trap2 }

/-- Return from a handler (R338, R427): the level that was entered from, at RETPC; at level 0 CTRL takes up
DRAIN_STOP again while drain is in force and it had stopped at a DPT. -/
def Core.returnFrom (k : Core) : Core :=
  let pc := k.trapSet.retpc
  let hl := if k.hl == 1 then k.entry1 else k.entry2
  let st := if hl == 0 && k.ctrl.at_ && k.ctrl.dr then StreamState.drainStop else .running
  { k with hl := hl, ctrl := { k.ctrl with pc := pc, st := st, pend := .none, walk := none, ibuf := none } }

/-- End the stop of a stream and continue it at an address (R137): a debugger's stop of it ends too (assumption log 29). -/
def Core.restart (k : Core) (x : StreamId) (pc : VAddr) : Core :=
  k.modStream x fun v => { v with st := .running, pc := pc, pend := .none, walk := none, ibuf := none,
                                  dbg := if v.dbg == .stopped then .off else v.dbg }

end Sys2Proof.Machine
end

