-- ==== Sys2Proof/Machine/Flags.lean ====
section
/-! DEFINITION. Conditions, shifts and bit counts of scalars, and the status words the CSRs and CRD read (spec/06
R119 to R139, spec/10 R231). -/

namespace Sys2Proof.Machine

/-! ## Bits of a scalar (Table 6.1) -/

/-- Number of one bits among the lowest n. -/
def onesBelow {w : Nat} (a : BitVec w) : Nat → Nat
  | 0 => 0
  | n + 1 => onesBelow a n + (if a.getLsbD n then 1 else 0)

/-- Number of leading zero bits above bit n, the n lowest bits still to be read. -/
def leadingZeros {w : Nat} (a : BitVec w) : Nat → Nat
  | 0 => 0
  | n + 1 => if a.getLsbD n then 0 else leadingZeros a n + 1

/-- Number of trailing zero bits from bit i on, n bits still to be read. -/
def trailingZeros {w : Nat} (a : BitVec w) (i : Nat) : Nat → Nat
  | 0 => 0
  | n + 1 => if a.getLsbD i then 0 else trailingZeros a (i + 1) n + 1

/-- CLZ: 64 for zero. -/
def clz64 (a : Word) : Word := BitVec.ofNat 64 (leadingZeros a 64)
/-- CTZ: 64 for zero. -/
def ctz64 (a : Word) : Word := BitVec.ofNat 64 (trailingZeros a 0 64)
/-- POPC. -/
def popc64 (a : Word) : Word := BitVec.ofNat 64 (onesBelow a 64)

/-- A shift or rotate amount is b[5:0]. -/
def shiftAmount (b : Word) : Nat := b.toNat % 64

/-- Bits [127:64] of the signed product. -/
def mulHigh (a b : Word) : Word := BitVec.ofInt 64 (a.toInt * b.toInt / 2 ^ 64)
/-- Bits [127:64] of the unsigned product. -/
def mulHighU (a b : Word) : Word := BitVec.ofNat 64 (a.toNat * b.toNat / 2 ^ 64)

/-! ## Conditions -/

/-- A condition of SEMWT on a cell's value and s[B] (Table 10.7). -/
def condHolds (c : SemCond) (v b : Word) : Bool :=
  match c with
  | .eq => v == b
  | .ne => v != b
  | .ge => decide (b.toInt ≤ v.toInt)
  | .geu => decide (b.toNat ≤ v.toNat)
  | .lt => decide (v.toInt < b.toInt)
  | .ltu => decide (v.toNat < b.toNat)

/-! ## Status words -/

/-- STATUS (R139): the code of the stream, CTRL's handler level, and a copy of DRAINED.DR. -/
def Core.status (k : Core) (x : StreamId) : Word :=
  let code : BitVec 2 := match x with
    | .load => 0
    | .exec => 1
    | .store => 2
    | .ctrl => 3
  let hl : BitVec 2 := if x == .ctrl then BitVec.ofNat 2 k.hl else 0
  (0 : BitVec 59) ++ bit1 (k.stream x).dr ++ hl ++ code

/-- DRAINED (R133). -/
def Stream.drained (v : Stream) : Word := (0 : BitVec 60) ++ bit1 v.hs ++ bit1 v.at_ ++ bit1 v.cl ++ bit1 v.dr

/-- The count state CRD reads (R127). -/
def Count.word (n : Count) : Word := (0 : BitVec 43) ++ bit1 n.rsv ++ bit1 n.opn ++ n.p ++ n.c

end Sys2Proof.Machine
end

