-- ==== Sys2Proof/Machine/Cells.lean ====
section
/-! DEFINITION. Semaphore cells: values, operations, holds and handles (spec/02 R49 to R51, spec/10 R229 to R234). -/

namespace Sys2Proof.Machine

/-- Value of a cell. -/
def State.cell (s : State) (c : CoreId) (i : BitVec 12) : Word := ((s.core c).cells.get? i.toNat).getD 0

/-- A hold after its cell has become v at a tick of the waiting core's view: only a value that does not satisfy the
condition breaks it (R231). -/
def Watch.seen (w : Watch) (v : Word) (tick : Nat) : Watch :=
  if condHolds w.cond v w.b then
    { w with since := match w.since with
                      | some t => some t
                      | none => some tick,
             val := v }
  else { w with since := none, val := v }

/-- A blocking WAIT reads its cell at each write of it: it is ready from the first value that reaches VALUE on
(R318, R331). -/
def Queue.seen (q : Queue) (c : CoreId) (i : BitVec 12) (v : Word) : Queue :=
  match q.wait with
  | some w =>
    if w.core == c && w.cell == i then { q with wait := some { w with ready := w.ready || decide (w.value.toNat ≤ v.toNat) } }
    else q
  | none => q

/-- The state with a cell written; the holds of SEMWTs and the WAITs on it see the new value. -/
def State.setCell (s : State) (c : CoreId) (i : BitVec 12) (v : Word) : State :=
  let s := s.modCore c fun k =>
    { k with cells := if v == 0 then k.cells.drop i.toNat else k.cells.set i.toNat v }
  { s with watches := s.watches.map fun w => if w.core == c && w.cell == i then w.seen v (s.view w.c) else w,
           queues := s.queues.map fun q => (q.1, q.2.seen c i v) }

/-- The new value of a cell (Table 10.3). -/
def semApply (k : SemKind) (old b cmp : Word) : Word :=
  match k with
  | .add => old + b
  | .swp => b
  | .cas => if old == b then cmp else old
  | .max => if old.toInt < b.toInt then b else old
  | .maxu => if old.toNat < b.toNat then b else old
  | .ld => old

/-- Perform an operation on a cell: the new state and the old value (R229). -/
def State.cellOp (s : State) (k : SemKind) (c : CoreId) (i : BitVec 12) (b cmp : Word) : State × Word :=
  let old := s.cell c i
  (s.setCell c i (semApply k old b cmp), old)

/-! ## The order of one cycle (R232) -/

/-- The place of a stream in the order in which operations that reach one cell in one cycle are performed: cores by physical
number, streams by code. -/
def semRank (c : CoreId) (x : StreamId) : Nat := 4 * c.val + codeOf x

/-- The place of the host and the fabric: after every core. -/
def outsideRank : Nat := 832

/-- An operation may be performed on a cell in this tick: none that comes after it in the order has been. -/
def State.mayTurn (s : State) (c : CoreId) (i : BitVec 12) (rank : Nat) : Bool := !s.turnPast (.cell c i) rank

/-- Perform an operation in its place (R229, R232). -/
def State.cellOpAt (s : State) (rank : Nat) (k : SemKind) (c : CoreId) (i : BitVec 12) (b cmp : Word) : State × Word :=
  (s.takeTurn (.cell c i) rank).cellOp k c i b cmp

/-- The completion add of the graph engine and of a port (R318, R363). -/
def State.addTo (s : State) (h : Option (CoreId × BitVec 12)) (v : Word) : State :=
  match h with
  | some (c, i) => (s.cellOp .add c i v 0).1
  | none => s

/-- A cell of a gated core: operations of other parties on it wait (R412). -/
def State.cellGated (s : State) (h : Option (CoreId × BitVec 12)) : Bool :=
  match h with
  | some (c, _) => (s.core c).gated
  | none => false

/-- A core of a partition (R395). -/
def State.coreIn (s : State) (p : PartId) (c : CoreId) : Bool := (s.part p).units.getLsbD (c.val / 8)

/-- A physical core by number. -/
def coreOf (n : Nat) : Option CoreId := if h : n < 208 then some ⟨n, h⟩ else none

/-- A handle as Table 19.3 requires it: this device, a physical core, a partition cell. -/
def physHandle (h : Word) : Option (CoreId × BitVec 12) :=
  if h.extractLsb' 36 28 == 0 && h.extractLsb' 20 16 == 0xFFFF && decide (3840 ≤ (h.extractLsb' 0 12).toNat) then
    match coreOf (h.extractLsb' 12 8).toNat with
    | some c => some (c, h.extractLsb' 0 12)
    | none => none
  else none

/-- What a handle names for a task (R49, R50): a cell of this package, another device, or nothing. -/
inductive HandleRes where
  | cell (c : CoreId) (i : BitVec 12)
  | remote (dev : BitVec 16)
  | bad
deriving DecidableEq, Repr

/-- Resolve a handle for a stream of a core (R49, R50): CORE is a role of the issuing gang, 0xFF this core. -/
def State.resolve (s : State) (c : CoreId) (h : Word) : HandleRes :=
  let dev := h.extractLsb' 20 16
  let role := (h.extractLsb' 12 8).toNat
  let cell : BitVec 12 := h.extractLsb' 0 12
  if h.extractLsb' 36 28 != 0 then .bad
  else if dev == 0xFFFF || dev == s.fabric.devid then
    if role == 0xFF then .cell c cell
    else match (s.core c).task with
      | some t =>
        match t.binding[role]? with
        | some r => .cell r cell
        | none => .bad
      | none => .bad
  else if role == 0xFF then .bad
  else .remote dev

end Sys2Proof.Machine
end

