-- ==== Sys2Proof/Machine/Ports.lean ====
section
/-! DEFINITION. Translation ports: registers, submission of a command, and its checks (spec/21 R361 to R364). -/

namespace Sys2Proof.Machine

/-- The partition a port belongs to; none for the physical function's (R358). -/
def portPart (i : Fin 65) : Option PartId := if h : i.val = 0 then none else some ⟨i.val - 1, by omega⟩

/-- Port i as an index of the registers' page. -/
def portOf (n : Nat) : Option (Fin 65) := if h : n < 65 then some ⟨n, h⟩ else none

/-- The partition PASID[9:0] of a command names (Table 21.5). -/
def cmdPart (pasid : BitVec 20) : Option PartId :=
  let n := (pasid.extractLsb' 0 10).toNat
  if h : n < 64 then some ⟨n, h⟩ else none

/-- The partition whose context a command at a port acts on (R358, Table 21.5): the port's own, or the one PASID[9:0]
names at the physical function's port where the command reaches into a partition. Table 21.5 says so of INV_IPA and APERTURE; that a
MIGRATE there names its partition so, with bits [19:10] unchecked and ERR 5 for 64 and above, is the model's choice (assumption log
31). -/
def cmdContext (i : Fin 65) (w : Vector Word 8) : Option PartId :=
  let kind := (w[0].extractLsb' 0 8).toNat
  match portPart i with
  | some p => some p
  | none => if kind == 3 || kind == 5 || kind == 6 then cmdPart (w[0].extractLsb' 8 20) else none

/-- The words and bits of a command that its kind does not use are zero (R362). -/
def cmdBitsOk (kind : Nat) (w : Vector Word 8) : Bool :=
  let cmd0 := w[0]
  let pasidUsed := kind != 4
  let pasidPart := kind == 3 || kind == 5
  cmd0.extractLsb' 28 4 == 0 && cmd0.extractLsb' 38 26 == 0 &&
    (pasidUsed || cmd0.extractLsb' 8 20 == 0) &&
    (!pasidPart || (cmd0.extractLsb' 18 10 == 0 && (cmdPart (cmd0.extractLsb' 8 20)).isSome)) &&
    (kind == 5 || cmd0.extractLsb' 32 6 == 0) &&
    (kind == 1 || kind == 3 || kind == 5 || kind == 6 || (w[1] == 0 && w[2] == 0)) &&
    (kind == 5 || kind == 6 || w[5] == 0) &&
    (kind == 5 || (w[6] == 0 && w[7] == 0)) && w[6].extractLsb' 5 59 == 0

/-- NPG is a count of at least one page; an APERTURE that turns its transform off has 0 (R362, R363). More than 2^36 pages
break the check of the range. -/
def npgOk (kind : Nat) (w : Vector Word 8) : Bool :=
  let n := w[2].toNat
  if kind == 2 || kind == 4 then true
  else if kind == 5 && w[6].extractLsb' 0 3 == 0 then true
  else decide (1 ≤ n)

/-- The range of a command lies below 2^51 and, where it is of virtual addresses, below the local window (R363). -/
def rangeOk (kind : Nat) (pf : Bool) (w : Vector Word 8) : Bool :=
  let last := w[1].toNat + 0x8000 * w[2].toNat
  if kind == 2 || kind == 4 then true
  else if kind == 5 && w[6].extractLsb' 0 3 == 0 then true
  else decide (last ≤ 2 ^ 51) && (kind == 3 || (kind == 6 && pf) || decide (last ≤ windowBase))

/-- The checks of an APERTURE (R55 to R57, R363). -/
def apertureOk (w : Vector Word 8) : Bool :=
  let xf := (w[6].extractLsb' 0 3).toNat
  let n := (w[6].extractLsb' 3 2).toNat + 1
  let size := 0x8000 * w[2].toNat
  if xf == 0 then w[1] == 0 && w[2] == 0 && w[5] == 0 && w[7] == 0 && n == 1
  else decide (xf ≤ 4) && w[1].toNat % 0x8000 == 0 && w[5].toNat % 512 == 0 &&
    (xf == 2 || xf == 3 || n == 1) && !(xf == 3 && n == 4) &&
    !((xf == 2 || xf == 3) && decide (n * w[7].toNat < 4 * size))

/-- ERR of a command as submitted at a port (R363), 0 where every check passes. MIGRATE has further checks of its
own. That an NPG of 0 gives ERR 2, and a transform above 4 or an n - 1 outside PLANES ERR 4, is the model's choice (assumption log
31). -/
def cmdErr (i : Fin 65) (w : Vector Word 8) (hOk : Bool) : BitVec 8 :=
  let kind := (w[0].extractLsb' 0 8).toNat
  let pf := i.val == 0
  if kind == 0 || 6 < kind || ((kind == 3 || kind == 5) && !pf) then 1
  else if !cmdBitsOk kind w || !npgOk kind w || !hOk then 2
  else if !rangeOk kind pf w then 3
  else if kind == 5 && !apertureOk w then 4
  else 0

/-- A command's HANDLE at a port (R362): 0, or a partition cell of a core of the port's partition. -/
def State.portHandle (s : State) (i : Fin 65) (h : Word) : Option (Option (CoreId × BitVec 12)) :=
  if h == 0 then some none
  else match physHandle h with
    | none => none
    | some (c, x) =>
      match portPart i with
      | none => some (some (c, x))
      | some p => if s.coreIn p c then some (some (c, x)) else none

/-- The state with one port changed. -/
def State.modPort (s : State) (i : Fin 65) (f : Port → Port) : State :=
  { s with ports := s.ports.set i.val (f (s.ports[i.val])) }

/-- A write of DOOR (R361): submits the command in CMD0 to CMD7, or is discarded and sets DROP while BUSY. A
command that fails a check does nothing; its completion reports ERR. -/
def State.portDoor (s : State) (i : Fin 65) : State :=
  let p := s.ports[i.val]
  if p.busy then s.modPort i fun p => { p with drop := true }
  else
    let w := p.cmd
    let h := s.portHandle i w[3]
    let err := cmdErr i w h.isSome
    let cmd : PortCmd :=
      { kind := (w[0].extractLsb' 0 8).toNat, part := cmdContext i w, ipa := i.val == 0, pasid := w[0].extractLsb' 8 20,
        apn := (w[0].extractLsb' 32 6).toNat, addr := w[1].toNat, npg := w[2].toNat, handle := h.getD none,
        value := w[4], newpa := w[5].toNat, xf := w[6], plen := w[7].toNat, err := err, done := err != 0,
        drained := false, oldPa := 0 }
    s.modPort i fun p => { p with busy := true, cur := some cmd }

/-- A store to a port register (Table 21.4). -/
def State.portWrite (s : State) (i : Nat) (off : Nat) (v : Word) : State :=
  match portOf i with
  | none => s
  | some i =>
    if h : off / 8 < 8 then s.modPort i fun p => { p with cmd := p.cmd.set (off / 8) v h }
    else if off == 0x40 then s.portDoor i
    else s

/-- PSTAT (Table 21.4). -/
def Port.stat (p : Port) : Word := (0 : BitVec 48) ++ p.err ++ (0 : BitVec 6) ++ bit1 p.drop ++ bit1 p.busy

/-- A read of PSTAT clears DROP (R361). -/
def State.portRead (s : State) (i : Nat) : State × Word :=
  match portOf i with
  | none => (s, 0)
  | some i => (s.modPort i fun p => { p with drop := false }, (s.ports[i.val]).stat)

/-! ## What a command removes (R274, R358, R363) -/

/-- What a command removes. -/
structure Removal where
  part : PartId
  tlb : TlbEntry → Bool
  line : CacheLine → Bool

/-- Two runs share a number. -/
def runsMeet (a n b m : Nat) : Bool := decide (a < b + m) && decide (b < a + n)

/-- The entries and instruction lines a command covers. -/
def PortCmd.removal (m : PortCmd) : Option Removal :=
  let last := m.addr + 0x8000 * m.npg
  let page := m.addr / 0x8000
  let pages := (last + 0x7FFF) / 0x8000 - page
  m.part.map fun p =>
    match m.kind with
    | 1 => ⟨p, fun e => e.pasid == m.pasid && runsMeet page pages e.vpn e.pages,
              fun l => l.pasid == m.pasid && decide (m.addr ≤ l.f.pc.toNat + l.f.len) && decide (l.f.pc.toNat < last)⟩
    | 2 => ⟨p, fun e => e.pasid == m.pasid, fun l => l.pasid == m.pasid⟩
    | 3 => ⟨p, fun e => runsMeet page pages (e.ipn - 31) 63, fun _ => true⟩
    | 4 => ⟨p, fun _ => true, fun _ => true⟩
    | 6 => if m.ipa then ⟨p, fun e => runsMeet page pages (e.ipn - 31) 63, fun _ => false⟩
           else ⟨p, fun e => e.pasid == m.pasid && runsMeet page pages e.vpn e.pages, fun _ => false⟩
    | _ => ⟨p, fun _ => false, fun _ => false⟩

/-- A core loses the entries a command removes. -/
def Core.remove (k : Core) (r : Removal) : Core :=
  { k with tlb := k.tlb.filter fun e => !(e.part == r.part && r.tlb e),
           icache := k.icache.filter fun l => !(l.part == r.part && r.line l) }

/-- A core keeps an entry that a command removes. -/
def Core.keeps (k : Core) (r : Removal) : Bool :=
  (k.tlb.any fun e => e.part == r.part && r.tlb e) || k.icache.any fun l => l.part == r.part && r.line l

end Sys2Proof.Machine
end

