-- ==== Sys2Proof/Machine/Stores.lean ====
section
/-! DEFINITION. Performing what a stream has issued: stores in order, and the bytes of tile loads (spec/09 R193 to
R202, R211, R212, spec/12). -/

namespace Sys2Proof.Machine

/-- The partition whose key a core's accesses use. -/
def State.corePart (s : State) (c : CoreId) : PartId :=
  match (s.core c).task with
  | some t => t.part
  | none => 0

/-- The bytes of plane k of block b of a tile of NF(8n) values (R195, R197). -/
def tilePlane (v : BitVec 32768) (n b k : Nat) : List Byte :=
  (List.range 128).map fun i => BitVec.ofNat 8 (fieldOf 8 v.toNat (n * (128 * b + i) + n - 1 - k))

/-- Some tile row holding elements 128b to 128b + 127 is poisoned. -/
def blockPoison (p : BitVec 32) (n b : Nat) : Bool :=
  (List.range 32).any fun r => p.getLsbD r && decide (128 * n * b < 128 * (r + 1)) && decide (128 * r < 128 * n * (b + 1))

/-- The planes of block b that a TSTP writes (R197). -/
def planeSet (n : Nat) (m : BitVec 32) (b : Nat) : List Nat :=
  (List.range n).filter fun k => decide (n < 4) || m.getLsbD (4 * b + k)

/-- The writes a store makes: unit index, offset in the unit, bytes and poison, in order. -/
def StoreData.writes (d : StoreData) (i : Nat) : List (Nat × List Byte × Bool) :=
  match d with
  | .sts bs => [(0, bs, false)]
  | .tst v p => [(0, tileRow v i, p.getLsbD i)]
  | .tstp v p n m => (planeSet n m i).map fun k => (128 * k, tilePlane v n i k, blockPoison p n i)

/-- The parts of unit i that a store writes: of a block, the planes it names (R197). -/
def StoreData.parts (d : StoreData) (i : Nat) : List (Nat × Nat) :=
  match d with
  | .sts bs => [(0, bs.length)]
  | .tst _ _ => [(0, 128)]
  | .tstp _ _ n m => (planeSet n m i).map fun k => (128 * k, 128)

/-- The requests of a store: none for a block that it does not touch (R197). -/
def StoreData.reqs (d : StoreData) (us : List MemUnit) : List Req :=
  us.zipIdx.map fun u => unitReq true false u.1 (d.parts u.2)

/-- The memory that a store writes. -/
def StoreRec.pieces (r : StoreRec) : List (Loc × Nat) := r.units.zipIdx.flatMap fun u => u.1.pieces (r.data.parts u.2)

/-- Perform one unit of a store. -/
def State.storeUnit (s : State) (c : CoreId) (u : MemUnit) (ws : List (Nat × List Byte × Bool)) : State :=
  match u.loc with
  | .port i off =>
    match ws with
    | (_, bs, _) :: _ => s.portWrite i off (BitVec.ofNat 64 (leNat bs))
    | [] => s
  | l => ws.foldl (fun s w => s.writeLoc c (s.corePart c) (l.plus w.1) w.2.1 w.2.2) s

/-- Perform every unit of a store in ascending order (R194). -/
def State.storeAll (s : State) (c : CoreId) (r : StoreRec) : State :=
  (r.units.zipIdx.foldl (fun s ui => s.storeUnit c ui.1 (r.data.writes ui.2)) s)

/-! ## Tile loads -/

/-- A row of a TLD (R193): bytes and poison. -/
def State.loadRow (s : State) (c : CoreId) (u : MemUnit) : List Byte × Bool :=
  s.readLoc c (s.corePart c) u.loc 128

/-- The value a TLD reads: a poisoned row is loaded with unpredictable bytes (R193). -/
def State.loadTile (s : State) (c : CoreId) (units : List MemUnit) : BitVec 32768 × BitVec 32 :=
  let rows := units.map (s.loadRow c)
  let p : BitVec 32 := BitVec.ofNat 32 ((rows.zipIdx.map fun r => if r.1.2 then 2 ^ r.2 else 0).sum)
  let v := tileOfRows (rows.map (·.1))
  (if p == 0 then v else mergeBits v (Config.freeTile s.fresh) (rowMaskBits p), p)

/-- One element of a planed read: its value and whether a granule read for it is poisoned (R196). -/
def State.planedElem (s : State) (c : CoreId) (n : Nat) (rn1 : Bool) (l : Loc) (blk : List Byte) (i : Nat) : Nat × Bool :=
  (planeVal blk n rn1 i, (planesRead n rn1).any fun k =>
    (s.readLoc c (s.corePart c) (l.plus (128 * k + i)) 1).2)

/-- The value a TLDP reads (R196): NB blocks, the bytes past them zero. -/
def State.loadPlanes (s : State) (c : CoreId) (n : Nat) (rn1 : Bool) (units : List MemUnit) : BitVec 32768 × BitVec 32 :=
  let one := fun (u : MemUnit) =>
    let blk := (s.readLoc c (s.corePart c) u.loc 512).1
    (List.range 128).map (s.planedElem c n rn1 u.loc blk)
  let elems := (units.map one).flatten.toArray
  let v := packFields (8 * n) (fun j => match elems[j]? with
    | some e => e.1
    | none => 0) 12 0
  let row := fun (r : Nat) =>
    (List.range 128).any fun b => match elems[(128 * r + b) / n]? with
      | some e => e.2
      | none => false
  (BitVec.ofNat 32768 v, BitVec.ofNat 32 ((List.range 32).map fun r => if row r then 2 ^ r else 0).sum)

/-- What a load reads now. -/
def State.readLoad (s : State) (c : CoreId) (r : LoadRec) : BitVec 32768 × BitVec 32 :=
  match r.planed with
  | none => s.loadTile c r.units
  | some (n, rn1) => s.loadPlanes c n rn1 r.units

/-! ## The order of a stream's accesses (R212, Table 12.4, Table 12.5) -/

/-- The loads of a core issued before a number that have not read their bytes. -/
def Core.unread (k : Core) (seq : Nat) : List LoadRec := k.loads.filter fun r => r.buf.isNone && decide (r.seq < seq)

/-- A load reads its bytes. -/
def State.readOne (s : State) (c : CoreId) (r : LoadRec) : State :=
  let v := s.readLoad c r
  (s.modCore c fun k =>
    { k with loads := k.loads.map fun q => if q.seq == r.seq && q.buf.isNone then { q with buf := some v } else q }).useFresh

/-- LOAD's loads issued before a number read their bytes. -/
def State.readBefore (s : State) (c : CoreId) (seq : Nat) : State :=
  ((s.core c).unread seq).foldl (fun s r => s.readOne c r) s

/-- Perform the oldest store of a stream; a load that LOAD issued before it reads first (Table 12.5). -/
def State.storeOne (s : State) (c : CoreId) (x : StreamId) : State :=
  match (s.stream c x).stores with
  | [] => s
  | r :: rest =>
    let s := if x == .load then s.readBefore c r.seq else s
    (s.modStream c x fun v => { v with stores := rest }).storeAll c r

/-- Perform the first n stores of a stream. -/
def State.storeMany (s : State) (c : CoreId) (x : StreamId) : Nat → State
  | 0 => s
  | n + 1 => (s.storeOne c x).storeMany c x n

/-- Perform stores of a stream while they were issued before a number. -/
def State.flushTo (s : State) (c : CoreId) (x : StreamId) (seq : Nat) : State :=
  s.storeMany c x ((s.stream c x).stores.takeWhile fun r => decide (r.seq < seq)).length

/-- Perform every store of a stream: what a release, a rendezvous or the end of a stream waits for (R211, R233,
R235). -/
def State.flush (s : State) (c : CoreId) (x : StreamId) : State := s.storeMany c x (s.stream c x).stores.length

/-- Perform every store of a core (R340). -/
def State.flushCore (s : State) (c : CoreId) : State :=
  (((s.flush c .load).flush c .exec).flush c .store).flush c .ctrl

/-- How many of the first stores of a stream come before an access of its own that was issued after number seq and
touches some pieces of memory: up to the last one that touches the same bytes (R212). -/
def Stream.overlapping (v : Stream) (seq : Nat) (ps : List (Loc × Nat)) : Nat :=
  v.stores.zipIdx.foldl (fun m r =>
    if r.1.seq < seq && (r.1.pieces.any fun u => ps.any fun w => u.1.overlaps u.2 w.1 w.2) then r.2 + 1
    else m) 0

/-- LOAD's loads issued before a number read their bytes in order, each after the stores that LOAD issued before it to
the same bytes: what comes before a later load of LOAD (R212, Table 12.5). -/
def State.readLoads (s : State) (c : CoreId) (seq : Nat) : State :=
  ((s.core c).unread seq).foldl (fun s r =>
    (s.storeMany c .load ((s.stream c .load).overlapping r.seq r.pieces)).readOne c r) s

/-- Every load of a core reads its bytes (R235, R340). -/
def State.captureLoads (s : State) (c : CoreId) : State := s.readLoads c (s.core c).seq

/-- Everything a stream has issued to memory so far comes before what follows (R37, R134, R235): its stores are
performed, and LOAD's tile loads read their bytes (assumption log 8). -/
def State.releaseOn (s : State) (c : CoreId) (x : StreamId) : State :=
  if x == .load then (s.flush c x).captureLoads c else s.flush c x

end Sys2Proof.Machine
end

