-- ==== Sys2Proof/Machine/Fabric.lean ====
section
/-! DEFINITION. Sending over the fabric: routing, packets and their acknowledgements (spec/23 R377 to R384). -/

namespace Sys2Proof.Machine

/-! ## Routing (R379) -/

/-- The active routing entry of a device: zero where nothing is written. -/
def Fabric.route (f : Fabric) (dev : BitVec 16) : Word :=
  ((if f.routeBank then f.routeB else f.routeA).get? dev.toNat).getD 0

/-- A link that new packets may use: up, and not one that came up again since the last routing swap (R382). -/
def Fabric.usable (f : Fabric) (l : Fin 24) : Bool := (f.links[l.val]).up && !(f.links[l.val]).fresh

/-- A port number as a link. -/
def linkOf (n : Nat) : Option (Fin 24) := if h : n < 24 then some ⟨n, h⟩ else none

/-- The candidate ports of an entry, in order of preference. -/
def portsOf (e : Word) : List (Fin 24) := [0, 5, 10, 15].filterMap fun sh => linkOf (e.extractLsb' sh 5).toNat

/-- The candidate ports of an entry that are up. -/
def Fabric.upPorts (f : Fabric) (e : Word) : List (Fin 24) := (portsOf e).filter f.usable

/-- CLS of a routing entry: UNORDERED. -/
def entryUnordered (e : Word) : Bool := e.getLsbD 20

/-- The port of a flow among some ports (R379): the flow's own in list order. -/
def flowPort (ports : List (Fin 24)) (c : CoreId) (dev : BitVec 16) : Option (Fin 24) :=
  ports[(c.val + dev.toNat) % ports.length]?

/-- A fault of a link that is not resolved yet (R382). -/
def Fabric.open_ (f : Fabric) (l : Fin 24) : Option LinkDrop := f.drops.find? fun d => d.link == l && d.done.isNone

/-- The failed port that an ORDERED flow still belongs to (R382): the one it was on when its fault came, until that is resolved. A
flow that a fault holds, or held then, was not on a port that failed meanwhile. -/
def Fabric.heldOn (f : Fabric) (e : Word) (c : CoreId) (dev : BitVec 16) : Option (Fin 24) :=
  (f.drops.foldl (fun (a : Nat × Option (Fin 24)) d =>
    if a.2.isSome || d.tick < a.1 || flowPort ((portsOf e).filter d.before.contains) c dev != some d.link then a
    else match d.done with
      | none => (a.1, some d.link)
      | some t => (t, none)) (0, none)).2

/-- Where a packet goes: nowhere, nowhere before the fault of a port is resolved, or out on a port. -/
inductive Way where
  | lost
  | held (l : Fin 24)
  | out (l : Fin 24)
deriving DecidableEq, Repr

/-- The way of a packet from core c under a routing entry (R379, R382): any of the ports that are up when UNORDERED; the flow's of
those when ORDERED, where a flow of a port that has failed moves only once its packets are resolved, and till then waits, since no
new packet goes out on a port that is down; none when no port is left up. -/
def Fabric.way (f : Fabric) (e : Word) (c : CoreId) (dev : BitVec 16) (free : Nat) : Way :=
  let up := f.upPorts e
  let some_ := fun (l : Option (Fin 24)) => match l with
    | some l => Way.out l
    | none => .lost
  if !(e.getLsbD 21) || up.isEmpty then .lost
  else if entryUnordered e then some_ (up[free % up.length]?)
  else match f.heldOn e c dev with
    | some l => .held l
    | none => some_ (flowPort up c dev)

/-- A partition's sending key (R380). -/
def State.pkeyOf (s : State) (p : PartId) : BitVec 16 := (s.part p).pkey

/-! ## Packets (R377, R378, R382, R384) -/

/-- The granules of a payload that a packet carries: zero granules that are not poisoned are left out towards a neighbour
that allows it (R378). -/
def premMask (bs : List Byte) (poison : BitVec 64) (elide : Bool) : BitVec 64 :=
  BitVec.ofNat 64 (((List.range 64).filter fun g =>
    decide (64 * g < bs.length) &&
      !(elide && !poison.getLsbD g && ((bs.drop (64 * g)).take 64).all (· == 0))).map (2 ^ ·)).sum

/-- The bytes behind a presence mask. -/
def premData (bs : List Byte) (mask : BitVec 64) : List Byte :=
  ((List.range 64).filter fun g => mask.getLsbD g).flatMap fun g => (bs.drop (64 * g)).take 64

/-- The form of a payload, given with all its bytes, toward a neighbour (R378). -/
def bodyToward (b : PacketBody) (elide : Bool) : PacketBody :=
  match b with
  | .prem va size _ bs poison =>
    let mask := premMask bs poison elide
    .prem va size mask (premData bs mask) poison
  | b => b

/-- What an injection comes to: the device cannot be reached, its flow waits for a port, or the packet is outstanding with its
number (R379, R382). -/
inductive SendRes where
  | lost
  | held
  | sent (s : State) (seq : BitVec 32)
deriving DecidableEq, Repr

/-- Inject a packet from a core to another device (R379). -/
def State.sendPacket (s : State) (c : CoreId) (dev : BitVec 16) (release : Bool) (owner : PktOwner) (full : PacketBody) :
    SendRes :=
  let e := s.fabric.route dev
  match s.fabric.way e c dev (Config.freeWord s.fresh).toNat with
  | .lost => .lost
  | .held _ => .held
  | .out port =>
    let seq := (s.fabric.txSeq.get? dev.toNat).getD 0
    let pkt : Packet :=
      { src := s.fabric.devid, dst := dev, pkey := s.pkeyOf (s.corePart c), seq := seq, unordered := entryUnordered e,
        release := release, body := bodyToward full (s.fabric.links[port.val]).elide }
    let cache := fun (l : List (BitVec 16)) => (dev :: l.filter (· != dev)).take 1024
    let f := { s.fabric with txSeq := s.fabric.txSeq.set dev.toNat (seq + 1),
                             windows := s.fabric.windows.mapIdx fun i l => if i == dieOf c then cache l else l,
                             out := s.fabric.out ++ [⟨pkt, port, owner, none, full, e⟩] }
    .sent { s with fabric := f }.useFresh seq

/-- The outstanding packet to a device with a number. -/
def Fabric.outPkt (f : Fabric) (dev : BitVec 16) (seq : BitVec 32) : Option OutPkt :=
  f.out.find? fun o => o.pkt.dst == dev && o.pkt.seq == seq

/-- A packet's owner waits for it no more: one that has been answered is gone, and one still on its way stays outstanding, so
that a fault of its port resolves it (R382), until its answer comes. -/
def State.leavePkt (s : State) (dev : BitVec 16) (seq : BitVec 32) : State :=
  { s with fabric := { s.fabric with out := s.fabric.out.filter fun o =>
      !(o.pkt.dst == dev && o.pkt.seq == seq && o.ack.isSome) } }

/-- The fabric without an outstanding packet. -/
def State.dropPkt (s : State) (dev : BitVec 16) (seq : BitVec 32) : State :=
  { s with fabric := { s.fabric with out := s.fabric.out.filter fun o => !(o.pkt.dst == dev && o.pkt.seq == seq) } }

end Sys2Proof.Machine
end

