-- ==== Sys2Proof/Machine/Issue.lean ====
section
/-! DEFINITION. Fetching an instruction and bringing it to issue (spec/04 R95 to R103, spec/21 R357): what comes
before a meaning. -/

namespace Sys2Proof.Machine

/-- The word a stream issues: what it has fetched for this address, an old line of the cache, or a fetch. -/
def State.fetchFor (s : State) (c : CoreId) (x : StreamId) (useCache : Bool) : FetchRes :=
  let v := s.stream c x
  match v.ibuf with
  | some f => if f.pc == v.pc then .ok f else s.fetchAt c x v.pc
  | none =>
    match if useCache then (s.core c).cached x v.pc else none with
    | some f => .ok f
    | none => s.fetchAt c x v.pc

/-- A fault of steps 1 and 2 (R98, R103, R357): EWORD0 and EWORD1 are zero after a fetch that failed, and EWORD0
holds the header after ILLEGAL_PREFIX. len is the instruction's length, 0 where its header could not be read: there the
rule names no L, and skip goes on at EPC (R137, assumption log 29). R103 gives zeros only to FETCH_FAULT; after a
POISON_CONSUMED of a fetch, whose word has a byte that is not there, the model puts zeros too (assumption log 29). -/
def State.fetchTrap (s : State) (c : CoreId) (x : StreamId) (base : BitVec 7) (eaddr : Word) (h : BitVec 16) (len : Nat) :
    State :=
  s.raise c { base := base, x := x, async := false, epc := (s.stream c x).pc, eaddr := eaddr,
              eword0 := h.zeroExtend 64, eword1 := 0, len := len }

/-- A refused page of host memory is asked for again at the next access: the answers that made an access of this
core fail are used up (R369). -/
def State.dropAnswers (s : State) (c : CoreId) (cause : BitVec 7) : State :=
  if cause == Cause.pageNotPresent && !s.ats.isEmpty then
    let k := s.core c
    { s with ats := s.ats.filter fun e => e.ok || !(e.part == k.partId && e.pasid == k.pasid) }
  else s

/-- The fault a failed fetch raises, or nothing while a page is being asked for. -/
def State.fetchFail (s : State) (c : CoreId) (x : StreamId) (r : FetchRes) : State :=
  let pc := (s.stream c x).pc
  match r with
  | .ok _ => s
  | .wait => s
  | .badPrefix h len => s.fetchTrap c x Cause.illegalPrefix (pc.zeroExtend 64) h len
  | .poison off pa len =>
    (s.coreRecord 3 c pa pc 0).fetchTrap c x Cause.poisonConsumed ((pc + BitVec.ofNat 51 off).zeroExtend 64) 0 len
  | .fault off cause =>
    (s.dropAnswers c cause).fetchTrap c x Cause.fetchFault
      ((0 : BitVec 1) ++ cause ++ (0 : BitVec 5) ++ (pc + BitVec.ofNat 51 off)) 0 0

/-! ## Issue -/

/-- The stream may issue its next instruction (R12, R13, R146): it runs, or was in COUNT_WAIT when it was saved
(R36), nothing of it is pending, and no hard stop or save holds it (R342). -/
def Core.canIssue (k : Core) (x : StreamId) : Bool :=
  let v := k.stream x
  (v.st == .running || v.st == .countWait) && v.pend == .none && v.walk.isNone && !k.gated && !v.hard && !k.saving &&
    (x != .exec || k.interval == .none)

/-- A debugger's control once an instruction issues (R280). -/
def Dbg.issued : Dbg → Dbg
  | .go => .off
  | .step => .stepped
  | d => d

/-- The stream with a fetched word in issue. -/
def Stream.hold (v : Stream) (f : Fetched) : Stream :=
  { v with st := .running, word := f.word, len := f.len, ibuf := none, again := false, dbg := v.dbg.issued }

/-- The instruction cache after a fetch: the newest line of an address first (R100, assumption log 10). -/
def Core.fillCache (k : Core) (x : StreamId) (f : Fetched) : Core :=
  let sup := (k.ctx x .fetch).sup
  let old := k.icache.filter fun l => !(l.part == k.partId && l.pasid == k.pasid && l.f.pc == f.pc && l.sup == sup)
  { k with icache := (⟨k.partId, k.pasid, sup, f⟩ :: old).take 64 }

/-- The stream waits for a page of host memory of this partition and PASID. -/
def Core.waitsPri (k : Core) (x : StreamId) (p : PartId) (pasid : BitVec 20) (page : BitVec 36) : Bool :=
  k.partId == p && k.pasid == pasid && (match (k.stream x).walk with
    | some w => w.pri == some page
    | none => false)

/-- Streams that wait for a page check it again. -/
def Core.priDone (k : Core) (p : PartId) (pasid : BitVec 20) (page : BitVec 36) : Core :=
  [StreamId.load, .exec, .store, .ctrl].foldl (fun k x =>
    if k.waitsPri x p pasid page then k.modStream x fun v => { v with walk := none } else k) k

/-! ## A debugger's stops (R280) -/

/-- A debugger stops the stream before the instruction it has come to: at a breakpoint, or after a step. -/
def Stream.breaks (v : Stream) : Bool :=
  !v.again && (v.dbg == .stepped || (v.dbg == .off && v.brk.contains v.pc))

/-- A stream stopped by a debugger (R280): STOPPED, with nothing else changed. -/
def Stream.breakNow (v : Stream) : Stream := { v with st := .stopped, dbg := .stopped, ibuf := none }

/-- break stream offset (R280). -/
def State.debugBreak (s : State) (c : CoreId) (x : StreamId) (pc : VAddr) : State :=
  s.modStream c x fun v => { v with brk := if v.brk.contains pc then v.brk else pc :: v.brk }

/-- The stream is inside an instruction: it has brought it to issue. -/
def Stream.inside (v : Stream) : Bool := v.pend != .none || v.walk.isSome || v.again

/-- A debugger lets a stream go on: past the instruction it stands at, or from the end of the one it is inside; barred says that an
escalation still keeps it STOPPED (R280, R339). -/
def Stream.letGo (v : Stream) (barred : Bool) (d : Dbg) : Stream :=
  match v.dbg with
  | .stopped => if v.st == .stopped then { v with st := if barred then .stopped else .running, dbg := d } else v
  | .step => { v with dbg := d }
  | .stepped => { v with dbg := if v.inside && d == .go then .off else d }
  | _ => v

/-- A stream that a debugger stopped, or lets issue one instruction, goes on (R280); CTRL, whose escalation awaits its answer, once
it has been answered (R339). -/
def State.debugGo (s : State) (c : CoreId) (x : StreamId) (d : Dbg) : State :=
  s.modStream c x fun v => v.letGo (x == .ctrl && (s.core c).ctrlEsc) d

/-- run (R280): every stream that a debugger has stopped goes on. -/
def State.debugRun (s : State) (c : CoreId) : State :=
  [StreamId.load, .exec, .store, .ctrl].foldl (fun s x => s.debugGo c x .go) s

/-- step stream (R280): it issues one instruction. -/
def State.debugStep (s : State) (c : CoreId) (x : StreamId) : State := s.debugGo c x .step

/-! ## Bringing an instruction to issue -/

/-- Bring a stream's next instruction to issue: steps 1 to 5 of Table 4.10. The state with the trap raised, or with
the word held and the instruction to perform, which counts as issued once, however often a page walk brings it back (R192,
Table 27.3). -/
def State.prepare (s : State) (c : CoreId) (x : StreamId) (useCache : Bool) : State × Option Instr :=
  if (s.core c).canIssue x then
    if (s.stream c x).breaks then (s.modStream c x Stream.breakNow, none)
    else match s.fetchFor c x useCache with
    | .ok f =>
      let again := (s.stream c x).again
      let s := (s.modCore c fun k => (k.modStream x fun v => v.hold f).fillCache x f)
      let s := { s with cur := (c, x) }
      match decodeAt x f.word with
      | .instr i => (if again then s else s.sketch 0 c f.pc 1, some i)
      | .illegalOpcode => (s.trap Cause.illegalOpcode (f.pc.zeroExtend 64), none)
      | .wrongStream => (s.trap Cause.wrongStream (f.pc.zeroExtend 64), none)
      | .reservedField => (s.trapReserved, none)
    | r => ({ s with cur := (c, x) }.fetchFail c x r, none)
  else (s, none)

/-- INSTRUCTION_FETCH (R98, R103): the stream holds its next instruction, or raises the first fault of Table 4.10. -/
def State.fetchEvent (s : State) (c : CoreId) (x : StreamId) (useCache : Bool) : State :=
  if (s.core c).canIssue x && !(s.stream c x).breaks then
    match s.fetchFor c x useCache with
    | .ok f =>
      let s' := s.modCore c fun k => (k.modStream x fun v => { v with ibuf := some f }).fillCache x f
      match decodeAt x f.word with
      | .instr _ => s'
      | _ => (s.prepare c x useCache).1
    | r => s.fetchFail c x r
  else s

/-- An instruction of the scalar units or the access unit's address adders (Table 26.2), whose mismatch raises
PIPE_CHECK on its stream: those of the streams that no engine or vector unit performs. -/
def Instr.scalarUnit : Instr → Bool
  | .add .. | .sub .. | .mul .. | .mulh .. | .mulhu .. | .div .. | .divu .. | .rem .. | .remu .. | .and .. | .or ..
  | .xor .. | .shl .. | .shr .. | .sar .. | .rot .. | .min .. | .max .. | .minu .. | .maxu .. | .sel .. | .mov ..
  | .clz .. | .ctz .. | .popc .. | .addi .. | .andi .. | .ori .. | .xori .. | .shli .. | .shri .. | .sari ..
  | .li .. | .lih .. | .lea .. | .cmpEq .. | .cmpNe .. | .cmpLt .. | .cmpLe .. | .cmpGt .. | .cmpGe ..
  | .cmpLtu .. | .cmpLeu .. | .cmpGtu .. | .cmpGeu .. | .kadd .. | .loop .. | .br .. | .bri .. | .call .. | .ret ..
  | .tld .. | .tldp .. | .tst .. | .tstp .. | .ldsU8 .. | .ldsU16 .. | .ldsU32 .. | .ldsU64 .. | .ldsI8 ..
  | .ldsI16 .. | .ldsI32 .. | .stsU8 .. | .stsU16 .. | .stsU32 .. | .stsU64 .. | .lookup .. | .tagset ..
  | .taginv .. | .probe .. => true
  | _ => false

/-- A checker mismatch meets a stream's next instruction (R402, Table 26.2). -/
def State.pipeCheckPick (s : State) (c : CoreId) (x : StreamId) : State :=
  match s.prepare c x false with
  | (s', some i) => if Instr.scalarUnit i then s'.pipeCheckOn c x .scalar else s
  | (_, none) => s

end Sys2Proof.Machine
end

