-- ==== Sys2Proof/Machine/Graph.lean ====
section
/-! DEFINITION. The graph engine: queues, admission, graph checks, the well, dispatch, and the states of nodes
(spec/19, spec/17 R295 to R297, spec/18 R311, R312, spec/25 R396, R397). -/

namespace Sys2Proof.Machine

/-! ## Queues (R315 to R317, R371) -/

/-- A queue: DISABLED with no descriptor where nothing has been written (Table 19.2). -/
def State.queue (s : State) (q : BitVec 15) : Queue := (s.queues.get? q.toNat).getD Queue.zero

/-- The state with one queue changed. -/
def State.modQueue (s : State) (q : BitVec 15) (f : Queue → Queue) : State :=
  { s with queues := s.queues.set q.toNat (f (s.queue q)) }

/-! Fields of the descriptor (Table 19.1). -/

def Queue.base (q : Queue) : Nat := (q.desc.extractLsb' 0 64).toNat
def Queue.log2 (q : Queue) : Nat := (q.desc.extractLsb' 64 8).toNat
def Queue.pceil (q : Queue) : Nat := (q.desc.extractLsb' 72 8).toNat
def Queue.kmask (q : Queue) : BitVec 16 := q.desc.extractLsb' 80 16
def Queue.gmax (q : Queue) : Nat := (q.desc.extractLsb' 96 16).toNat
def Queue.partNum (q : Queue) : Nat := (q.desc.extractLsb' 112 16).toNat
def Queue.pasid (q : Queue) : BitVec 20 := q.desc.extractLsb' 128 20
/-- Window i: base and limit page numbers. -/
def Queue.window (q : Queue) (i : Nat) : Nat × Nat :=
  ((q.desc.extractLsb' (192 + 64 * i) 32).toNat, (q.desc.extractLsb' (224 + 64 * i) 32).toNat)
/-- The partition of a queue; a queue is enabled only with one that exists (R371). -/
def Queue.part (q : Queue) : PartId := if h : q.partNum < 64 then ⟨q.partNum, h⟩ else 0

/-- Check 1 of Table 19.4. -/
def Queue.descBad (q : Queue) : Option (BitVec 8) :=
  if q.base % 64 != 0 || decide (2 ^ 51 ≤ q.base) then some 0x01
  else if q.log2 < 4 || 16 < q.log2 || q.desc.extractLsb' 148 44 != 0 || q.desc.extractLsb' 448 64 != 0 then some 0x02
  else none

/-- Checks 1 and 2 of Table 19.4. -/
def Queue.ringBad (q : Queue) : Option (BitVec 8) :=
  match q.descBad with
  | some c => some c
  | none => if 2 ^ q.log2 < (q.widx - q.ridx).toNat then some 0x03 else none

/-- QSTAT (R317). -/
def Queue.qstat (q : Queue) : Word :=
  (0 : BitVec 7) ++ bit1 q.hedge ++ q.hsub ++ q.hidx ++ q.halt

/-- A queue halts with RIDX on its failing command (R317, R319); a halt interrupt follows QSTAT (R372, R375). -/
def State.haltQueue (s : State) (q : BitVec 15) (cause : BitVec 8) (sub : Nat) (edge : Bool) : State :=
  let s := s.modQueue q fun k => { k with st := .halted, halt := cause, hidx := k.ridx, hsub := BitVec.ofNat 16 sub,
                                          hedge := edge, cmd := none, req := false }
  let k := s.queue q
  if k.qirq.getLsbD 17 && k.qmap.getLsbD 31 then s.sendIrq k.fn (k.qirq.extractLsb' 0 11) else s

/-- A discarded notify write is counted for the function of the queue (R372, R373). -/
def State.notifyDrop (s : State) (q : BitVec 15) : State :=
  let fn := (s.queue q).fn
  { s with fns := s.fns.set fn.toNat { s.fns[fn.toNat]'fn.isLt with ndrop := (s.fns[fn.toNat]'fn.isLt).ndrop + 1 } fn.isLt }

/-- A write of WIDX by the host (R316, R319, R372): the index of a queue that is not ACTIVE is recorded. -/
def execNotifyWidxWrite (q : BitVec 15) (pasid : Option (BitVec 20)) (v : BitVec 32) (s : State) : Out :=
  let k := s.queue q
  .next (if !k.qmap.getLsbD 31 then s
    else if pasid != some k.pasid then s.notifyDrop q
    else
      let s := s.modQueue q fun k => { k with widx := v }
      if k.st != .active then s
      else match (s.queue q).ringBad with
        | some cause => s.haltQueue q cause 0 false
        | none => s)

/-- The function that owns a queue serves its partition (R371): VFPART binds virtual functions. -/
def State.mayEnable (s : State) (k : Queue) : Bool :=
  decide (k.partNum < 64) && (k.fn == 0 || (s.fns[k.fn.toNat]'k.fn.isLt).part == k.part)

/-- The host writes a descriptor and enables the queue (R316, Table 19.2). -/
def execQueueEnable (q : BitVec 15) (desc : BitVec 512) (s : State) : Out :=
  s.bar0 fun s =>
    let k := { s.queue q with desc := desc }
    if (k.st == .disabled || k.st == .halted) && s.mayEnable k then
      s.modQueue q fun _ => { k with st := .active, ridx := 0, widx := 0, halt := 0, hidx := 0, hsub := 0,
                                     hedge := false, cmd := none, req := false, wait := none }
    else s

/-- The host clears a queue's descriptor (Table 19.2). -/
def execQueueDisable (q : BitVec 15) (s : State) : Out :=
  s.bar0 fun s => s.modQueue q fun k => { k with desc := 0, st := .disabled, halt := 0, hidx := 0, hsub := 0,
                                                 hedge := false, cmd := none, req := false, wait := none }

/-! ## Reading rings and descriptors (R315, R350, R374) -/

/-- What the graph engine reads: bytes, a byte that cannot be read, or a page of host memory not answered yet. -/
inductive DevRead where
  | ok (bs : List Byte)
  | fault
  | wait
deriving DecidableEq, Repr

/-- Bytes inside one page, translated under a PASID. -/
def State.devPage (s : State) (p : PartId) (pasid : BitVec 20) (va n : Nat) : DevRead :=
  if windowBase < va + n then .fault
  else if s.blockedPage p pasid va then .wait
  else
    let x : TransCtx := ⟨p, pasid, false, .read⟩
    match s.walk x va with
    | .fault _ => .fault
    | .poison _ => .fault
    | .blocked => .wait
    | .ok t =>
      if !(inDram t.pa || inHost t.pa) then .fault
      else match s.hostBar x (BitVec.ofNat 51 va) t.pa with
        | none => if s.physBad t.pa n then .fault else .ok (s.readPhys p t.pa n)
        | some (.pri _) => .wait
        | some _ => .fault

/-- A run of at most one page's length, which may cross into the next page. -/
def State.devRead (s : State) (p : PartId) (pasid : BitVec 20) (va n : Nat) : DevRead :=
  let a := min n (0x8000 - va % 0x8000)
  match s.devPage p pasid va a with
  | .ok x =>
    if n == a then .ok x
    else match s.devPage p pasid (va + a) (n - a) with
      | .ok y => .ok (x ++ y)
      | r => r
  | r => r

/-! ## Commands and admission (R318, R319) -/

/-! Fields of a command (Table 19.3). -/

def cmdKind (c : BitVec 512) : Nat := (c.extractLsb' 0 8).toNat
def cmdPrio (c : BitVec 512) : Nat := (c.extractLsb' 8 8).toNat
def cmdGraph (c : BitVec 512) : Nat := (c.extractLsb' 64 64).toNat
def cmdHandle (c : BitVec 512) : Word := c.extractLsb' 128 64
def cmdValue (c : BitVec 512) : Word := c.extractLsb' 192 64

/-- Step 5 of Table 19.4: the bytes the kind does not use are zero, and PRIO is at most PCEIL. -/
def Queue.packetOk (q : Queue) (c : BitVec 512) : Bool :=
  c.extractLsb' 16 48 == 0 && c.extractLsb' 256 256 == 0 && decide (cmdPrio c ≤ q.pceil) && decide (cmdPrio c ≤ 7) &&
    (cmdKind c == 1 || (cmdPrio c == 0 && cmdGraph c == 0)) &&
    (cmdKind c != 0 || (cmdHandle c == 0 && cmdValue c == 0))

/-- Step 6: the graph descriptor is aligned and its first page lies in an enabled window. -/
def Queue.windowOk (q : Queue) (a : Nat) : Bool :=
  a % 64 == 0 && (List.range 4).any fun i =>
    decide ((q.window i).1 ≤ a / 0x8000) && decide (a / 0x8000 ≤ (q.window i).2)

/-- A handle that Table 19.3 allows a queue: a partition cell of a physical core of its partition. -/
def State.queueHandle (s : State) (q : Queue) (h : Word) : Option (CoreId × BitVec 12) :=
  match physHandle h with
  | some (c, i) => if s.coreIn q.part c then some (c, i) else none
  | none => none

/-- Steps 4 to 7 of Table 19.4. -/
def State.cmdBad (s : State) (q : Queue) (c : BitVec 512) : Option (BitVec 8) :=
  if 3 < cmdKind c || !q.kmask.getLsbD (cmdKind c) then some 0x05
  else if !q.packetOk c then some 0x06
  else if cmdKind c == 1 && !q.windowOk (cmdGraph c) then some 0x07
  else if cmdKind c != 0 && !(cmdKind c == 1 && cmdHandle c == 0) && (s.queueHandle q (cmdHandle c)).isNone then some 0x08
  else none

/-- A command that has been fetched passes admission and waits for its step, or halts the queue. -/
def State.accept (s : State) (q : BitVec 15) (c : BitVec 512) (req : Bool) : State :=
  match s.cmdBad (s.queue q) c with
  | some cause => s.haltQueue q cause 0 false
  | none => s.modQueue q fun k => { k with cmd := some c, req := req }

/-- COMMAND_FETCH (R316, R319, R374). -/
def execCommandFetch (q : BitVec 15) (s : State) : Out :=
  let k := s.queue q
  .next (if k.st != .active || k.ridx == k.widx || k.cmd.isSome then s
    else match k.ringBad with
      | some cause => s.haltQueue q cause 0 false
      | none =>
        match s.devRead k.part k.pasid (k.base + 64 * (k.ridx.toNat % 2 ^ k.log2)) 64 with
        | .wait => s
        | .fault => s.haltQueue q 0x04 0 false
        | .ok bs => s.accept q (recordOf bs) false)

/-- A request packet (R373): accepted only by an ACTIVE queue whose ring holds nothing unfetched. -/
def execRequestPacket (q : BitVec 15) (pasid : Option (BitVec 20)) (cmd : BitVec 512) (s : State) : Out :=
  let k := s.queue q
  .next (if !k.qmap.getLsbD 31 then s
    else if pasid != some k.pasid || k.st != .active || k.ridx != k.widx || k.cmd.isSome then s.notifyDrop q
    else match k.ringBad with
      | some cause => s.haltQueue q cause 0 false
      | none => s.accept q cmd true)

/-- A command is admitted: RIDX advances, and WIDX too for a request packet (R316, R373). -/
def State.admitted (s : State) (q : BitVec 15) : State :=
  s.modQueue q fun k => { k with ridx := k.ridx + 1, widx := if k.req then k.widx + 1 else k.widx, cmd := none,
                                 req := false }

/-- The command of a kind that waits for its step, on an ACTIVE queue. -/
def State.cmdOf (s : State) (q : BitVec 15) (kind : Nat) : Option (BitVec 512) :=
  let k := s.queue q
  if k.st == .active then k.cmd.filter fun c => cmdKind c == kind else none

/-- CMD_NOP (R318). -/
def execCmdNop (q : BitVec 15) (s : State) : Out :=
  .next (match s.cmdOf q 0 with
    | some _ => s.admitted q
    | none => s)

/-- CMD_WAIT (R318, R331): the queue blocks while the cell is below VALUE; the cell of a gated core is read later
(R412). -/
def execCmdWait (q : BitVec 15) (s : State) : Out :=
  .next (match s.cmdOf q 2 with
    | none => s
    | some c =>
      match physHandle (cmdHandle c) with
      | none => s
      | some (t, i) =>
        if (s.core t).gated then s
        else if (cmdValue c).toNat ≤ (s.cell t i).toNat then s.admitted q
        else (s.admitted q).modQueue q fun k => { k with st := .blocked, wait := some ⟨t, i, cmdValue c, false⟩ })

/-- QUEUE_UNBLOCK (R318, R331): a write has brought the cell to VALUE. -/
def execQueueUnblock (q : BitVec 15) (s : State) : Out :=
  let k := s.queue q
  .next (match k.wait with
    | some w => if k.st == .blocked && w.ready then s.modQueue q fun k => { k with st := .active, wait := none } else s
    | none => s)

/-- CMD_SIGNAL (R318): the add waits for the LAUNCHes admitted before. -/
def execCmdSignal (q : BitVec 15) (s : State) : Out :=
  .next (match s.cmdOf q 3 with
    | none => s
    | some c =>
      match physHandle (cmdHandle c) with
      | none => s
      | some (t, i) =>
        (s.admitted q).modQueue q fun k =>
          { k with signals := k.signals ++ [⟨t, i, cmdValue c, k.launches⟩] })

/-- Every LAUNCH that a SIGNAL waits for has completed. -/
def State.signalDue (s : State) (q : BitVec 15) (r : SignalRec) : Bool :=
  !(s.launches.any fun l => l.queue == q && decide (l.num < r.after)) && !(s.core r.core).gated

/-- The list without the first element that meets a test. -/
def dropFirst {α : Type} (f : α → Bool) : List α → List α
  | [] => []
  | x :: xs => if f x then xs else x :: dropFirst f xs

/-- SIGNAL_PERFORM (R318): the first SIGNAL that is due adds its VALUE. -/
def execSignalPerform (q : BitVec 15) (s : State) : Out :=
  let due := s.signalDue q
  .next (match (s.queue q).signals.find? due with
    | none => s
    | some r =>
      (s.modQueue q fun k => { k with signals := dropFirst due k.signals }).addTo (some (r.core, r.cell)) r.value)

/-! ## Graph descriptors (R320, R321, R429) -/

/-- A node record as read. -/
structure NodeRec where
  handle : Word
  gsize : Nat
  set : BitVec 16
  tag : BitVec 16
  reads : List (Nat × Nat)
  writes : List (Nat × Nat)
  img : Image
deriving DecidableEq, Repr

/-- Why a graph is refused: cause, SUB and EDGE; or it cannot be read yet. -/
inductive GraphStop where
  | halt (cause : BitVec 8) (sub : Nat) (edge : Bool)
  | wait
deriving DecidableEq, Repr

/-- n little-endian bytes at offset a of a record. -/
def field (bs : List Byte) (a n : Nat) : Nat := leNat ((bs.drop a).take n)

/-- The cores of a partition (R395), without those taken offline (R405). -/
def State.partCores (s : State) (p : PartId) : List CoreId :=
  (List.finRange 208).filter fun c => s.coreIn p c && !(s.core c).offline

/-- The 16 ranges of a node record. -/
def nodeRanges (bs : List Byte) : List (Nat × Nat) :=
  (List.range 16).map fun i => (field bs (16 + 16 * i) 8, field bs (24 + 16 * i) 8)

/-- A node record's own form (R320): counts in range, and unused ranges zero. -/
def nodeForm (bs : List Byte) : Bool :=
  let g := field bs 8 2
  let r := field bs 14 1
  let w := field bs 15 1
  decide (1 ≤ g) && decide (g ≤ 208) && decide (r ≤ 8) && decide (w ≤ 8) &&
    ((nodeRanges bs).drop (r + w)).all fun x => x == (0, 0)

/-- GANG_SIZE (Table 19.5, R295). -/
def State.gangBad (s : State) (q : Queue) (img : Image) (g : Nat) : Bool :=
  decide (q.gmax < g) || decide ((s.partCores q.part).length < g) || (img.gang != 0 && img.gang != g)

/-- Node record i (R429, step 2). -/
def State.nodeRec (s : State) (q : Queue) (a i : Nat) : Except GraphStop NodeRec :=
  match s.devRead q.part q.pasid (a + 16 + 272 * i) 272 with
  | .wait => .error .wait
  | .fault => .error (.halt 0x10 i false)
  | .ok bs =>
    if !nodeForm bs then .error (.halt 0x11 i false)
    else match (s.part q.part).images.find? fun m => m.handle.toNat == field bs 0 8 with
      | none => .error (.halt 0x13 i false)
      | some img =>
        let g := field bs 8 2
        let r := field bs 14 1
        let w := field bs 15 1
        if s.gangBad q img g then .error (.halt 0x12 i false)
        else .ok { handle := img.handle, gsize := g, set := BitVec.ofNat 16 (field bs 10 2),
                   tag := BitVec.ofNat 16 (field bs 12 2), reads := (nodeRanges bs).take r,
                   writes := ((nodeRanges bs).drop r).take w, img := img }

/-- Node records i to i + n − 1. -/
def State.nodeRecs (s : State) (q : Queue) (a : Nat) : Nat → Nat → Except GraphStop (List NodeRec)
  | _, 0 => .ok []
  | i, n + 1 => do
    let r ← s.nodeRec q a i
    let rest ← s.nodeRecs q a (i + 1) n
    pure (r :: rest)

/-- Edge record i (R429, step 3). -/
def State.edgeRec (s : State) (q : Queue) (a n i : Nat) : Except GraphStop Edge :=
  match s.devRead q.part q.pasid (a + 16 * i) 16 with
  | .wait => .error .wait
  | .fault => .error (.halt 0x10 i true)
  | .ok bs =>
    let e : Edge := ⟨field bs 0 2, field bs 2 2, field bs 4 1, BitVec.ofNat 64 (field bs 8 8)⟩
    if n ≤ e.src || n ≤ e.dst || field bs 5 3 != 0 || 2 < e.kind || (e.key != 0 && e.kind != 1) || e.src == e.dst then
      .error (.halt 0x11 i true)
    else .ok e

/-- Edge records i to i + m − 1. -/
def State.edgeRecs (s : State) (q : Queue) (a n : Nat) : Nat → Nat → Except GraphStop (List Edge)
  | _, 0 => .ok []
  | i, m + 1 => do
    let e ← s.edgeRec q a n i
    let rest ← s.edgeRecs q a n (i + 1) m
    pure (e :: rest)

/-- The nodes that some nodes lead to along edges. -/
def reach (edges : List Edge) : Nat → List Nat → List Nat
  | 0, seen => seen
  | fuel + 1, seen =>
    let new := ((edges.filter fun e => seen.contains e.src && !seen.contains e.dst).map (·.dst)).eraseDups
    if new.isEmpty then seen else reach edges fuel (seen ++ new)

/-- The nodes after node i, along edges of every KIND: R311 and Table 19.5 speak of paths of dependence edges, and Table 19.5
names KIND 0 so; that the other kinds, which also make a node wait, belong to a path is the model's choice (assumption log
28). -/
def successors (edges : List Edge) (n i : Nat) : List Nat :=
  reach edges n ((edges.filter fun e => e.src == i).map (·.dst)).eraseDups

/-- A node has two default edges, or keyed edges and no default (R312). -/
def defaultBad (edges : List Edge) (i : Nat) : Bool :=
  let out := edges.filter fun e => e.src == i
  let defaults := (out.filter fun e => e.kind == 2).length
  decide (1 < defaults) || (defaults == 0 && out.any fun e => e.kind == 1)

/-- Two lists of address ranges share a byte. -/
def rangesMeet (x y : List (Nat × Nat)) : Bool :=
  x.any fun a => y.any fun b => decide (a.1 < b.1 + b.2) && decide (b.1 < a.1 + a.2) && a.2 != 0 && b.2 != 0

/-- The address sets of two nodes overlap (R311). -/
def setsMeet (x y : NodeRec) : Bool :=
  rangesMeet x.writes y.writes || rangesMeet x.writes y.reads || rangesMeet x.reads y.writes

/-- The cores a co-resident set needs. -/
def setCores (nodes : List NodeRec) (v : BitVec 16) : Nat := ((nodes.filter fun r => r.set == v).map (·.gsize)).sum

/-- The first refusal of the graph as a whole (R429, steps 4 to 6). -/
def State.graphBad (s : State) (q : Queue) (nodes : List NodeRec) (edges : List Edge) : Option GraphStop :=
  let n := nodes.length
  let idx := List.range n
  let after := fun i => successors edges n i
  match idx.find? (defaultBad edges) with
  | some i => some (.halt 0x11 i false)
  | none =>
    match idx.find? fun i => (after i).contains i with
    | some i => some (.halt 0x11 i false)
    | none =>
      let sets := ((nodes.map (·.set.toNat)).filter (· != 0)).eraseDups.mergeSort
      match sets.find? fun v => decide ((s.partCores q.part).length < setCores nodes (BitVec.ofNat 16 v)) with
      | some v => some (.halt 0x15 ((idx.find? fun i => (nodes[i]?).any fun r => r.set.toNat == v).getD 0) false)
      | none =>
        let meets := fun i => idx.any fun j => decide (i < j) && !(after i).contains j && !(after j).contains i &&
          (match nodes[i]?, nodes[j]? with
          | some x, some y => setsMeet x y
          | _, _ => false)
        (idx.find? meets).map fun i => .halt 0x14 i false

/-- GRAPH_CHECK (R429): the nodes and edges of an accepted graph, or the first refusal. -/
def State.graphCheck (s : State) (q : Queue) (a : Nat) : Except GraphStop (List NodeRec × List Edge) :=
  match s.devRead q.part q.pasid a 16 with
  | .wait => .error .wait
  | .fault => .error (.halt 0x10 0 false)
  | .ok bs =>
    let n := field bs 0 2
    let m := field bs 2 2
    if n < 1 || 4096 < n || 16384 < m || field bs 4 4 != 0 then .error (.halt 0x11 0 false)
    else do
      let nodes ← s.nodeRecs q a 0 n
      let edges ← s.edgeRecs q (a + field bs 8 8) n 0 m
      match s.graphBad q nodes edges with
      | some e => .error e
      | none => .ok (nodes, edges)

/-! ## Nodes and edges (R322, R312) -/

/-- The state with the nodes that meet a test changed. -/
def State.mapNodes (s : State) (sel : Node → Bool) (f : Node → Node) : State :=
  { s with nodes := s.nodes.map fun n => if sel n then f n else n }

/-- The node of a key. -/
def State.node (s : State) (k : NodeKey) : Option Node := s.nodes.find? fun n => n.key == k

/-- The node with one key changed. -/
def State.modNode (s : State) (k : NodeKey) (f : Node → Node) : State := s.mapNodes (fun n => n.key == k) f

/-- Nodes of one LAUNCH. -/
def Node.ofLaunch (n : Node) (l : Launch) : Bool := n.key.queue == l.queue && n.key.seq == l.seq

/-- Nodes of one co-resident set. -/
def Node.sameSet (n m : Node) : Bool :=
  n.key == m.key || (n.set != 0 && n.set == m.set && n.key.queue == m.key.queue && n.key.seq == m.key.seq)

/-- Final states (Table 19.6). -/
def Node.over (n : Node) : Bool := n.st == .retired || n.st == .skipped

/-- The edge is taken by a source that has ended (Table 19.6, R312, R348). -/
def edgeTaken (l : Launch) (src : Node) (i : Nat) (e : Edge) : Bool :=
  if src.st != .retired || src.aband then false
  else
    let hit := (l.edges.zipIdx.find? fun x => x.1.src == e.src && x.1.kind == 1 && x.1.key == src.result).map (·.2)
    match e.kind with
    | 0 => true
    | 1 => hit == some i
    | _ => hit.isNone

/-- What the incoming edges of a node come to: unresolved, taken or none taken. -/
def State.incoming (s : State) (l : Launch) (n : Node) : Option Bool :=
  let inc := l.edges.zipIdx.filter fun x => x.1.dst == n.key.node.toNat
  let src := fun (e : Edge) => s.nodes.find? fun m => m.ofLaunch l && m.key.node.toNat == e.src
  if inc.isEmpty then some true
  else if inc.any fun x => (match src x.1 with
      | some m => !m.over
      | none => false) then none
  else some (inc.any fun x => match src x.1 with
      | some m => edgeTaken l m x.2 x.1
      | none => false)

/-- One pass over the WAITING nodes of a LAUNCH: those with resolved edges are armed or skipped. -/
def State.resolvePass (s : State) (l : Launch) : State :=
  s.mapNodes (fun n => n.ofLaunch l && n.st == .waiting && !n.armed) fun n =>
    match s.incoming l n with
    | none => n
    | some true => { n with armed := true }
    | some false => { n with st := .skipped }

/-- A node counts as in the well (R322, R346): READY, or PREEMPTED with every other member of its set saved or
over. -/
def State.inWell (s : State) (n : Node) : Bool :=
  n.st == .ready ||
    (n.st == .preempted && s.nodes.all fun m => !m.sameSet n || m.over || m.st == .preempted)

/-- A set, or a node alone, is ready: each member is armed or over. -/
def State.setArmed (s : State) (n : Node) : Bool :=
  s.nodes.all fun m => !m.sameSet n || m.over || (m.st == .waiting && m.armed)

/-- Some partitions are owed a dispatch (R324): it runs once, at the end of the tick (R330). -/
def State.owe (s : State) (sel : PartId → Partition → Bool) : State :=
  { s with parts := s.parts.mapFinIdx fun i r h => if sel ⟨i, h⟩ r then { r with owed := true } else r }

/-- Cores have become free: every partition with one of them is owed a dispatch (R324). -/
def State.oweCores (s : State) (cs : List CoreId) : State := s.owe fun _ r => cs.any fun c => r.units.getLsbD (c.val / 8)

/-- Armed nodes whose set is ready enter the well (R322, R323), and their partitions are owed a dispatch. -/
def State.enterWell (s : State) : State :=
  let enters := fun (n : Node) => n.st == .waiting && n.armed && s.setArmed n
  let s' := s.mapNodes enters fun n => { n with st := .ready, readyAt := s.tick, since := s.viewOf n.part }
  s'.owe fun p _ => s.nodes.any fun n => n.part == p && enters n

/-- Resolve edges until nothing changes: a skipped node resolves its own. -/
def State.resolveRun (s : State) : Nat → State
  | 0 => s
  | n + 1 => (s.launches.foldl State.resolvePass s).resolveRun n

/-- Edges resolved and the well entered, after some node has ended. -/
def State.resolve_ (s : State) : State := (s.resolveRun (s.nodes.length + 1)).enterWell

/-! ## Cores (R325, R347, R395, R396) -/

/-- A node holds a core. -/
def State.heldBy (s : State) (c : CoreId) : Option Node := s.nodes.find? fun n => n.cores.contains c

/-- The start has enabled the cores of a core's die (R2, R385). -/
def State.dieUp (s : State) (c : CoreId) : Bool := if dieOf c == 0 then s.boot.en0 != 0 else s.boot.en1 != 0

/-- Some gang of a partition holds cores. -/
def State.hasGangs (s : State) (p : PartId) : Bool := s.nodes.any fun n => n.part == p && !n.cores.isEmpty

/-- The units a partition has (R394, R396): those of its record while it is enabled, and those it was disabled with while
its gangs run. -/
def State.unitsOf (s : State) (p : PartId) : BitVec 26 :=
  let r := s.part p
  (if r.en then r.units else 0) ||| (if s.hasGangs p then r.kept else 0)

/-- A core is free for a partition: the start enabled it, no gang of any partition has it, it is zeroed and in service, it
is not to be taken out of service (R405), and no other partition's gang still runs on the units it belongs to (R396). -/
def State.coreFree (s : State) (p : PartId) (c : CoreId) : Bool :=
  let k := s.core c
  s.coreIn p c && s.dieUp c && k.task.isNone && !k.zeroing && !k.offline && !k.worn && !k.gated && (s.heldBy c).isNone &&
    !((List.finRange 64).any fun q => q != p && s.hasGangs q && (s.unitsOf q).getLsbD (c.val / 8))

/-- What is not a task's stays on a core whose task state is cleared. -/
def Core.bare (k : Core) (other : Bool) : Core :=
  { Core.zero with cells := if other then [] else k.cells.filter (fun e => decide (3840 ≤ e.1)),
                   tlb := k.tlb, icache := k.icache.filter (fun l => decide (l.f.pc.toNat < windowBase)),
                   lastPart := k.lastPart, offline := k.offline, mismatches := k.mismatches, worn := k.worn,
                   gated := k.gated }

/-- A core's state after zeroing (R347): a core that passes to another partition loses its partition cells too
(R51). -/
def Core.zeroed (k : Core) (other : Bool) : Core := { k.bare other with zeroing := true }

/-- A count state of zeros; one that has failed stays so until the zeroing of R347 (R404). -/
def Count.cleared (n : Count) : Count := { Count.zero with bad := n.bad }

/-- A core whose task has ended, or before another task of its partition starts (R14, R16, R45, R404): the cistern and the
weight buffer are as they were. -/
def Core.ended (k : Core) : Core :=
  { k.bare false with
      tiles := k.tiles.map fun t => { Tile.zero with cnt := t.cnt.cleared },
      accs := k.accs.map fun t => { Acc.zero with cnt := t.cnt.cleared },
      sigs := k.sigs.map fun t => { Sig.zero with cnt := t.cnt.cleared },
      cistern := k.cistern, wbuf := k.wbuf }

/-- A core that passes out of its partition is zeroed and serves none (R347, R396, R397). -/
def Core.passOut (k : Core) : Core := { k.zeroed true with lastPart := none }

/-- A core is granted to a node's partition: it is zeroed if it last served another (R347). -/
def Core.grant (k : Core) (p : PartId) : Core :=
  if k.lastPart == some p || k.lastPart == none then { k with lastPart := some p }
  else { k.zeroed true with lastPart := some p }

/-- A node takes one free core. -/
def State.grantCore (s : State) (n : NodeKey) (p : PartId) (c : CoreId) : State :=
  (s.modNode n fun m => { m with cores := m.cores ++ [c] }).modCore c fun k => k.grant p

/-- The members of a DISPATCHING unit, lowest node first. -/
def State.unitOf (s : State) (n : Node) : List Node := s.nodes.filter fun m => m.sameSet n && m.st == n.st

/-- DISPATCHING nodes of a partition take every free core until each has GSIZE (R325). -/
def State.gather (s : State) (p : PartId) : State :=
  (s.partCores p).foldl (fun s c =>
    if s.coreFree p c then
      match s.nodes.find? fun n => n.part == p && n.st == .dispatching && decide (n.cores.length < n.gsize) with
      | some n => s.grantCore n.key p c
      | none => s
    else s) s

/-! ## Dispatch (R323 to R325, R397) -/

/-- Ticks a node has spent READY, in its partition's view (R409). -/
def State.readyTicks (s : State) (n : Node) : Nat := n.spent + (s.viewOf n.part - n.since)

/-- Effective level (R323). -/
def Node.level (n : Node) : Nat := min 7 (n.prio + n.aged)

/-- Levels that time READY has given. -/
def State.ageNode (s : State) (n : Node) : Node :=
  if s.inWell n then { n with aged := max n.aged (s.readyTicks n / 2 ^ 24) } else n

/-- FIFO order in one queue (R323): entry, LAUNCH, node index; a set by its lowest member that is not SKIPPED. -/
def State.fifoKey (s : State) (n : Node) : Nat × Nat × Nat :=
  let num := ((s.launches.find? fun l => n.ofLaunch l).map (·.num)).getD 0
  let low := ((s.nodes.filter fun m => m.sameSet n && m.st != .skipped).map fun m => m.key.node.toNat).foldl min n.key.node.toNat
  (n.readyAt, num, low)

/-- Lexicographic order of FIFO keys. -/
def keyBefore (a b : Nat × Nat × Nat) : Bool :=
  decide (a.1 < b.1) || (a.1 == b.1 && (decide (a.2.1 < b.2.1) || (a.2.1 == b.2.1 && decide (a.2.2 < b.2.2))))

/-- The first node of a list in FIFO order. -/
def State.first (s : State) : List Node → Option Node
  | [] => none
  | n :: rest =>
    match s.first rest with
    | none => some n
    | some m => if keyBefore (s.fifoKey m) (s.fifoKey n) then some m else some n

/-- The head of a queue: only it is ever chosen. -/
def State.head (s : State) (q : Nat) : Option Node :=
  s.first (s.nodes.filter fun n => n.key.queue.toNat == q && s.inWell n)

/-- The heads that compete in a partition. -/
def State.heads (s : State) (p : PartId) : List Node :=
  ((s.nodes.filter fun n => s.inWell n).map fun n => n.key.queue.toNat).eraseDups.filterMap fun q =>
    (s.head q).filter fun n => n.part == p

/-- Q of R324. -/
def quantum : Int := 2 ^ 20

/-- The deficits of the queues whose heads stand at one level, after replenishment (R324): each gains Q until one is
positive. -/
def State.replenishLevel (s : State) (hs : List Node) : State :=
  let ds := hs.map fun n => (s.queue n.key.queue).deficit
  match ds.max? with
  | none => s
  | some d =>
    if 0 < d then s
    else hs.foldl (fun s n => s.modQueue n.key.queue fun k => { k with deficit := k.deficit + ((-d) / quantum + 1) * quantum }) s

/-- Replenishment at every level with a ready head (R324). -/
def State.replenish (s : State) (hs : List Node) : State :=
  ((hs.map Node.level).eraseDups).foldl (fun s l => s.replenishLevel (hs.filter fun n => n.level == l)) s

/-- Round robin over queue numbers from a start on (R324). -/
def pickRobin (start : Nat) (hs : List Node) : Option Node :=
  let low := fun (l : List Node) => l.foldl (fun a n => match a with
    | none => some n
    | some m => if n.key.queue.toNat < m.key.queue.toNat then some n else some m) (none : Option Node)
  match low (hs.filter fun n => decide (start ≤ n.key.queue.toNat)) with
  | some n => some n
  | none => low hs

/-- Slice group of a partition (Table 25.1). -/
def State.groupOf (s : State) (p : PartId) : SliceGroup := s.groups[(s.part p).group.toNat]'(s.part p).group.isLt

/-- The state with a slice group changed. -/
def State.modGroup (s : State) (g : BitVec 4) (f : SliceGroup → SliceGroup) : State :=
  { s with groups := s.groups.set g.toNat (f (s.groups[g.toNat]'g.isLt)) g.isLt }

/-- A partition is an enabled member of a slice group. -/
def State.inGroup (s : State) (h : PartId) (g : BitVec 4) : Bool :=
  let r := s.part h
  r.en && r.shared && r.group == g

/-- A partition may dispatch: enabled, and the holder of its group's units when it shares them (R396, R397). Another holder
yields once no gang of it runs, if it has left the group or has nothing to run and no slice. -/
def State.mayDispatch (s : State) (p : PartId) : Bool :=
  let r := s.part p
  let g := s.groupOf p
  r.en && (!r.shared || match g.holder with
    | none => true
    | some h => if h == p then !g.ending
                else !s.hasGangs h && (!s.inGroup h r.group ||
                  (g.start.isNone && !(s.nodes.any fun n => n.part == h && s.inWell n))))

/-- The first dispatch of a holder begins its slice, in its view (R397, R409). -/
def State.takeSlice (s : State) (p : PartId) : State :=
  if !(s.part p).shared then s
  else s.modGroup (s.part p).group fun g =>
    { g with holder := some p, start := if g.holder == some p then g.start.or (some (s.viewOf p)) else some (s.viewOf p),
             ending := false, next := none }

/-- A chosen node and its set become DISPATCHING (R322, R325). -/
def State.choose (s : State) (p : PartId) (n : Node) : State :=
  let s := (s.takeSlice p).modPart p fun r => { r with robin := r.robin.setIfInBounds n.level (n.key.queue.toNat + 1) }
  s.mapNodes (fun m => m.sameSet n && s.inWell m) fun m =>
    { m with st := .dispatching, spent := s.readyTicks m, cores := [] }

/-- A queue with no READY, DISPATCHING or RUNNING node has no deficit (R324). -/
def State.idleDeficits (s : State) : State :=
  let used := fun (q : Nat) => s.nodes.any fun n =>
    n.key.queue.toNat == q && (n.st == .ready || n.st == .dispatching || n.st == .running || n.st == .preempted)
  { s with queues := s.queues.map fun q => if used q.1 then q else (q.1, { q.2 with deficit := 0 }) }

/-- DISPATCH (R324, R325) in one partition: a head is chosen if no node is DISPATCHING, and it takes the free cores. -/
def State.dispatch (s : State) (p : PartId) : State :=
  let s := { s.idleDeficits with nodes := s.nodes.map s.ageNode }
  if !s.mayDispatch p then s
  else
    let hs := s.heads p
    let s := s.replenish hs
    let due := hs.filter fun n => decide (0 < (s.queue n.key.queue).deficit)
    let top := (due.map Node.level).foldl max 0
    if s.nodes.any fun n => n.part == p && n.st == .dispatching then s
    else match pickRobin ((s.part p).robin[top]!) (due.filter fun n => n.level == top) with
      | none => s
      | some n => (s.choose p n).gather p

/-! ## Deficits and time (R324) -/

/-- Cores the nodes of a queue hold: those of RUNNING gangs and those gathered. -/
def State.coresHeld (s : State) (q : Nat) : Nat :=
  ((s.nodes.filter fun n => n.key.queue.toNat == q).map fun n => n.cores.length).sum

/-- Some ticks pass: every queue pays for the cores it holds (R324). -/
def State.charge (s : State) (dt : Nat) : State :=
  if dt == 0 then s
  else { s with queues := s.queues.map fun q => (q.1, { q.2 with deficit := q.2.deficit - (dt * s.coresHeld q.1 : Nat) }) }

/-! ## Launches -/

/-- A node of an accepted graph. -/
def NodeRec.node (r : NodeRec) (key : NodeKey) (p : PartId) (pasid : BitVec 20) (prio : Nat) : Node where
  key := key
  st := .waiting
  part := p
  pasid := pasid
  prio := prio
  gsize := r.gsize
  set := r.set
  tag := r.tag
  img := r.img
  readyAt := 0
  since := 0
  spent := 0
  aged := 0
  cores := []
  retired := []
  result := 0
  first := none
  draining := false
  saves := []
  writes := r.writes
  domDie := 0
  domPkg := 0
  armed := false
  aband := false

/-- A graph is accepted: its nodes are WAITING, then READY where nothing precedes them. -/
def State.launch (s : State) (q : BitVec 15) (c : BitVec 512) (nodes : List NodeRec) (edges : List Edge) : State :=
  let k := s.queue q
  let seq := BitVec.ofNat 32 k.launches
  let l : Launch := ⟨q, seq, k.launches, physHandle (cmdHandle c), cmdValue c, edges⟩
  let ns := nodes.mapIdx fun i r => r.node ⟨q, seq, BitVec.ofNat 12 i⟩ k.part k.pasid (cmdPrio c)
  let s := (s.admitted q).modQueue q fun k => { k with launches := k.launches + 1 }
  { s with launches := s.launches ++ [l], nodes := s.nodes ++ ns }.resolve_

/-- CMD_LAUNCH (R318, R321, R330): a refused graph halts the queue, and none of it enters the well. -/
def execCmdLaunch (q : BitVec 15) (s : State) : Out :=
  .next (match s.cmdOf q 1 with
    | none => s
    | some c =>
      match s.graphCheck (s.queue q) (cmdGraph c) with
      | .error .wait => s
      | .error (.halt cause sub edge) => s.haltQueue q cause sub edge
      | .ok (nodes, edges) => s.launch q c nodes edges)

/-- LAUNCH_COMPLETE (R318, R375): every node is over; the add, then the interrupt. -/
def execLaunchComplete (q : BitVec 15) (seq : BitVec 32) (s : State) : Out :=
  .next (match s.launches.find? fun l => l.queue == q && l.seq == seq with
    | none => s
    | some l =>
      if (s.nodes.any fun n => n.ofLaunch l && !n.over) || s.cellGated l.handle then s
      else
        let s := s.addTo l.handle l.value
        let s := { s with launches := s.launches.filter (fun m => !(m.queue == q && m.seq == seq)),
                          nodes := s.nodes.filter fun n => !n.ofLaunch l }
        let k := s.queue q
        if k.qirq.getLsbD 16 && k.qmap.getLsbD 31 then s.sendIrq k.fn (k.qirq.extractLsb' 0 11) else s)

/-- AGING_STEP (R323): the head of a queue has spent another 2^24 ticks READY. -/
def execAgingStep (q : BitVec 15) (s : State) : Out :=
  .next (match s.head q.toNat with
    | none => s
    | some n =>
      if n.aged < s.readyTicks n / 2 ^ 24 then
        s.mapNodes (fun m => m.sameSet n && s.inWell m) fun m => { m with aged := m.aged + 1 }
      else s)

/-! ## Starting a gang (R14, R38, R284, R296, R297) -/

/-- A core as a task of its partition finds it (R14, R45, R51, R284): task state zero, the cistern and the weight
buffer as they were, the CSRs of R335 at the partition's defaults, and CTRL running at its entry point. Fetch sees the
cistern as the start finds it (R276, assumption log 10). Of a partition default SHVECD that the host wrote with reserved bits
set, SHVEC takes bits [50:0], the width it has, and keeps bit 0: the spec does not say what a reserved bit does there
(assumption log 29). -/
def Core.startTask (k : Core) (t : Task) (r : Partition) (entry : VAddr) : Core :=
  { k.ended with
      codeView := some k.cistern, task := some t, lastPart := some t.part,
      udeleg0 := r.udeleg0d &&& ~~~((1 : Word) <<< 34), udeleg1 := r.udeleg1d &&& ~~~((0xFFF : Word) <<< 48), shvec := r.shvecd.setWidth 51,
      ctrl := { Stream.zero with st := .running, pc := entry } }

/-- Cores of a unit on a die. -/
def dieCores (unit : List Node) (die : Nat) : Nat := ((unit.flatMap (·.cores)).filter fun c => dieOf c == die).length

/-- MEMBER of a core of a node (R38). -/
def Node.member (n : Node) (unit : List Node) (c : CoreId) : Word :=
  let die := dieOf c
  let set := n.set != 0
  (0 : BitVec 15) ++ BitVec.ofNat 1 die ++ (if set then BitVec.ofNat 8 (unit.flatMap (·.cores)).length else 0) ++
    (if set then BitVec.ofNat 8 (dieCores unit die) else 0) ++ n.domPkg ++
    (if set then n.domDie + BitVec.ofNat 16 die else 0)

/-- The task of role i of a gang. -/
def Node.task (n : Node) (unit : List Node) (i : Nat) (c : CoreId) (now : Nat) : Task where
  key := n.key
  part := n.part
  pasid := n.pasid
  image := n.img.image
  tag := n.tag
  role := i
  gsize := n.gsize
  member := n.member unit c
  binding := n.cores
  entryLoad := n.img.entryLoad
  entryExec := n.img.entryExec
  entryStore := n.img.entryStore
  start := now

/-- A DISPATCHING unit has all its cores, and every one is zeroed and not gated (R346, R347, R412). -/
def State.unitReady (s : State) (unit : List Node) : Bool :=
  !unit.isEmpty && unit.all fun n => n.st == .dispatching && n.cores.length == n.gsize &&
    n.cores.all fun c => !(s.core c).zeroing && !(s.core c).gated

/-- Fresh domain identifiers for a co-resident set: one for the package, one for each die. -/
def State.giveDomains (s : State) (n : Node) : State :=
  if n.set == 0 then s
  else
    let b := 3 * (s.nextDom % 21845)
    { s.mapNodes (fun m => m.sameSet n && m.st == .dispatching) (fun m =>
        { m with domPkg := BitVec.ofNat 16 (b + 1), domDie := BitVec.ofNat 16 (b + 2) }) with nextDom := s.nextDom + 1 }

/-- Cores left over free let dispatch run again in this tick (R324, R326). -/
def State.oweRest (s : State) (p : PartId) : State :=
  if (s.partCores p).any (s.coreFree p) then s.owe fun q _ => q == p else s

/-- Where no invalidation of a partition has covered every address yet, fetch of what none covers sees memory as the first
start of a task finds it (R276, assumption log 10). -/
def State.firstView (s : State) (p : PartId) : State :=
  if s.codeViews.any fun w => w.part == p && w.pasid == none && !w.ipa && w.lo == 0 && w.hi == 2 ^ 51 then s
  else { s with codeViews := s.codeViews ++ [⟨p, none, false, 0, 2 ^ 51, s.gmem⟩] }

/-- The roles of one node start on their cores. -/
def State.startNode (s : State) (unit : List Node) (n : Node) : State :=
  let s := n.cores.zipIdx.foldl (fun s ci =>
    (s.firstView n.part).modCore ci.1 fun k => k.startTask (n.task unit ci.2 ci.1 (s.viewOf n.part)) (s.part n.part) n.img.entryCtrl) s
  s.modNode n.key fun m => { m with st := .running }

/-- Banks that wait for a gang to record take the first that passes their filter (R419). -/
def State.lfStart (s : State) (unit : List Node) : State :=
  if s.banks.toList.all fun b => !b.lfctl.getLsbD 0 then s
  else
    let passes := fun (i : Nat) (n : Node) => match n.cores.head? with
      | some c => s.bankCovers (BitVec.ofNat 7 i) c
      | none => false
    { s with banks := s.banks.mapIdx fun i (b : MBank) =>
        if b.lfctl.getLsbD 0 && b.lf.key.isNone && !b.lf.full then
          { b with lf := { b.lf with key := (unit.find? (passes i)).map (·.key) } }
        else b }

/-- GANG_START (R284, R322, R325): the whole unit starts in one step. -/
def execGangStart (k : NodeKey) (s : State) : Out :=
  .next (match s.node k with
    | none => s
    | some n =>
      if n.st != .dispatching || n.first.isSome || !s.unitReady (s.unitOf n) then s
      else
        let s := s.giveDomains n
        let unit := s.nodes.filter fun m => m.sameSet n && m.st == .dispatching
        ((unit.foldl (fun s m => s.startNode unit m) s).lfStart unit).oweRest n.part)

/-! ## Slices (R397) -/

/-- Every core that last served a partition and that nothing of it holds is zeroed and serves none. -/
def State.passOutOf (s : State) (p : PartId) : State :=
  { s with cores := s.cores.map fun (k : Core) => if k.lastPart == some p && k.task.isNone then k.passOut else k }

/-- Some core of the units is being zeroed. -/
def State.unitsZeroing (s : State) (units : BitVec 26) : Bool :=
  (List.finRange 208).any fun c => units.getLsbD (c.val / 8) && (s.core c).zeroing

/-- Once the last gang of the holder of a group is gone at a slice end, every unit is zeroed; then its successor takes
them (R347, R397, Table 25.2). -/
def State.sliceStep (s : State) (p : PartId) : State :=
  let g := s.groupOf p
  if !(s.part p).shared || g.holder != some p || !g.ending || s.hasGangs p then s
  else if s.cores.any fun k => k.lastPart == some p then s.passOutOf p
  else if s.unitsZeroing (s.part p).units then s
  else (s.modGroup (s.part p).group fun g => { holder := g.next, start := none, ending := false, next := none, sent := false, saved := false }).owe
    fun q _ => g.next == some q

/-- A partition that is not enabled and has no gang left gives its units up, zeroed (R396); and once an INV_ALL of its
context has drained too, and none of its nodes is left, its key is destroyed (R391). -/
def State.leaveUnits (s : State) (p : PartId) : State :=
  let r := s.part p
  if r.en || s.hasGangs p then s
  else if s.cores.any fun k => k.lastPart == some p then s.passOutOf p
  else if r.key.isSome && r.invDrained && !s.unitsZeroing (r.units ||| r.kept) &&
      !(s.nodes.any fun n => n.part == p && !n.over) then
    s.modPart p fun r => { r with key := none, kept := 0 }
  else s

/-- A node's cores return to the well of free cores: their tasks are gone (R16, R330). -/
def State.freeCores (s : State) (n : Node) (zero : Bool) : State :=
  let s := n.cores.foldl (fun s c => s.modCore c fun k => if zero then k.zeroed false else k.ended) s
  let s := { s with watches := s.watches.filter fun w => !n.cores.contains w.c }
  (s.modNode n.key fun m => { m with cores := [] }).oweCores n.cores

/-- NODE_RETIRE (R322, R330): the cores are freed first, then edges resolve, then the well is entered; dispatch runs at the
end of the tick. A queue that has no node left has no deficit (R324). -/
def State.retireNode (s : State) (n : Node) (aband zero : Bool) : State :=
  let s := (s.freeCores n zero).modNode n.key fun m =>
    { m with st := .retired, aband := aband, draining := false, first := none, saves := [] }
  s.resolve_.idleDeficits

/-- The core's task has nothing left to do (R16). -/
def Core.taskDone (k : Core) : Bool :=
  k.load.st == .ended && k.exec.st == .ended && k.store.st == .ended && k.ctrl.st == .ended && k.pumpq.isEmpty &&
    k.pump0 == .idle && k.pump1 == .idle && k.aq.isEmpty && k.geom.isEmpty && !k.saving

/-- A role's task ends while others of its gang go on (R16, R285): its streams are IDLE (Table 1.3) and nothing of it is
kept, but that the core stays the gang's. Its task cells end with it, at zero; what another role's operation on one finds then,
and what becomes of a SEMWT that waits on one, the spec does not say: operations act on the cell, and a SEMWT goes on with the
value it last saw until an operation writes the cell (assumption log 28). -/
def Core.retireRole (k : Core) : Core := { k.ended with task := k.task }

/-- TASK_RETIRE (R16, R18): a role retires, and its node with the last one. -/
def execTaskRetire (c : CoreId) (s : State) : Out :=
  let k := s.core c
  .next (match k.task with
    | none => s
    | some t =>
      match s.node t.key with
      | none => s
      | some n =>
        if !k.taskDone || k.gated || n.retired.contains t.role then s
        else
          let s := s.modNode n.key fun m =>
            { m with retired := m.retired ++ [t.role], result := if t.role == 0 then k.posted else m.result }
          match s.node t.key with
          | some m => if m.retired.length == m.gsize then s.retireNode m false false else s.modCore c Core.retireRole
          | none => s)

/-! ## The end of a tick (R324, R325, R330) -/

/-- What a partition owes at the end of a tick: a DISPATCHING node takes every core that is free, and where cores have
become free or a node READY in the tick, dispatch runs once. -/
def State.settlePart (s : State) (p : PartId) : State :=
  let s := if s.nodes.any fun n => n.part == p && n.st == .dispatching then s.gather p else s
  if (s.part p).owed then (s.modPart p fun r => { r with owed := false }).dispatch p else s

/-- The end of a tick: units pass on, and every partition is served, lowest number first. -/
def State.settle (s : State) : State :=
  let ps := List.finRange 64
  let s := ps.foldl (fun s p => (s.sliceStep p).leaveUnits p) s
  ps.foldl State.settlePart s

end Sys2Proof.Machine
end

