-- ==== Sys2Proof/Machine/Peer.lean ====
section
/-! DEFINITION. What arrives from other devices: the key check, exports, sequence numbers, and performing a packet once
(spec/23 R380, R384, spec/12 R277, spec/17 R299). -/

namespace Sys2Proof.Machine

/-- The partition a key admits to, by the active bank of the key table (R380). -/
def Fabric.keyPart (f : Fabric) (key : BitVec 16) : Option PartId :=
  match (if f.keyBank then f.keyB else f.keyA).get? key.toNat with
  | some e => if e.getLsbD 31 then cmdPart ((e.extractLsb' 0 10).setWidth 20) else none
  | none => none

/-- What performing a packet comes to: done with an answer, or held for later, for a gang or for a page. -/
inductive PeerRes where
  | done (s : State) (r : AckRes)
  | hold (gang : Option NodeKey)

/-- The gang an export record names: that of the node admitted last and not over (R380). -/
def State.exportedGang (s : State) (p : PartId) (e : ExportRec) : Option Node :=
  let num := fun (n : Node) => ((s.launches.find? fun l => n.ofLaunch l).map (·.num)).getD 0
  (s.nodes.filter fun n => n.part == p && n.key.queue == e.queue && n.key.node == e.node && !n.over).foldl
    (fun a n => match a with
      | none => some n
      | some m => if num m < num n then some n else some m) (none : Option Node)

/-- The gang that a packet's export names, or the one it is held for, while that is not over (R299, R380). -/
def State.gangOf (s : State) (p : PartId) (es : List ExportRec) (gang : Option NodeKey) : Option Node :=
  match gang with
  | some k => s.nodes.find? fun n => n.key == k && n.part == p && !n.over
  | none => es.findSome? (s.exportedGang p)

/-- A semaphore operation from a peer (R50, R234, R299, R380, R412): PERMISSION without an export, PEER_LOST without a
gang, BAD_HANDLE past its roles; it is held for its gang while that is not resident or the core is gated. -/
def State.peerSem (s : State) (p : PartId) (es : List ExportRec) (gang : Option NodeKey) (k : SemKind) (h b cmp : Word)
    (mismatch : Bool) : PeerRes :=
  if es.isEmpty && gang.isNone then .done s (.reject Cause.permission)
  else match s.gangOf p es gang with
    | none => .done s (.reject Cause.peerLost)
    | some n =>
      let role := (h.extractLsb' 12 8).toNat
      if n.gsize ≤ role then .done s (.reject Cause.badHandle)
      else if n.st != .running then .hold (some n.key)
      else match n.cores[role]? with
        | none => .hold (some n.key)
        | some c =>
          if (s.core c).gated || (s.core c).saving then .hold (some n.key)
          else if mismatch then .done (s.mismatch c .sem 0) (.reject Cause.pipeCheck)
          else
            let (s, old) := s.cellOpAt outsideRank k c (h.extractLsb' 0 12) b cmp
            .done s (.ok old)

/-- The physical address of a unit at an exported address, or the cause that refuses it (R366, R380). -/
def State.peerPlace (s : State) (p : PartId) (e : ExportRec) (va : VAddr) (n : Nat) : Except (Option (BitVec 7)) Nat :=
  if va.toNat % n != 0 then .error (some Cause.misaligned)
  else if windowBase ≤ va.toNat then .error (some Cause.permission)
  else if s.blockedPage p e.pasid va.toNat then .error none
  else match s.walk ⟨p, e.pasid, false, .write⟩ va.toNat with
    | .fault c => .error (some c)
    | .poison _ => .error (some Cause.poisonConsumed)
    | .blocked => .error none
    | .ok t =>
      if inPorts t.pa then .error (some Cause.permission)
      else if inHost t.pa then
        match s.ats.find? fun a => a.part == p && a.pasid == e.pasid && a.page == BitVec.ofNat 36 (t.pa / 0x8000) with
        | some a => if a.ok then .ok t.pa else .error (some Cause.pageNotPresent)
        | none => .error none
      else .ok t.pa

/-- Write a payload behind its presence mask: a granule left out is zero (R378). -/
def State.writePayload (s : State) (p : PartId) (pa size : Nat) (mask : BitVec 64) (data : List Byte) (poison : BitVec 64) :
    State :=
  let one := fun (a : State × List Byte) (g : Nat) =>
    let len := min 64 (size - 64 * g)
    let sent := mask.getLsbD g
    let bs := if sent then a.2.take len else List.replicate len (0 : Byte)
    (a.1.writePhys p (pa + 64 * g) bs (sent && poison.getLsbD g), if sent then a.2.drop len else a.2)
  ((List.range ((size + 63) / 64)).foldl one (s, data)).1

/-- A PREM unit from a peer (R220, R380): refused without an export whose window holds it. -/
def State.peerPrem (s : State) (p : PartId) (es : List ExportRec) (va : VAddr) (size : Nat) (mask : BitVec 64)
    (data : List Byte) (poison : BitVec 64) : PeerRes :=
  let inside := fun (e : ExportRec) => decide (e.vbase.toNat ≤ va.toNat) && decide (va.toNat + size ≤ e.vbase.toNat + e.vsize.toNat)
  match es.find? inside with
  | none => .done s (.reject Cause.permission)
  | some e =>
    match s.peerPlace p e va size with
    | .error none => .hold none
    | .error (some c) => .done s (.reject c)
    | .ok pa => .done (s.writePayload p pa size mask data poison) (.ok 0)

/-- Perform a packet whose turn has come, under the key's entry at its check (R381). -/
def State.peerPerform (s : State) (q : HeldPkt) (mismatch : Bool) : PeerRes :=
  match q.part with
  | none => .done s (.reject Cause.permission)
  | some p =>
    let es := (s.part p).exports.filter fun e => e.key == q.pkt.pkey
    match q.pkt.body with
    | .sem k h b cmp => s.peerSem p es q.gang k h b cmp mismatch
    | .prem va size mask data poison => s.peerPrem p es va size mask data poison

/-- The sequence state of a source (R384). -/
def Fabric.rxOf (f : Fabric) (dev : BitVec 16) : RxState := (f.rx.get? dev.toNat).getD RxState.zero

/-- The state with a source's sequence state changed. -/
def State.modRx (s : State) (dev : BitVec 16) (f : RxState → RxState) : State :=
  { s with fabric := { s.fabric with rx := s.fabric.rx.set dev.toNat (f (s.fabric.rxOf dev)) } }

/-- Serial order of sequence numbers: a lies below b. -/
def seqBelow (a b : BitVec 32) : Bool := decide (2 ^ 31 ≤ (a - b).toNat)

/-- A release waits for every lower-numbered packet of its source (R384). -/
def RxState.mayRun (r : RxState) (pkt : Packet) : Bool :=
  !pkt.release || (seqBelow pkt.seq r.next && r.waiting.all fun q => !seqBelow q.pkt.seq pkt.seq)

/-- Perform each waiting packet of a source that may run, once, in order of arrival; a checker mismatch meets the one with
a given number. -/
def State.peerPass (s : State) (dev : BitVec 16) (mismatch : Option (BitVec 32)) : List HeldPkt → State
  | [] => s
  | q :: rest =>
    if !(s.fabric.rxOf dev).mayRun q.pkt then s.peerPass dev mismatch rest
    else match s.peerPerform q (mismatch == some q.pkt.seq) with
      | .hold gang =>
        (s.modRx dev fun x => { x with waiting := x.waiting.map fun h =>
          if h.pkt.seq == q.pkt.seq then { h with gang := if h.gang.isSome then h.gang else gang } else h }).peerPass dev
          mismatch rest
      | .done s' r =>
        let s' := s'.modRx dev fun x => { x with waiting := x.waiting.filter fun h => h.pkt.seq != q.pkt.seq }
        let ack : AckOut := ⟨dev, q.pkt.seq, r⟩
        { s' with fabric := { s'.fabric with acks := s'.fabric.acks ++ [ack] } }.peerPass dev mismatch rest

/-- Passes over what waits from a source, until one more could change nothing. -/
def State.peerPasses (s : State) (dev : BitVec 16) (mismatch : Option (BitVec 32)) : Nat → State
  | 0 => s
  | n + 1 => (s.peerPass dev mismatch (s.fabric.rxOf dev).waiting).peerPasses dev mismatch n

/-- What is held from a peer device is performed where it now can be; a checker mismatch meets the first semaphore operation
held (R402). -/
def State.peerRun (s : State) (dev : BitVec 16) (mismatch : Bool) : State :=
  let first := (s.fabric.rxOf dev).waiting.find? fun q => match q.pkt.body with
    | .sem _ _ _ _ => true
    | _ => false
  s.peerPasses dev (if mismatch then first.map fun q => q.pkt.seq else none) ((s.fabric.rxOf dev).waiting.length)

/-- What is held from every peer device, once a gang is resident again or is over (R299). -/
def State.peerRunAll (s : State) : State :=
  s.fabric.rx.foldl (fun s r => s.peerRun (BitVec.ofNat 16 r.1) false) s

/-- The window after a number is received: NEXT passes over what is marked (R384). -/
def RxState.advance (r : RxState) : Nat → RxState
  | 0 => r
  | n + 1 =>
    if r.window.contains r.next then
      { r with next := r.next + 1, window := r.window.filter (· != r.next) }.advance n
    else r

/-- A packet received before: below NEXT or marked. -/
def RxState.dup (r : RxState) (q : BitVec 32) : Bool := seqBelow q r.next || r.window.contains q

/-- A packet as it is received: with the partition that its key admits it to (R381), and, for a semaphore operation, the gang that
its export names now, which it waits for wherever its turn comes (R299). -/
def State.heldPkt (s : State) (pkt : Packet) : HeldPkt :=
  let part := s.fabric.keyPart pkt.pkey
  let gang := match pkt.body, part with
    | .sem _ _ _ _, some p => (s.gangOf p ((s.part p).exports.filter fun e => e.key == pkt.pkey) none).map fun n => n.key
    | _, _ => none
  ⟨pkt, part, gang⟩

/-- PACKET_RECEIVE (R377, R380, R384): a duplicate is acknowledged again and not performed; one beyond the window is
refused; the rest are marked, and performed when their turn comes. In minimal mode nothing but the mailbox responds (R389). -/
def State.packetReceive (s : State) (pkt : Packet) (mismatch : Bool) : State :=
  let r := s.fabric.rxOf pkt.src
  if pkt.dst != s.fabric.devid || s.boot.stage == .minimal then s
  else if r.dup pkt.seq then
    match s.fabric.acks.find? fun a => a.dev == pkt.src && a.seq == pkt.seq with
    | some a => { s with fabric := { s.fabric with acks := s.fabric.acks ++ [a] } }
    | none => s
  else if 4096 ≤ (pkt.seq - r.next).toNat then s
  else
    let s := s.modRx pkt.src fun r =>
      { r with window := pkt.seq :: r.window,
               waiting := r.waiting ++ [s.heldPkt pkt] : RxState }.advance (r.window.length + 1)
    s.peerPasses pkt.src (if mismatch then some pkt.seq else none) ((s.fabric.rxOf pkt.src).waiting.length)

end Sys2Proof.Machine
end

