-- ==== Sys2Proof/Machine/Num.lean ====
section
/-! DEFINITION. Number formats: integers, nested floats, IEEE formats, BF16, E8M0 and I4X, and the one rounding
function (spec/03 R60 to R76, R78). Values are exact: a finite value is a sign, a magnitude and a power of two. -/

namespace Sys2Proof.Machine

/-! ## Integers (R60) -/

/-- An n-bit field as two's complement. -/
def toSigned (n v : Nat) : Int := if 2 ^ (n - 1) ≤ v then (v : Int) - 2 ^ n else v

/-- The low n bits of an exact integer. -/
def wrapInt (n : Nat) (v : Int) : Nat := (v % 2 ^ n).toNat

/-- Least and greatest value of an integer type. -/
def intRange (n : Nat) (sg : Bool) : Int × Int :=
  if sg then (-(2 ^ (n - 1)), 2 ^ (n - 1) - 1) else (0, 2 ^ n - 1)

/-- Clamped to a range. -/
def clampInt (r : Int × Int) (v : Int) : Int := max r.1 (min r.2 v)

/-- An element of an integer type as an exact integer. -/
def intVal (t : ElemTy) (v : Nat) : Int := if ElemTy.signed t then toSigned (ElemTy.bits t) v else v

/-- An exact integer in an integer type: low bits, or clamped with SAT (R149). -/
def intPut (t : ElemTy) (sat : Bool) (v : Int) : Nat :=
  wrapInt (ElemTy.bits t) (if sat then clampInt (intRange (ElemTy.bits t) (ElemTy.signed t)) v else v)

/-! ## Exact values -/

/-- A floating-point value read exactly: the finite one is ±m·2^e. -/
inductive FV where
  | nan
  | inf (neg : Bool)
  | fin (neg : Bool) (m : Nat) (e : Int)
deriving DecidableEq, Repr

/-- A format: fraction width, exponent width, whether non-finite codes follow R63. -/
structure Fmt where
  w : Nat
  eb : Nat
  nf : Bool
deriving DecidableEq, Repr

namespace Fmt
/-- All ones in the exponent field. -/
def emask (f : Fmt) : Nat := 2 ^ f.eb - 1
/-- The smallest normal exponent. -/
def emin (f : Fmt) : Int := 2 - 2 ^ (f.eb - 1)
/-- The largest finite exponent. -/
def emax (f : Fmt) : Int := 2 ^ (f.eb - 1) - 1
/-- The sign bit. -/
def sbit (f : Fmt) (neg : Bool) : Nat := if neg then 2 ^ (f.w + f.eb) else 0
/-- Infinity (R64). -/
def infinity (f : Fmt) (neg : Bool) : Nat := f.sbit neg + f.emask * 2 ^ f.w
/-- The largest finite value. -/
def largest (f : Fmt) (neg : Bool) : Nat := f.sbit neg + f.emask * 2 ^ f.w - 1
/-- The default NaN (R64, R67). -/
def qnan (f : Fmt) : Nat := f.emask * 2 ^ f.w + 2 ^ (f.w - 1)
/-- Infinity, or with SAT the largest finite value (R73). -/
def infOrMax (f : Fmt) (sat neg : Bool) : Nat := if sat then f.largest neg else f.infinity neg
end Fmt

/-- NF(8n) (R62). -/
def nfFmt (n : Nat) : Fmt := ⟨8 * n - 6, 5, true⟩
/-- FP32 (R67). -/
def fp32 : Fmt := ⟨23, 8, false⟩
/-- FP64 (R67). -/
def fp64 : Fmt := ⟨52, 11, false⟩
/-- BF16 (R68). -/
def bf16 : Fmt := ⟨7, 8, false⟩
/-- E2M1 (R61): no non-finite code is ever formed. -/
def e2m1 : Fmt := ⟨1, 2, false⟩

/-- The format of a floating-point type. -/
def fmtOf : ElemTy → Option Fmt
  | .nf8 => some (nfFmt 1)
  | .nf16 => some (nfFmt 2)
  | .nf24 => some (nfFmt 3)
  | .nf32 => some (nfFmt 4)
  | .fp32 => some fp32
  | .fp64 => some fp64
  | .bf16 => some bf16
  | _ => none

/-- The exact value of a code (R63, R67). -/
def Fmt.value (f : Fmt) (v : Nat) : FV :=
  let neg := decide (2 ^ (f.w + f.eb) ≤ v)
  let e := v / 2 ^ f.w % 2 ^ f.eb
  let m := v % 2 ^ f.w
  if e == f.emask then
    if (if f.nf then m / 2 ^ (f.w - 2) == 0 else m == 0) then .inf neg else .nan
  else if e == 0 then .fin neg m (f.emin - f.w)
  else .fin neg (2 ^ f.w + m) (f.emin - f.w + (e - 1 : Nat))

/-! ## Rounding (R73) -/

/-- Magnitude of a positive real for rounding: its binary exponent, and for every k the floor of the real over 2^k
with whether that is exact. -/
structure Real where
  lg : Int
  floor : Int → Nat × Bool

/-- m·2^e as such a real, for m above 0. -/
def dyadic (m : Nat) (e : Int) : Real where
  lg := Nat.log2 m + e
  floor := fun k =>
    if k ≤ e then (m * 2 ^ (e - k).toNat, true)
    else (m / 2 ^ (k - e).toNat, m % 2 ^ (k - e).toNat == 0)

/-- (a / b)·2^e for a and b above 0. -/
def quotient (a b : Nat) (e : Int) : Real where
  lg :=
    let l : Int := (Nat.log2 a : Int) - Nat.log2 b
    let small := if 0 ≤ l then decide (a < b * 2 ^ l.toNat) else decide (a * 2 ^ (-l).toNat < b)
    (if small then l - 1 else l) + e
  floor := fun k =>
    if k ≤ e then (a * 2 ^ (e - k).toNat / b, a * 2 ^ (e - k).toNat % b == 0)
    else (a / (b * 2 ^ (k - e).toNat), a % (b * 2 ^ (k - e).toNat) == 0)

/-- Integer square root by bits: n bits of the root are still open below r. -/
def isqrtGo (v : Nat) : Nat → Nat → Nat
  | 0, r => r
  | b + 1, r =>
    let t := r + 2 ^ b
    isqrtGo v b (if t * t ≤ v then t else r)

/-- Integer square root. -/
def isqrt (v : Nat) : Nat := isqrtGo v (Nat.log2 v / 2 + 1) 0

/-- The square root of m·2^e, m above 0. -/
def rootOf (m : Nat) (e : Int) : Real where
  lg := (Nat.log2 m + e) / 2
  floor := fun k =>
    let (v, ex) := (dyadic m e).floor (2 * k)
    let r := isqrt v
    (r, ex && r * r == v)

/-- The inverse square root of m·2^e, m above 0. -/
def invRootOf (m : Nat) (e : Int) : Real where
  lg := (-(e + (Nat.log2 m : Int) + (if m == 2 ^ Nat.log2 m then 0 else 1))) / 2
  floor := fun k =>
    let (v, ex) := (quotient 1 m (-e)).floor (2 * k)
    let r := isqrt v
    (r, ex && r * r == v)

/-- Round a non-zero real of a sign to a format (R73). -/
def roundReal (f : Fmt) (rm : RM) (sat neg : Bool) (x : Real) : Nat :=
  let e := max x.lg f.emin
  let (n, ex) := x.floor (e - f.w - 1)
  let lo := n / 2
  let half := n % 2 == 1
  let up := match rm with
    | .rne => half && (!ex || lo % 2 == 1)
    | .rz => false
    | .ru => !neg && (half || !ex)
    | .rd => neg && (half || !ex)
  let m := if up then lo + 1 else lo
  if e > f.emax || (e == f.emax && 2 ^ (f.w + 1) - 1 < m) then
    if sat || rm == .rz || (rm == .ru && neg) || (rm == .rd && !neg) then f.largest neg else f.infinity neg
  else f.sbit neg + ((e - f.emin).toNat * 2 ^ f.w + m)

/-- round(x, F, rm, sat) of R73. -/
def roundFV (f : Fmt) (rm : RM) (sat : Bool) : FV → Nat
  | .nan => f.qnan
  | .inf neg => f.infOrMax sat neg
  | .fin neg m e => if m == 0 then f.sbit neg else roundReal f rm sat neg (dyadic m e)

/-! ## Exact arithmetic (R150) -/

namespace FV

/-- Minus. -/
def neg : FV → FV
  | .nan => .nan
  | .inf n => .inf (!n)
  | .fin n m e => .fin (!n) m e

/-- A signed exact value as an integer multiple of 2^e0, for e0 at most its exponent. -/
def scaled (n : Bool) (m : Nat) (e e0 : Int) : Int :=
  let v : Int := m * 2 ^ (e - e0).toNat
  if n then -v else v

/-- a + b exactly; a zero sum takes its sign by the mode (R73). -/
def add (rm : RM) : FV → FV → FV
  | .nan, _ => .nan
  | _, .nan => .nan
  | .inf a, .inf b => if a == b then .inf a else .nan
  | .inf a, _ => .inf a
  | _, .inf b => .inf b
  | .fin n m e, .fin n' m' e' =>
    let e0 := min e e'
    let v := scaled n m e e0 + scaled n' m' e' e0
    if v == 0 then .fin (if n == n' then n else rm == .rd) 0 e0
    else .fin (decide (v < 0)) v.natAbs e0

/-- a × b exactly. -/
def mul : FV → FV → FV
  | .nan, _ => .nan
  | _, .nan => .nan
  | .inf a, .inf b => .inf (a ^^ b)
  | .inf a, .fin n m _ => if m == 0 then .nan else .inf (a ^^ n)
  | .fin n m _, .inf b => if m == 0 then .nan else .inf (n ^^ b)
  | .fin n m e, .fin n' m' e' => .fin (n ^^ n') (m * m') (e + e')

/-- a × b + c exactly. -/
def fma (rm : RM) (a b c : FV) : FV := add rm (mul a b) c

/-- Exactly zero. -/
def isZero : FV → Bool
  | .fin _ m _ => m == 0
  | _ => false

/-- The sign. -/
def isNeg : FV → Bool
  | .nan => false
  | .inf n => n
  | .fin n _ _ => n

/-- Order of two values that are no NaN, +0 equal to -0. -/
def cmp (a b : FV) : Ordering :=
  match a, b with
  | .fin n m e, .fin n' m' e' =>
    let e0 := min e e'
    compare (scaled n m e e0) (scaled n' m' e' e0)
  | .inf n, .inf n' => if n == n' then .eq else if n then .lt else .gt
  | .inf n, _ => if n then .lt else .gt
  | _, .inf n => if n then .gt else .lt
  | _, _ => .eq

end FV

/-- a / b rounded (R150). -/
def divRound (f : Fmt) (rm : RM) (sat : Bool) (a b : FV) : Nat :=
  match a, b with
  | .nan, _ => f.qnan
  | _, .nan => f.qnan
  | .inf _, .inf _ => f.qnan
  | .inf n, .fin n' _ _ => f.infOrMax sat (n ^^ n')
  | .fin n _ _, .inf n' => f.sbit (n ^^ n')
  | .fin n m e, .fin n' m' e' =>
    if m' == 0 then (if m == 0 then f.qnan else f.infOrMax sat (n ^^ n'))
    else if m == 0 then f.sbit (n ^^ n')
    else roundReal f rm sat (n ^^ n') (quotient m m' (e - e'))

/-- √a rounded (R150). -/
def sqrtRound (f : Fmt) (rm : RM) (sat : Bool) : FV → Nat
  | .nan => f.qnan
  | .inf n => if n then f.qnan else f.infOrMax sat false
  | .fin n m e =>
    if m == 0 then f.sbit n else if n then f.qnan else roundReal f rm sat false (rootOf m e)

/-! ## Transcendentals (R151, Table 7.5; assumption log 13) -/

/-- 1/a under RNE. The reciprocal of a negative number that overflows the type is −Inf, the sign R73 rounds to: the sentence
below Table 7.5 says of every finite result that overflows that it is +Inf, which the model reads of positive ones
(assumption log 13). -/
def rcpRound (f : Fmt) (sat : Bool) : FV → Nat
  | .nan => f.qnan
  | .inf n => f.sbit n
  | .fin n m e => if m == 0 then f.infOrMax sat n else roundReal f .rne sat n (quotient 1 m (-e))

/-- 1/√a under RNE. -/
def rsqRound (f : Fmt) (sat : Bool) : FV → Nat
  | .nan => f.qnan
  | .inf n => if n then f.qnan else f.sbit false
  | .fin n m e =>
    if m == 0 then f.infOrMax sat n else if n then f.qnan else roundReal f .rne sat false (invRootOf m e)

/-- Working precision in bits. -/
def fixP : Nat := 320

/-- ln 2 in units of 2^-fixP, from the sum of 1/(k·2^k). -/
def ln2Fix : Nat := (List.range fixP).foldl (fun s k => s + 2 ^ fixP / ((k + 1) * 2 ^ (k + 1))) 0

/-- The sum of x^k/k! for k up to n, x in units of 2^-fixP. -/
def expFix (x : Nat) : Nat :=
  ((List.range 80).foldl (fun (st : Nat × Nat) k =>
    let t := st.2 * x / 2 ^ fixP / (k + 1)
    (st.1 + t, t)) (2 ^ fixP, 2 ^ fixP)).1

/-- ln of m in [1, 2), in units of 2^-fixP: twice the sum of z^(2k+1)/(2k+1), z = (m - 1)/(m + 1). -/
def lnFix (m : Nat) : Nat :=
  let z := (m - 2 ^ fixP) * 2 ^ fixP / (m + 2 ^ fixP)
  let z2 := z * z / 2 ^ fixP
  2 * ((List.range 110).foldl (fun (st : Nat × Nat) k =>
    (st.1 + st.2 / (2 * k + 1), st.2 * z2 / 2 ^ fixP)) (0, z)).1

/-- How far the fixed-point sums may lie from the exact value, in units of 2^-fixP. -/
def fixErr : Nat := 2 ^ 12

/-- The common rounding of two bounds of a real. -/
def roundBetween (f : Fmt) (sat neg : Bool) (lo hi : Nat) (e : Int) : Nat :=
  let a := roundReal f .rne sat neg (dyadic lo e)
  let b := roundReal f .rne sat neg (dyadic hi e)
  if a == b then a else roundReal f .rne sat neg (dyadic ((lo + hi) / 2) e)

/-- 2^a under RNE. -/
def exp2Round (f : Fmt) (sat : Bool) : FV → Nat
  | .nan => f.qnan
  | .inf n => if n then f.sbit false else f.infOrMax sat false
  | .fin n m e =>
    if m == 0 then roundReal f .rne sat false (dyadic 1 0)
    else if 13 ≤ Nat.log2 m + e then roundReal f .rne sat false (dyadic 1 (if n then -8192 else 8192))
    else
      let v : Int := if n then -m else m
      let k : Int := if 0 ≤ e then v * 2 ^ e.toNat else v / 2 ^ (-e).toNat
      let frac : Nat := if 0 ≤ e then 0 else (v % 2 ^ (-e).toNat).toNat
      if frac == 0 then roundReal f .rne sat false (dyadic 1 k)
      else
        let x := frac * 2 ^ fixP / 2 ^ (-e).toNat
        let y := expFix (x * ln2Fix / 2 ^ fixP)
        roundBetween f sat false (max (2 ^ fixP) (y - fixErr)) (min (2 ^ (fixP + 1)) (y + fixErr)) (k - fixP)

/-- log₂ a under RNE. -/
def log2Round (f : Fmt) (sat : Bool) : FV → Nat
  | .nan => f.qnan
  | .inf n => if n then f.qnan else f.infOrMax sat false
  | .fin n m e =>
    if m == 0 then f.infOrMax sat true
    else if n then f.qnan
    else
      let l := Nat.log2 m
      let k : Int := l + e
      if m == 2 ^ l then
        if k == 0 then f.sbit false else roundReal f .rne sat (decide (k < 0)) (dyadic k.natAbs 0)
      else
        let y := lnFix (m * 2 ^ fixP / 2 ^ l) * 2 ^ fixP / ln2Fix
        let v : Int := k * 2 ^ fixP + y
        let lo := v - fixErr
        let hi := v + fixErr
        if 0 ≤ k then roundBetween f sat false lo.natAbs hi.natAbs (-(fixP : Int))
        else roundBetween f sat true hi.natAbs lo.natAbs (-(fixP : Int))

/-! ## Conversions (R68, R69, R76, R156 to R158) -/

/-- Round to an integer under a mode, unbounded. -/
def roundInt (rm : RM) (n : Bool) (m : Nat) (e : Int) : Int :=
  if m == 0 then 0
  else
    let (v, ex) := (dyadic m e).floor (-1)
    let lo := v / 2
    let half := v % 2 == 1
    let up := match rm with
      | .rne => half && (!ex || lo % 2 == 1)
      | .rz => false
      | .ru => !n && (half || !ex)
      | .rd => n && (half || !ex)
    let r : Int := if up then lo + 1 else lo
    if n then -r else r

/-- A value converted to an integer type (Table 3.6). -/
def toInt (t : ElemTy) (rm : RM) (sat : Bool) (x : FV) : Nat :=
  let n := ElemTy.bits t
  let sg := ElemTy.signed t
  let r := intRange n sg
  let out := fun (neg : Bool) =>
    if sat then wrapInt n (if neg then r.1 else r.2) else if sg then 2 ^ (n - 1) else 0
  match x with
  | .nan => if sat || !sg then 0 else 2 ^ (n - 1)
  | .inf neg => out neg
  | .fin neg m e =>
    let v := roundInt rm neg m e
    if v < r.1 then out true else if r.2 < v then out false else wrapInt n v

/-- E8M0 as an exact value (R69). -/
def e8m0Value (v : Nat) : FV := if v == 0xFF then .nan else .fin false 1 ((v : Int) - 127)

/-- A value as E8M0 (Table 7.7). -/
def toE8m0 : FV → Nat
  | .nan => 0xFF
  | .inf _ => 0xFF
  | .fin _ m e => if m == 0 then 0 else (clampInt (0, 254) (Nat.log2 m + e + 127)).toNat

/-- E2M1 (R61). -/
def e2m1Value (v : Nat) : FV :=
  let m := v % 2
  let e := v / 2 % 4
  let neg := decide (8 ≤ v)
  if e == 0 then .fin neg m (-1) else .fin neg (2 + m) ((e : Int) - 2)

/-- The elements of one I4X byte (Table 3.2). They are integers: a negative-zero outlier is 0, so that it becomes +0 where it is
converted to a floating-point type, whose sign the rule does not give (assumption log 32). -/
def i4xPair (b : Nat) : Int × Int :=
  let l := b % 16
  let h := b / 16 % 16
  if l == 8 then
    (match e2m1Value h with
    | .fin neg m e => (if neg then -1 else 1) * ((m * 2 ^ (e + 4).toNat : Nat) : Int)
    | _ => 0, 0)
  else (toSigned 4 l, if h == 8 then 0 else toSigned 4 h)

/-- E2M1 of a value that is not zero, its magnitude clamped to 6 (R158): 3 bits of magnitude by rounding to the
spacing of the format. -/
def toE2m1 (rm : RM) (x : FV) : Nat :=
  match x with
  | .nan => 0
  | .inf neg => if neg then 15 else 7
  | .fin neg m e =>
    let lg := Nat.log2 m + e
    let ex := max lg 0
    let (v, exact) := (dyadic m e).floor (ex - 2)
    let lo := v / 2
    let half := v % 2 == 1
    let up := match rm with
      | .rne => half && (!exact || lo % 2 == 1)
      | .rz => false
      | .ru => !neg && (half || !exact)
      | .rd => neg && (half || !exact)
    let q := if up then lo + 1 else lo
    let code := min 7 (ex.toNat * 2 + q)
    (if neg then 8 else 0) + code

/-- One I4X byte from an even and an odd value (R158). -/
def toI4x (rm : RM) (x y : FV) : Nat :=
  let whole := fun (v : FV) (big : Int) => match v with
    | .nan => (0 : Int)
    | .inf neg => if neg then -big else big
    | .fin neg m e => roundInt rm neg m e
  let a := whole x 8
  let b := clampInt (-7, 7) (whole y 7)
  if a.natAbs ≤ 7 then wrapInt 4 a + 16 * wrapInt 4 b
  else
    let e := match x with
      | .fin neg m e => toE2m1 rm (.fin neg m (e - 4))
      | v => toE2m1 rm v
    8 + 16 * e

/-- An element of a floating-point type or E8M0 as an exact value. -/
def fltValue (t : ElemTy) (v : Nat) : FV :=
  match fmtOf t with
  | some f => f.value v
  | none => if t == .e8m0 then e8m0Value v else .nan

/-- An exact integer as a value. -/
def intFV (v : Int) : FV := .fin (decide (v < 0)) v.natAbs 0

/-- The value of an element for a conversion: integers, I4X elements and floats (Table 7.7). -/
def cvtSource (t : ElemTy) (tile : Nat) (j : Nat) : FV :=
  match t with
  | .i4x =>
    let p := i4xPair (tile / 2 ^ (8 * (j / 2)) % 256)
    intFV (if j % 2 == 0 then p.1 else p.2)
  | _ =>
    let v := tile / 2 ^ (ElemTy.bits t * j) % 2 ^ ElemTy.bits t
    if ElemTy.isInteger t then intFV (intVal t v) else fltValue t v

/-- One element converted to a type that is not I4X (Table 7.7). A NaN becomes the default NaN of the destination, from BF16 too
(R67, R73), where R68 says only that 16 zero bits are appended (assumption log 32). -/
def cvtTo (sty dty : ElemTy) (rm : RM) (sat : Bool) (x : FV) : Nat :=
  match fmtOf dty with
  | some f => roundFV f rm sat x
  | none =>
    if dty == .e8m0 then toE8m0 x
    else if ElemTy.isInteger sty || sty == .i4x then
      match x with
      | .fin neg m e => intPut dty sat (roundInt .rz neg m e)
      | _ => 0
    else toInt dty rm sat x

end Sys2Proof.Machine
end

