-- ==== Sys2Proof/Machine/GeomEval.lean ====
section
/-! DEFINITION. The exact geometric predicates: determinants, the three stages, the symbolic tie-break and the result
byte (spec/11 R239 to R251, R428). -/

namespace Sys2Proof.Machine

/-! ## Determinants over any arithmetic (R428) -/

/-- An arithmetic in which the determinants are evaluated. -/
structure Arith (α : Type) where
  add : α → α → α
  sub : α → α → α
  mul : α → α → α
  neg : α → α
  zero : α

/-- 2 × 2. -/
def det2 {α : Type} (o : Arith α) (x1 y1 x2 y2 : α) : α := o.sub (o.mul x1 y2) (o.mul x2 y1)

/-- 3 × 3 by its last column. -/
def det3 {α : Type} (o : Arith α) (x1 y1 z1 x2 y2 z2 x3 y3 z3 : α) : α :=
  o.add (o.sub (o.mul z1 (det2 o x2 y2 x3 y3)) (o.mul z2 (det2 o x1 y1 x3 y3))) (o.mul z3 (det2 o x1 y1 x2 y2))

/-- Entry j of a row. -/
def entry {α : Type} (o : Arith α) (r : List α) (j : Nat) : α := r.getD j o.zero

/-- 3 × 3 of the first three entries of three rows. -/
def detRows3 {α : Type} (o : Arith α) (a b c : List α) : α :=
  det3 o (entry o a 0) (entry o a 1) (entry o a 2) (entry o b 0) (entry o b 1) (entry o b 2)
    (entry o c 0) (entry o c 1) (entry o c 2)

/-- 4 × 4 by its last column. -/
def detRows4 {α : Type} (o : Arith α) (a b c d : List α) : α :=
  let s := o.neg (o.mul (entry o a 3) (detRows3 o b c d))
  let s := o.add s (o.mul (entry o b 3) (detRows3 o a c d))
  let s := o.sub s (o.mul (entry o c 3) (detRows3 o a b d))
  o.add s (o.mul (entry o d 3) (detRows3 o a b c))

/-- Coordinate differences of two points. -/
def diffs {α : Type} (o : Arith α) (p q : List α) : List α := (p.zip q).map fun c => o.sub c.1 c.2

/-- |u|² in the order of R428. -/
def normSq {α : Type} (o : Arith α) (u : List α) : α :=
  match u with
  | [] => o.zero
  | x :: rest => rest.foldl (fun s y => o.add s (o.mul y y)) (o.mul x x)

/-- The rows whose determinant a predicate takes (Table 11.1); SEGX has none of its own. -/
def geomRows {α : Type} (o : Arith α) (k : GeomKind) (pts : List (List α)) : List (List α) :=
  match pts.reverse with
  | [] => []
  | last :: others =>
    let us := others.reverse.map fun p => diffs o p last
    match k with
    | .orient2 => us
    | .orient3 => us
    | .incirc => us.map fun u => u ++ [normSq o u]
    | .insph => us.map fun u => u ++ [normSq o u]
    | .segx => us

/-- The determinant of the rows. -/
def geomDet {α : Type} (o : Arith α) (k : GeomKind) (rows : List (List α)) : α :=
  match k, rows with
  | .orient2, [a, b] => det2 o (entry o a 0) (entry o a 1) (entry o b 0) (entry o b 1)
  | .orient3, [a, b, c] => detRows3 o a b c
  | .incirc, [a, b, c] => detRows3 o a b c
  | .insph, [a, b, c, d] => detRows4 o a b c d
  | _, _ => o.zero

/-! ## The three arithmetics -/

/-- Rounded FP64 arithmetic under RNE (R428). -/
def flArith : Arith FV where
  add := fun a b => fp64.value (roundFV fp64 .rne false (FV.add .rne a b))
  sub := fun a b => fp64.value (roundFV fp64 .rne false (FV.add .rne a b.neg))
  mul := fun a b => fp64.value (roundFV fp64 .rne false (FV.mul a b))
  neg := FV.neg
  zero := .fin false 0 0

/-- The arithmetic of the error bound: subtractions and negations replaced by addition (R428). -/
def boundArith : Arith FV where
  add := flArith.add
  sub := flArith.add
  mul := flArith.mul
  neg := fun a => a
  zero := .fin false 0 0

/-- Exact integers. -/
def intArith : Arith Int where
  add := (· + ·)
  sub := (· - ·)
  mul := (· * ·)
  neg := (- ·)
  zero := 0

/-- A polynomial in the perturbation: exponents rising, coefficients not zero. -/
abbrev EpsPoly := List (Nat × Int)

/-- Add one term. -/
def polyTerm (e : Nat) (c : Int) : EpsPoly → EpsPoly
  | [] => if c == 0 then [] else [(e, c)]
  | (e', c') :: rest =>
    if e < e' then (if c == 0 then (e', c') :: rest else (e, c) :: (e', c') :: rest)
    else if e == e' then (if c + c' == 0 then rest else (e, c + c') :: rest)
    else (e', c') :: polyTerm e c rest

/-- Sum of two polynomials. -/
def polyAdd (p q : EpsPoly) : EpsPoly := q.foldl (fun s t => polyTerm t.1 t.2 s) p

/-- Minus. -/
def polyNeg (p : EpsPoly) : EpsPoly := p.map fun t => (t.1, -t.2)

/-- Product. -/
def polyMul (p q : EpsPoly) : EpsPoly :=
  p.foldl (fun s t => q.foldl (fun s u => polyTerm (t.1 + u.1) (t.2 * u.2) s) s) []

/-- Polynomials in the perturbation. -/
def polyArith : Arith EpsPoly where
  add := polyAdd
  sub := fun p q => polyAdd p (polyNeg q)
  mul := polyMul
  neg := polyNeg
  zero := []

/-! ## Points -/

/-- Magnitude. -/
def FV.abs : FV → FV
  | .fin _ m e => .fin false m e
  | .inf _ => .inf false
  | .nan => .nan

/-- Finite. -/
def FV.isFin : FV → Bool
  | .fin _ _ _ => true
  | _ => false

/-- The exponent of a finite value. -/
def FV.expo : FV → Int
  | .fin _ m e => if m == 0 then 0 else e
  | _ => 0

/-- A finite value over 2^e0, e0 at most its exponent. -/
def FV.over (e0 : Int) : FV → Int
  | .fin n m e => if m == 0 then 0 else FV.scaled n m e e0
  | _ => 0

/-- The least exponent of a lane's coordinates. -/
def laneExp (pts : List (List FV)) : Int := pts.flatten.foldl (fun e v => min e v.expo) 0

/-- Lexicographic order of points as real values. -/
def pointCmp : List FV → List FV → Ordering
  | a :: r, b :: q =>
    match FV.cmp a b with
    | .eq => pointCmp r q
    | o => o
  | _, _ => .eq

/-- Two points of a lane are equal (R247). -/
def hasEqual : List (List FV) → Bool
  | [] => false
  | p :: rest => rest.any (fun q => pointCmp p q == .eq) || hasEqual rest

/-- Degree of a predicate's determinant in the coordinates. -/
def geomDegree : GeomKind → Int
  | .orient2 => 2
  | .orient3 => 3
  | .incirc => 4
  | .insph => 5
  | .segx => 2

/-- The exact determinant as a value. -/
def exactDet (k : GeomKind) (pts : List (List FV)) : FV :=
  let e0 := laneExp pts
  let ip := pts.map fun p => p.map (FV.over e0)
  let d := geomDet intArith k (geomRows intArith k ip)
  .fin (decide (d < 0)) d.natAbs (e0 * geomDegree k)

/-! ## Stages (R244, Table 11.4) -/

/-- How a determinant's sign was decided. -/
structure SignRes where
  sign : Int
  stage : Nat
deriving DecidableEq, Repr

/-- c_A as a power of two (Table 11.4). -/
def cA : GeomKind → Int
  | .orient2 => -51
  | .orient3 => -50
  | .incirc => -49
  | .insph => -48
  | .segx => -51

/-- c_B as a power of two (Table 11.4). -/
def cB : GeomKind → Int
  | .orient2 => -100
  | .orient3 => -99
  | .incirc => -97
  | .insph => -95
  | .segx => -100

/-- m·2^k at least 2^j, as values. -/
def FV.atLeast (v : FV) (j : Int) : Bool := FV.cmp v (.fin false 1 j) != .lt

/-- A value times 2^k. -/
def FV.shift (k : Int) : FV → FV
  | .fin n m e => .fin n m (e + k)
  | v => v

/-- The sign of a value. -/
def FV.signOf : FV → Int
  | .fin n m _ => if m == 0 then 0 else if n then -1 else 1
  | .inf n => if n then -1 else 1
  | .nan => 0

/-- D̃ and M̃ of stage A (R428). -/
def stageAValues (k : GeomKind) (pts : List (List FV)) : FV × FV :=
  let rows := geomRows flArith k pts
  (geomDet flArith k rows, geomDet boundArith k (rows.map fun r => r.map FV.abs))

/-- The sign of a predicate's determinant for a finite lane (R244). -/
def detSign (k : GeomKind) (pts : List (List FV)) : SignRes :=
  let (d, m) := stageAValues k pts
  if d.isFin && m.isFin && m.atLeast (-960) && FV.cmp d.abs (m.shift (cA k)) == .gt then ⟨d.signOf, 0⟩
  else
    let x := exactDet k pts
    let hi := fp64.value (roundFV fp64 .rne false x)
    let lo := fp64.value (roundFV fp64 .rne false (FV.add .rne x hi.neg))
    let db := FV.add .rne hi lo
    if m.isFin && m.atLeast (-860) && hi.isFin && FV.cmp db.abs (m.shift (cB k)) == .gt then ⟨db.signOf, 1⟩
    else ⟨x.signOf, 2⟩

/-! ## The symbolic tie-break (R249) -/

/-- Rank of a point: how many points lie lexicographically below it. -/
def rankOf (pts : List (List FV)) (p : List FV) : Nat := (pts.filter fun q => pointCmp q p == .lt).length

/-- The perturbed coordinates of a lane's points. -/
def perturbed (dim : Nat) (pts : List (List FV)) : List (List EpsPoly) :=
  let e0 := laneExp pts
  pts.map fun p =>
    let r := rankOf pts p
    p.zipIdx.map fun cj => polyTerm (3 ^ (dim * r + dim - 1 - cj.2)) 1 (polyTerm 0 (cj.1.over e0) [])

/-- Sign of the lowest power of the perturbation with a non-zero coefficient. -/
def polySign : EpsPoly → Int
  | [] => 0
  | (_, c) :: _ => if c < 0 then -1 else if c == 0 then 0 else 1

/-- The symbolic sign of a lane whose determinant is zero. -/
def symSign (k : GeomKind) (dim : Nat) (pts : List (List FV)) : Int :=
  polySign (geomDet polyArith k (geomRows polyArith k (perturbed dim pts)))

/-- A determinant's sign under a mode (R248, R249). -/
def signUnder (sym : Bool) (k : GeomKind) (dim : Nat) (pts : List (List FV)) : SignRes :=
  let r := detSign k pts
  if sym && r.sign == 0 then ⟨symSign k dim pts, 3⟩ else r

/-! ## Lanes -/

/-- Coordinates of a predicate's points. -/
def geomDim : GeomKind → Nat
  | .orient3 => 3
  | .insph => 3
  | _ => 2

/-- Number of registers a predicate reads (Table 11.1). -/
def geomRegs : GeomKind → Nat
  | .orient2 => 6
  | .orient3 => 12
  | .incirc => 8
  | .insph => 15
  | .segx => 8

/-- Cut a list into points of n coordinates. -/
def cutPoints (n : Nat) : List FV → Nat → List (List FV)
  | _, 0 => []
  | l, d + 1 => if l.isEmpty then [] else l.take n :: cutPoints n (l.drop n) d

/-- The points of lane i. -/
def lanePoints (k : GeomKind) (regs : List Nat) (i : Nat) : List (List FV) :=
  cutPoints (geomDim k) (regs.map fun v => fp64.value (fieldOf 64 v i)) (geomRegs k)

/-- A result byte (Table 11.3). -/
def resultByte (sgn stage : Nat) (syb coin : Bool) : Nat :=
  sgn + 4 * stage + (if syb then 16 else 0) + (if coin then 32 else 0)

/-- The code of a sign. -/
def signCode (s : Int) : Nat := if s < 0 then 3 else if s == 0 then 0 else 1

/-- The smaller and the larger of two points. -/
def pointMin (p q : List FV) : List FV := if pointCmp p q == .gt then q else p
def pointMax (p q : List FV) : List FV := if pointCmp p q == .gt then p else q

/-- SEGX of one finite lane (R251, Table 11.6). -/
def segxByte (sym : Bool) (a b c d : List FV) : Nat :=
  let coin := hasEqual [a, b, c, d]
  let o := fun (p q r : List FV) => signUnder (sym && !coin) .orient2 2 [p, q, r]
  let o1 := o a b c
  let o2 := o a b d
  let o3 := o c d a
  let o4 := o c d b
  let stage := max (max o1.stage o2.stage) (max o3.stage o4.stage)
  let overlap := pointCmp (pointMax (pointMin a b) (pointMin c d)) (pointMin (pointMax a b) (pointMax c d)) != .gt
  let sgn :=
    if 0 < o1.sign * o2.sign || 0 < o3.sign * o4.sign then 0
    else if o1.sign != 0 && o2.sign != 0 && o3.sign != 0 && o4.sign != 0 then 1
    else if o1.sign == 0 && o2.sign == 0 && o3.sign == 0 && o4.sign == 0 then (if overlap then 2 else 0)
    else 2
  resultByte sgn stage (stage == 3) coin

/-- The result byte of a lane (R242 to R251). -/
def laneByte (k : GeomKind) (sym : Bool) (pts : List (List FV)) : Nat :=
  if !(pts.all fun p => p.all FV.isFin) then 0x80
  else match k, pts with
    | .segx, [a, b, c, d] => segxByte sym a b c d
    | _, _ =>
      if hasEqual pts then 0x28
      else
        let r := signUnder sym k (geomDim k) pts
        resultByte (signCode r.sign) r.stage (r.stage == 3) false

/-- The first non-finite coordinate of a lane as LANE, PT and CRD (R245). -/
def badCoord (k : GeomKind) (regs : List Nat) (i : Nat) : Option Word :=
  ((regs.zipIdx.find? fun r => !(fp64.value (fieldOf 64 r.1 i)).isFin).map fun r =>
    BitVec.ofNat 64 (i + 512 * (r.2 / geomDim k) + 4096 * (r.2 % geomDim k)))

/-- EADDR of GEOM_NONFINITE: the lowest non-finite lane, then point, then coordinate (R245). -/
def firstBad (k : GeomKind) (regs : List Nat) : Option Word := (List.range 512).findSome? (badCoord k regs)

/-- The result bytes of all lanes. -/
def geomBytes (k : GeomKind) (sym : Bool) (regs : List Nat) : List Nat :=
  (List.range 512).map fun i => laneByte k sym (lanePoints k regs i)

/-- The result tile: 512 result bytes, the rest zero (R242). -/
def geomTile (bytes : List Nat) : BitVec 32768 := BitVec.ofNat 32768 (leNat (bytes.map fun b => BitVec.ofNat 8 b))

/-- Result row j of 0 to 3 is fed by rows 8j to 8j + 7 of every register (R253). -/
def geomPoison (p : BitVec 32) : BitVec 32 :=
  BitVec.ofNat 32 ((List.range 4).map fun j =>
    if (List.range 8).any fun i => p.getLsbD (8 * j + i) then 2 ^ j else 0).sum

end Sys2Proof.Machine
end

