-- ==== Sys2Proof/Machine/VecEval.lean ====
section
/-! DEFINITION. What the instructions of the vector unit compute: elements, rows that feed a row, and the write each
makes (spec/07 R148 to R165, spec/08 R180, spec/09 R207 to R210). -/

namespace Sys2Proof.Machine

/-! ## Elements -/

/-- The exponent d with 2^d elements of w bits in a tile, w a power of two. -/
def tileDepth (w : Nat) : Nat := 15 - Nat.log2 w

/-- A tile from its elements of w bits. -/
def tileOf (w : Nat) (f : Nat → Nat) : Nat := packFields w f (tileDepth w) 0

/-- All ones of w bits, or zero. -/
def onesIf (w : Nat) (b : Bool) : Nat := if b then 2 ^ w - 1 else 0

/-- Index operand: bytes 0 to 3 of a tile as UINT32 (R159). -/
def indexOf (v : Nat) : Nat := v % 2 ^ 32

/-! ## Arithmetic on one element (R148 to R150) -/

/-- The smaller (or larger) of two floating-point codes: the default NaN if either is NaN, -0 below +0, the chosen
operand unchanged (R150). Which of two equal values with different codes is chosen (NF infinities of one sign) the rule
leaves open: here the minimum takes a and the maximum b (assumption log 32). -/
def fltPick (f : Fmt) (larger : Bool) (a b : Nat) : Nat :=
  match f.value a, f.value b with
  | .nan, _ => f.qnan
  | _, .nan => f.qnan
  | x, y =>
    let less := match FV.cmp x y with
      | .lt => true
      | .gt => false
      | .eq => x.isNeg || !y.isNeg
    if less != larger then a else b

/-- One operation of Table 7.3 on a floating-point type. -/
def fltEl (op : ArithOp) (f : Fmt) (rm : RM) (sat : Bool) (a b c : Nat) : Nat :=
  let x := f.value a
  let y := f.value b
  let z := f.value c
  let sign := fun (v : Nat) => match x with
    | .nan => f.qnan
    | _ => v
  match op with
  | .add => roundFV f rm sat (FV.add rm x y)
  | .sub => roundFV f rm sat (FV.add rm x y.neg)
  | .mul => roundFV f rm sat (FV.mul x y)
  | .fma => roundFV f rm sat (FV.fma rm x y z)
  | .fms => roundFV f rm sat (FV.fma rm x y z.neg)
  | .min => fltPick f false a b
  | .max => fltPick f true a b
  | .abs => sign (a % 2 ^ (f.w + f.eb))
  | .neg => sign (a ^^^ 2 ^ (f.w + f.eb))
  | .div => divRound f rm sat x y
  | .sqrt => sqrtRound f rm sat x

/-- One operation of Table 7.3 on an integer type (R149). -/
def intEl (op : ArithOp) (t : ElemTy) (sat : Bool) (a b c : Nat) : Nat :=
  let x := intVal t a
  let y := intVal t b
  let z := intVal t c
  match op with
  | .add => intPut t sat (x + y)
  | .sub => intPut t sat (x - y)
  | .mul => intPut t sat (x * y)
  | .fma => intPut t sat (x * y + z)
  | .fms => intPut t sat (x * y - z)
  | .min => if x ≤ y then a else b
  | .max => if x ≤ y then b else a
  | .abs => intPut t sat x.natAbs
  | .neg => intPut t sat (-x)
  | .div => a
  | .sqrt => a

/-- One operation of Table 7.3. DIV and SQRT exist on floating-point types only. -/
def arithEl (op : ArithOp) (t : ElemTy) (rm : RM) (sat : Bool) (a b c : Nat) : Nat :=
  match fmtOf t with
  | some f => fltEl op f rm sat a b c
  | none => intEl op t sat a b c

/-- A transcendental (R151). -/
def transEl (op : TransOp) (t : ElemTy) (sat : Bool) (a : Nat) : Nat :=
  match fmtOf t with
  | some f =>
    let x := f.value a
    match op with
    | .rcp => rcpRound f sat x
    | .rsq => rsqRound f sat x
    | .exp2 => exp2Round f sat x
    | .log2 => log2Round f sat x
  | none => a

/-- Logic and shifts on elements of w bits (R152). -/
def logicEl (op : LogicOp) (w a b : Nat) : Nat :=
  match op with
  | .and => a &&& b
  | .or => a ||| b
  | .xor => a ^^^ b
  | .not => 2 ^ w - 1 - a
  | .shl => if w ≤ b then 0 else a * 2 ^ b % 2 ^ w
  | .shr => if w ≤ b then 0 else a / 2 ^ b
  | .sar =>
    let s := min b w
    wrapInt w (toSigned w a / 2 ^ s)

/-- A condition on an ordering. -/
def condOf (c : Cond) (o : Ordering) : Bool :=
  match c with
  | .eq => o == .eq
  | .ne => o != .eq
  | .lt => o == .lt
  | .le => o != .gt
  | .gt => o == .gt
  | .ge => o != .lt

/-- VCMP on one element (R153): a NaN makes every condition false but NE. -/
def cmpEl (c : Cond) (t : ElemTy) (a b : Nat) : Bool :=
  match fmtOf t with
  | some f =>
    match f.value a, f.value b with
    | .nan, _ => c == .ne
    | _, .nan => c == .ne
    | x, y => condOf c (FV.cmp x y)
  | none => condOf c (compare (intVal t a) (intVal t b))

/-- One step of a reduction or scan (R160). -/
def redEl (op : RedOp) (t : ElemTy) (rm : RM) (sat : Bool) (a b : Nat) : Nat :=
  match op with
  | .add => arithEl .add t rm sat a b 0
  | .min => arithEl .min t rm false a b 0
  | .max => arithEl .max t rm false a b 0
  | .and => a &&& b
  | .or => a ||| b
  | .xor => a ^^^ b

/-- Halve a level pairwise (R160). -/
def pairUp (f : Nat → Nat → Nat) : List Nat → List Nat
  | a :: b :: rest => f a b :: pairUp f rest
  | l => l

/-- The tree reduction of a segment of 2^d elements (R160). -/
def treeRed (f : Nat → Nat → Nat) : Nat → List Nat → Nat
  | 0, l => l.headD 0
  | d + 1, l => treeRed f d (pairUp f l)

/-- The inclusive scan of a segment (R160). -/
def scanSeg (f : Nat → Nat → Nat) : List Nat → List Nat
  | [] => []
  | x :: rest => x :: (rest.foldl (fun (st : Nat × List Nat) y =>
      let z := f st.1 y
      (z, z :: st.2)) (x, [])).2.reverse

/-- Prefix XOR of w bits, doubling n times (R161). -/
def prefixXor (w : Nat) (x : Nat) : Nat → Nat → Nat
  | 0, _ => x
  | n + 1, sh => prefixXor w ((x ^^^ (x * 2 ^ sh)) % 2 ^ w) n (2 * sh)

/-- Carry-less product of two numbers over the n lowest bits of b (R162). -/
def clmulNat (a b : Nat) : Nat → Nat
  | 0 => 0
  | n + 1 => clmulNat a b n ^^^ (if b.testBit n then a * 2 ^ n else 0)

/-- Number of one bits among the n lowest. -/
def popNat (a : Nat) : Nat → Nat
  | 0 => 0
  | n + 1 => popNat a n + (if a.testBit n then 1 else 0)

/-- Leading zero bits of an element of w bits. -/
def clzNat (w a : Nat) : Nat := if a == 0 then w else w - 1 - Nat.log2 a

/-! ## Values and poison of whole tiles -/

/-- A tile source's value. -/
def RegVal.nat : RegVal → Nat
  | .tile v _ => v.toNat
  | .acc v _ => v.toNat
  | .sig v => v.toNat

/-- A tile source's row poison. -/
def RegVal.rows : RegVal → BitVec 32
  | .tile _ p => p
  | _ => 0

/-- An accumulator source's row poison. -/
def RegVal.accRows : RegVal → BitVec 128
  | .acc _ p => p
  | _ => 0

/-- Value of operand i. -/
def argNat (l : List RegVal) (i : Nat) : Nat := ((l[i]?).map RegVal.nat).getD 0
/-- Row poison of operand i. -/
def argRows (l : List RegVal) (i : Nat) : BitVec 32 := ((l[i]?).map RegVal.rows).getD 0
/-- Accumulator row poison of operand i. -/
def argAcc (l : List RegVal) (i : Nat) : BitVec 128 := ((l[i]?).map RegVal.accRows).getD 0

/-- Rows by a test. -/
def rowsBy (f : Nat → Bool) : BitVec 32 :=
  BitVec.ofNat 32 ((List.range 32).map fun r => if f r then 2 ^ r else 0).sum

/-- Row j fed by row j of every source (Table 7.11). -/
def sameRows (l : List RegVal) : BitVec 32 := (l.map RegVal.rows).foldl (· ||| ·) 0

/-- All rows if some row is set. -/
def anyRows (p : BitVec 32) : BitVec 32 := if p == 0 then 0 else BitVec.allOnes 32

/-- The write of a whole result under a row mask (R144). -/
def tileWrite (mask : BitVec 32) (v : Nat) (p : BitVec 32) : WriteData :=
  .tile (BitVec.ofNat 32768 v) (rowMaskBits mask) p mask

/-! ## Conversion (R156) -/

/-- Elements first to first + n − 1 of the destination are written, destination element j from source element
j + from − first. -/
structure CvtPlan where
  first : Nat
  count : Nat
  src : Nat
  whole : Bool
deriving DecidableEq, Repr

/-- The slice a part covers (R156). -/
def cvtPlan (sty dty : ElemTy) (p : Nat) : CvtPlan :=
  let nS := ElemTy.perTile sty
  let nD := ElemTy.perTile dty
  if nD ≤ nS then ⟨0, min nD (nS - p * nD), p * nD, true⟩
  else ⟨p * nS, min nS (nD - p * nS), 0, false⟩

/-- The code of a rounding mode (Table 3.5). -/
def RM.code : RM → Nat
  | .rne => 0
  | .rz => 1
  | .ru => 2
  | .rd => 3

/-- One destination element of a conversion; for I4X the nibble of its pair, a free function of the inputs where the partner
of the pair lies outside the part (R79, assumption log 7), and any but 0b1000, which no conversion may leave in such a place
(R61). -/
def cvtElem (sty dty : ElemTy) (rm : RM) (sat : Bool) (a : Nat) (q : CvtPlan) (j : Nat) : Nat :=
  let val := fun (j : Nat) => cvtSource sty a (j - q.first + q.src)
  if dty == .i4x then
    let e := j / 2 * 2
    if q.first ≤ e && e + 1 < q.first + q.count then
      fieldOf 4 (toI4x rm (val e) (val (e + 1))) (j % 2)
    else
      let half := Config.i4xHalf (BitVec.ofNat 32768 a) rm.code j
      if half == 8 then 0 else half.toNat
  else cvtTo sty dty rm sat (val j)

/-- Source rows that hold source elements a to b − 1 (Table 7.11). -/
def elemRows (w a b : Nat) (p : BitVec 32) : Bool :=
  decide (a < b) && (List.range 32).any fun r =>
    p.getLsbD r && decide (w * a < 1024 * (r + 1)) && decide (1024 * r < w * b)

/-- VCVT under a row mask: an element that crosses two rows is written only if both are selected (R59). Where the destination
holds no more elements, every selected row takes the poison of the rows that feed it (R144); where it holds more, a row that
keeps any old byte keeps its old poison too (R156). -/
def cvtWrite (sty dty : ElemTy) (rm : RM) (sat : Bool) (part : Nat) (mask : BitVec 32) (src : RegVal) : WriteData :=
  let w := ElemTy.bits dty
  let q := cvtPlan sty dty part
  let a := src.nat
  let n := ElemTy.perTile dty
  let depth := if w == 24 then 11 else tileDepth w
  let inPart := fun (j : Nat) => decide (q.first ≤ j) && decide (j < q.first + q.count)
  let sel := fun (j : Nat) => mask.getLsbD (w * j / 1024) && mask.getLsbD ((w * (j + 1) - 1) / 1024)
  let written := fun (j : Nat) => decide (j < n) && (inPart j || q.whole) && sel j
  let v := packFields w (fun j =>
    if inPart j then cvtElem sty dty rm sat a q j else 0) depth 0
  let m := packFields w (fun j => onesIf w (written j)) depth 0
  let m := BitVec.ofNat 32768 (m % 2 ^ 32768) |||
    (if w == 24 && q.whole && mask.getLsbD 31 then BitVec.ofNat 32768 (0xFF * 2 ^ 32760) else 0)
  let keepTail := if w == 24 then BitVec.ofNat 32768 (2 ^ 32760 - 1) else BitVec.allOnes 32768
  let v := BitVec.ofNat 32768 (v % 2 ^ 32768) &&& keepTail
  let p := rowsBy fun r =>
    let lo := max q.first (1024 * r / w)
    let hi := min (q.first + q.count) ((1024 * (r + 1) - 1) / w + 1)
    elemRows (ElemTy.bits sty) (lo - q.first + q.src) (hi - q.first + q.src) src.rows
  let rowBits := fun (r : Nat) => fieldOf 1024 m.toNat r
  let full := rowsBy fun r => rowBits r == 2 ^ 1024 - 1
  let some' := rowsBy fun r => rowBits r != 0
  .tile v m p (if q.whole then mask else full ||| (some' &&& p))

/-! ## The functions -/

/-- Sources selected into packed planes or back (R207): byte a of the result from byte f a. -/
def byteMap (a : Nat) (f : Nat → Nat) : Nat := packFields 8 (fun i => fieldOf 8 a (f i)) 12 0

/-- Row r fed by rows 4(r/4) to 4(r/4) + 3 (R207). -/
def quadRows (p : BitVec 32) : BitVec 32 :=
  rowsBy fun r => (List.range 4).any fun i => p.getLsbD (r / 4 * 4 + i)

/-- NRND on one NF32 code (R208). -/
def nrndEl (fn : RndFn) (n : Nat) (rm : RM) (sat : Bool) (v : Nat) : Nat :=
  let sh := 2 ^ (8 * (4 - n))
  match fn with
  | .trunc => v / sh * sh
  | .rn1 => rn1Round n (v / sh) (v / 2 ^ (8 * (3 - n)) % 256) * sh
  | .rnd => roundFV (nfFmt n) rm sat ((nfFmt 4).value v) * sh

/-- Planes of NRND's type. -/
def nrndPlanes : ElemTy → Nat
  | .nf8 => 1
  | .nf16 => 2
  | _ => 3

/-- NUPD's new weights (R210). -/
def nupdEl (eta : BitVec 32) (t : ElemTy) (w m : Nat) : Nat :=
  let x := (nfFmt 4).value w
  let g := fltValue t m
  roundFV (nfFmt 4) .rne false (FV.add .rne x (FV.mul (fp32.value eta.toNat) g).neg)

/-- NUPD's carry mask (R210). -/
def carryMask (old new : Nat) (p : BitVec 32) : BitVec 32 :=
  rowsBy fun i =>
    let b := i / 4
    let k := i % 4
    ((List.range 4).any fun r => p.getLsbD (4 * b + r)) ||
      (List.range 128).any fun e =>
        fieldOf 8 old (4 * (128 * b + e) + 3 - k) != fieldOf 8 new (4 * (128 * b + e) + 3 - k)

/-- The tile-vector functions of one source tile shape: value and feeding rows of the whole result. -/
def vecTile (fn : VecFn) (args : List RegVal) : Nat × BitVec 32 :=
  let a := argNat args 0
  let b := argNat args 1
  let c := argNat args 2
  let pa := argRows args 0
  let pb := argRows args 1
  let pc := argRows args 2
  let same := sameRows args
  match fn with
  | .arith op t rm sat =>
    let w := ElemTy.bits t
    (tileOf w fun i => arithEl op t rm sat (fieldOf w a i) (fieldOf w b i) (fieldOf w c i), same)
  | .trans op t sat =>
    let w := ElemTy.bits t
    (tileOf w fun i => transEl op t sat (fieldOf w a i), same)
  | .logic op t =>
    let w := ElemTy.bits t
    (tileOf w fun i => logicEl op w (fieldOf w a i) (fieldOf w b i), same)
  | .cmp cond t =>
    let w := ElemTy.bits t
    (tileOf w fun i => onesIf w (cmpEl cond t (fieldOf w a i) (fieldOf w b i)), same)
  | .cmpb cond =>
    (packFields 1 (fun j => if condOf cond (compare (fieldOf 8 a j) (fieldOf 8 b j)) then 1 else 0) 12 0,
      rowsBy fun j => decide (j < 4) && (List.range 8).any fun i => (pa ||| pb).getLsbD (8 * j + i))
  | .sel t =>
    let w := ElemTy.bits t
    (tileOf w fun i => if fieldOf w c i != 0 then fieldOf w a i else fieldOf w b i, same)
  | .mov => (a, same)
  | .splat t =>
    let w := ElemTy.bits t
    (tileOf w fun _ => fieldOf w a 0, rowsBy fun _ => pa.getLsbD 0)
  | .gete t =>
    let w := ElemTy.bits t
    let i := indexOf b
    let ok := decide (i < ElemTy.perTile t)
    (if ok then fieldOf w a i else 0,
      rowsBy fun j => j == 0 && (pb.getLsbD 0 || (ok && pa.getLsbD (w * i / 1024))))
  | .pute t =>
    let w := ElemTy.bits t
    let i := indexOf b
    let ok := decide (i < ElemTy.perTile t)
    (if ok then a - fieldOf w a i * 2 ^ (w * i) + fieldOf w c 0 * 2 ^ (w * i) else a,
      rowsBy fun j => pa.getLsbD j || pb.getLsbD 0 || (ok && w * i / 1024 == j && pc.getLsbD 0))
  | .red op row t rm sat =>
    let w := ElemTy.bits t
    let d := if row then tileDepth w - 5 else tileDepth w
    let f := redEl op t rm sat
    let seg := fun (k : Nat) => (List.range (2 ^ d)).map fun h => fieldOf w a (k * 2 ^ d + h)
    (tileOf w fun i => if i % 2 ^ d == 0 then treeRed f d (seg (i / 2 ^ d)) else 0,
      if row then same else anyRows pa)
  | .scan op row t rm sat =>
    let w := ElemTy.bits t
    let d := if row then tileDepth w - 5 else tileDepth w
    let f := redEl op t rm sat
    let seg := fun (k : Nat) => scanSeg f ((List.range (2 ^ d)).map fun h => fieldOf w a (k * 2 ^ d + h))
    let all := ((List.range (if row then 32 else 1)).map seg).flatten.toArray
    (tileOf w fun i => all.getD i 0,
      if row then same else rowsBy fun j => (List.range (j + 1)).any fun i => pa.getLsbD i)
  | .pxor tile t =>
    let w := ElemTy.bits t
    if tile then (prefixXor 32768 a 15 1, rowsBy fun j => (List.range (j + 1)).any fun i => pa.getLsbD i)
    else (tileOf w fun i => prefixXor w (fieldOf w a i) 6 1, same)
  | .clmul hi =>
    (tileOf 64 fun i =>
      let z := clmulNat (fieldOf 64 a i) (fieldOf 64 b i) 64
      if hi then z / 2 ^ 64 else z % 2 ^ 64, same)
  | .popc t =>
    let w := ElemTy.bits t
    (tileOf w fun i => popNat (fieldOf w a i) w, same)
  | .clz t =>
    let w := ElemTy.bits t
    (tileOf w fun i => clzNat w (fieldOf w a i), same)
  | .perm t =>
    let w := ElemTy.bits t
    let e := 1024 / w
    (tileOf w fun i => fieldOf w a (i / e * e + fieldOf w b i % e), same)
  | .shuf =>
    let src := fun (j : Nat) => fieldOf 8 b j % 32
    (packFields 1024 (fun j => fieldOf 1024 a (src j)) 5 0,
      rowsBy fun j => pb.getLsbD 0 || pa.getLsbD (src j))
  | .trn t =>
    let w := ElemTy.bits t
    let e := 1024 / w
    let sd := min 32 e
    (tileOf w fun i =>
      let r := i / e
      let k := i % e
      fieldOf w a ((r / sd * sd + k % sd) * e + k / sd * sd + r % sd),
      rowsBy fun j => (List.range sd).any fun i => pa.getLsbD (j / sd * sd + i))
  | .bcastr =>
    let i := indexOf b
    let ok := decide (i < 32)
    (if ok then packFields 1024 (fun _ => fieldOf 1024 a i) 5 0 else 0,
      rowsBy fun _ => pb.getLsbD 0 || (ok && pa.getLsbD i))
  | .comp t =>
    let w := ElemTy.bits t
    let n := ElemTy.perTile t
    let picked := (((List.range n).filter fun j => b.testBit j).map fun j => fieldOf w a j).toArray
    (tileOf w fun i => picked.getD i 0, anyRows (pa ||| pb))
  | .npack => (byteMap a fun i => 4 * (128 * (i / 512) + i % 128) + 3 - i % 512 / 128, quadRows pa)
  | .nunpk => (byteMap a fun i => 512 * (i / 512) + 128 * (3 - i % 4) + i % 512 / 4, quadRows pa)
  | .nrnd f t rm sat => (tileOf 32 fun i => nrndEl f (nrndPlanes t) rm sat (fieldOf 32 a i), same)
  | .nmom beta t rm sat =>
    (tileOf 32 fun i => match fmtOf t with
      | some f => roundFV f rm sat
          (FV.fma rm (fp32.value beta.toNat) (f.value (fieldOf 32 a i)) (f.value (fieldOf 32 b i)))
      | none => 0, same)
  | .nupd eta t cm _ =>
    let v := tileOf 32 fun i => nupdEl eta t (fieldOf 32 a i) (fieldOf 32 b i)
    if cm then ((carryMask a v (pa ||| pb)).toNat, rowsBy fun j => j == 0 && (pa ||| pb) != 0)
    else (v, same)
  | .amovToTile q j =>
    (packFields 1024 (fun r => a / 2 ^ (8 * (512 * (32 * q.toNat + r) + 128 * j.toNat)) % 2 ^ 1024) 5 0,
      rowsBy fun r => (argAcc args 0).getLsbD (32 * q.toNat + r))
  | .cvt _ _ _ _ _ => (a, same)
  | .amovToAcc _ _ => (a, same)
  | .azero => (0, 0)
  | .aadd _ _ _ => (a, same)

/-- Row poison in the view of a type: a row of the FP64 view counts as poisoned if either of its two 32-bit rows is,
and poisoning it sets both bits (R167). -/
def viewPoison (t : ElemTy) (p : BitVec 128) : BitVec 128 :=
  if t == .fp64 then
    BitVec.ofNat 128 ((List.range 64).map fun r =>
      if p.getLsbD (2 * r) || p.getLsbD (2 * r + 1) then 3 * 2 ^ (2 * r) else 0).sum
  else p

/-- What an instruction of the vector unit writes under its mask, with the row mask register it also writes
(R144, R180, R210). -/
def vecData (fn : VecFn) (mask : BitVec 32) (args : List RegVal) : WriteData × Option (MReg × BitVec 32) :=
  match fn with
  | .cvt sty dty rm sat part =>
    (cvtWrite sty dty rm sat part mask ((args[0]?).getD (.tile 0 0)), none)
  | .amovToAcc q j =>
    let off := fun (r : Nat) => 8 * (512 * (32 * q.toNat + r) + 128 * j.toNat)
    let put := fun (f : Nat → Nat) => BitVec.ofNat 524288 ((List.range 32).map fun r => f r * 2 ^ off r).sum
    let p : BitVec 128 := (argRows args 0 &&& mask).zeroExtend 128 <<< (32 * q.toNat)
    (.acc (put fun r => fieldOf 1024 (argNat args 0) r)
      (put fun r => if mask.getLsbD r then 2 ^ 1024 - 1 else 0) p p, none)
  | .azero => (.acc 0 (BitVec.allOnes 524288) 0 (BitVec.allOnes 128), none)
  | .aadd t rm sat =>
    let w := ElemTy.bits t
    let v := packFields w (fun i => arithEl .add t rm sat (fieldOf w (argNat args 0) i)
      (fieldOf w (argNat args 1) i) 0) (19 - Nat.log2 w) 0
    (.acc (BitVec.ofNat 524288 v) (BitVec.allOnes 524288) (viewPoison t (argAcc args 0 ||| argAcc args 1))
      (BitVec.allOnes 128), none)
  | .nupd eta t cm k =>
    let r := vecTile (.nupd eta t cm k) args
    let v := tileOf 32 fun i =>
      nupdEl eta t (fieldOf 32 (argNat args 0) i) (fieldOf 32 (argNat args 1) i)
    (tileWrite mask r.1 r.2, some (k, carryMask (argNat args 0) v (argRows args 0 ||| argRows args 1)))
  | fn =>
    let r := vecTile fn args
    (tileWrite mask r.1 r.2, none)

end Sys2Proof.Machine
end

