-- ==== Sys2Proof/Machine/MatrixEval.lean ====
section
/-! DEFINITION. What the matrix array computes: latching, pairings, products and accumulation (spec/03 R70, R77, R78,
spec/08 R167 to R183). -/

namespace Sys2Proof.Machine

/-! ## Pairings (Table 8.1) -/

/-- A pair the array accepts: the FP64 view or the 32-bit view, elements per activation row, and the largest KSEL. -/
structure Pairing where
  wide : Bool
  k : Nat
  ksel : Nat
deriving DecidableEq, Repr

/-- Table 8.1. -/
def pairing (t : ElemTy) (f : WFmt) : Option Pairing :=
  match t, f with
  | .i8, .int8 => some ⟨false, 128, 0⟩
  | .i8, .int4 => some ⟨false, 128, 1⟩
  | .i8, .i4x => some ⟨false, 128, 1⟩
  | .i4, .int4 => some ⟨false, 256, 0⟩
  | .i4, .i4x => some ⟨false, 256, 0⟩
  | .nf8, .nf => some ⟨false, 128, 0⟩
  | .nf16, .nf => some ⟨false, 64, 1⟩
  | .nf32, .nf => some ⟨false, 32, 3⟩
  | .fp64, .fp64 => some ⟨true, 16, 3⟩
  | _, _ => none

/-! ## Weights (R171) -/

/-- Byte i of a number. -/
def byteOf (v i : Nat) : Nat := v / 2 ^ (8 * i) % 256

/-- A weight as an exact value: row k of a column whose 512-byte block is blk (R171). -/
def weightVal (f : LatchFmt) (blk : Nat) (k : Nat) : FV :=
  match f.fmt with
  | .int8 => intFV (toSigned 8 (byteOf blk k))
  | .int4 => intFV (toSigned 4 (fieldOf 4 blk k))
  | .i4x =>
    let p := i4xPair (byteOf blk (k / 2))
    intFV (if k % 2 == 0 then p.1 else p.2)
  | .nf =>
    let n := f.np.toNat + 1
    let v := (List.range n).foldl (fun v p => 256 * v + byteOf blk (128 * p + k)) 0
    (nfFmt n).value (if f.rn then rn1Round n v (byteOf blk (128 * n + k)) else v)
  | .fp64 => fp64.value (fieldOf 64 blk k)

/-- Weight rows a format holds (R171). -/
def latchRows : WFmt → Nat
  | .int8 => 128
  | .int4 => 256
  | .i4x => 256
  | .nf => 128
  | .fp64 => 64

/-- No NaN and no infinity. -/
def FV.finite : FV → Bool
  | .fin _ _ _ => true
  | _ => false

/-- The block of column c. -/
def Latch.block (l : Latch) (c : Nat) : Nat := fieldOf 4096 l.w.toNat c

/-- The format of a latch. -/
def Latch.format (l : Latch) : LatchFmt := ⟨l.fmt, l.np, l.rn⟩

/-- LFIN: every weight is finite (R172). -/
def latchFin (f : LatchFmt) (w : Nat) : Bool :=
  match f.fmt with
  | .nf => (List.range 128).all fun c => (List.range 128).all fun k => (weightVal f (fieldOf 4096 w c) k).finite
  | .fp64 => (List.range 128).all fun c => (List.range 64).all fun k => (weightVal f (fieldOf 4096 w c) k).finite
  | _ => true

/-- n rows of 128 bytes as one number. -/
def rowsOfBytes : Nat → List Byte → Nat
  | 0, _ => 0
  | n + 1, l => leNat (l.take 128) + 2 ^ 1024 * rowsOfBytes n (l.drop 128)

/-- Latched weights from the bytes of the weight buffer (R172): 128 blocks and, for NF, 128 scales. -/
def latchFrom (f : LatchFmt) (off : Nat) (blocks scales : List Byte) : Latch :=
  let w := rowsOfBytes 512 blocks
  { fmt := f.fmt, np := f.np, rn := f.rn, off := off, w := BitVec.ofNat 524288 w,
    sw := BitVec.ofNat 1024 (leNat (scales.take 128)), fin := latchFin f w }

/-! ## Products and sums (R70, R77, R78) -/

/-- An activation element as an exact value (R177). -/
def actVal (t : ElemTy) (x : Nat) (i : Nat) : FV :=
  let w := ElemTy.bits t
  let v := fieldOf w x i
  if ElemTy.isInteger t then intFV (intVal t v) else fltValue t v

/-- A value times a power of two. -/
def FV.scale (v : FV) (k : Int) : FV :=
  match v with
  | .fin n m e => .fin n m (e + k)
  | v => v

/-- The exact scaled product of R70; a scale of 0xFF makes it NaN. -/
def scaledProduct (x w : FV) (sx sw : Nat) : FV :=
  if sx == 0xFF || sw == 0xFF then .nan
  else (FV.mul x w).scale ((sx : Int) - 127 + ((sw : Int) - 127))

/-- Groups of n. -/
def groupsOf (n : Nat) (l : List FV) : Nat → List (List FV)
  | 0 => []
  | d + 1 => if l.isEmpty then [] else l.take n :: groupsOf n (l.drop n) d

/-- Add groups of products to an accumulator value in order, one rounding each, RNE (R77, R78). -/
def accumulate (f : Fmt) (n : Nat) (acc : Nat) (products : List FV) : Nat :=
  (groupsOf n products (products.length + 1)).foldl (fun acc g =>
    roundFV f .rne false (g.foldl (fun s p => FV.add .rne s p) (f.value acc))) acc

/-- Exact integer value of a finite integer product. -/
def FV.toInteger : FV → Int
  | .fin n m e => (if n then -1 else 1) * ((m * 2 ^ e.toNat : Nat) : Int)
  | _ => 0

/-- One output element (R177): acc plus the products of one activation row with one column. -/
def dotElem (t : ElemTy) (acc : Nat) (products : List FV) : Nat :=
  if ElemTy.isInteger t then
    wrapInt 32 (toSigned 32 acc + (products.map FV.toInteger).sum)
  else if t == .fp64 then accumulate fp64 4 acc products
  else accumulate fp32 32 acc products

/-- Bits of one row of the view. -/
def viewRow (wide : Bool) : Nat := if wide then 8192 else 4096

/-- One band row: 128 elements from activation row r of x, with weight rows from ksel·K on. -/
def bandRow (t : ElemTy) (p : Pairing) (l : Latch) (cols : Array (Array FV)) (x r sa : Nat) (acc : Nat) : Nat :=
  let w := if p.wide then 64 else 32
  let xs := (List.range p.k).map fun k => actVal t x (r * p.k + k)
  let isNf := l.fmt == .nf
  packFields w (fun c =>
    let ws := cols.getD c #[]
    let sw := if isNf then byteOf l.sw.toNat c else 127
    let prods := xs.zipIdx.map fun xk => scaledProduct xk.1 (ws.getD xk.2 .nan) (if isNf then sa else 127) sw
    dotElem t (fieldOf w acc c) prods) 7 0

/-- The weights of every column for rows ksel·K to ksel·K + K − 1. -/
def latchCols (p : Pairing) (l : Latch) (ksel : Nat) : Array (Array FV) :=
  ((List.range 128).map fun c =>
    let blk := l.block c
    ((List.range p.k).map fun k => weightVal l.format blk (ksel * p.k + k)).toArray).toArray

/-- A band: rows r with the mask set from acc, the others as they were in acc. acc holds 32 rows of the view. -/
def bandMac (t : ElemTy) (p : Pairing) (l : Latch) (ksel : Nat) (mask : BitVec 32) (x : Nat) (scales : Option Nat)
    (acc : Nat) : Nat :=
  let cols := latchCols p l ksel
  packFields (viewRow p.wide) (fun r =>
    let old := fieldOf (viewRow p.wide) acc r
    if mask.getLsbD r then
      bandRow t p l cols x r (match scales with
        | some s => byteOf s r
        | none => 127) old
    else old) 5 0

/-- The band's place in an accumulator: bit offset of its first row. -/
def bandShift (wide : Bool) (band : Nat) : Nat := viewRow wide * 32 * band

/-- Poison bits of view row r of a band. -/
def bandPoisonBits (wide : Bool) (band : Nat) (f : Nat → Bool) : BitVec 128 :=
  BitVec.ofNat 128 ((List.range 32).map fun r =>
    if f r then (if wide then 3 * 2 ^ (2 * (32 * band + r)) else 2 ^ (32 * band + r)) else 0).sum

/-- View row r of a band is poisoned (R167). -/
def bandBad (wide : Bool) (band : Nat) (p : BitVec 128) (r : Nat) : Bool :=
  if wide then p.getLsbD (2 * (32 * band + r)) || p.getLsbD (2 * (32 * band + r) + 1) else p.getLsbD (32 * band + r)

/-- A write of selected rows of a band, in place. -/
def bandWrite (wide : Bool) (band : Nat) (mask : BitVec 32) (v : Nat) (bad : Nat → Bool) : WriteData :=
  let sh := bandShift wide band
  let rows := packFields (viewRow wide) (fun r => if mask.getLsbD r then 2 ^ viewRow wide - 1 else 0) 5 0
  .acc (BitVec.ofNat 524288 (v * 2 ^ sh)) (BitVec.ofNat 524288 (rows * 2 ^ sh))
    (bandPoisonBits wide band fun r => mask.getLsbD r && bad r)
    (bandPoisonBits wide band fun r => mask.getLsbD r)

/-- The write of an MMA on a latch (R177). -/
def mmaWrite (m : MmaOp) (l : Latch) : WriteData :=
  match pairing m.ty l.fmt with
  | none => .count
  | some p =>
    let band := m.band.toNat
    let acc := if m.za then 0 else m.b.toNat / 2 ^ bandShift p.wide band
    let v := bandMac m.ty p l m.ksel.toNat m.mask m.x.toNat (if m.as then some m.s.toNat else none) acc
    bandWrite p.wide band m.mask v fun r =>
      m.xp.getLsbD r || (m.as && m.sp.getLsbD 0) || (!m.za && bandBad p.wide band m.bp r)

/-- The write of an MMA that finds the latch empty, or whose checker finds a mismatch (R179): the selected rows are
poisoned; their value is kept, or is unpredictable. -/
def mmaPoison (m : MmaOp) (free : Option (BitVec 524288)) : WriteData :=
  let wide := m.ty == .fp64
  match bandWrite wide m.band.toNat m.mask 0 fun _ => true with
  | .acc _ k pv pm =>
    match free with
    | some v => .acc v k pv pm
    | none => .acc 0 0 pv pm
  | d => d

/-! ## Nests (R182, R183, R187) -/

/-- Trip count of a level: 0 reads as 1. -/
def NestLevel.trips (l : NestLevel) : Nat := if l.n == 0 then 1 else l.n.toNat

/-- Trip counts of the six levels, outermost first. -/
def NestSet.trips (n : NestSet) : List Nat := n.lv.toList.map NestLevel.trips

/-- CFG fields (R182). -/
def NestSet.ty (n : NestSet) : BitVec 5 := n.cfg.extractLsb' 0 5
def NestSet.wfmt (n : NestSet) : BitVec 4 := n.cfg.extractLsb' 5 4
def NestSet.np (n : NestSet) : BitVec 2 := n.cfg.extractLsb' 9 2
def NestSet.rn (n : NestSet) : Bool := n.cfg.getLsbD 11
def NestSet.ofmt (n : NestSet) : BitVec 2 := n.cfg.extractLsb' 12 2
def NestSet.rl (n : NestSet) : Nat := (n.cfg.extractLsb' 14 3).toNat
def NestSet.band (n : NestSet) : Nat := (n.cfg.extractLsb' 17 1).toNat

/-- Element type codes of Table 8.1. -/
def nestTy (c : BitVec 5) : Option ElemTy :=
  if c == 0x03 then some .i8 else if c == 0x00 then some .i4 else if c == 0x0B then some .nf8
  else if c == 0x0C then some .nf16 else if c == 0x0E then some .nf32 else if c == 0x10 then some .fp64 else none

/-- Latched formats by code (R170). -/
def nestFmt (c : BitVec 4) : Option WFmt :=
  if c == 0 then some .int8 else if c == 1 then some .int4 else if c == 2 then some .i4x
  else if c == 3 then some .nf else if c == 4 then some .fp64 else none

/-- The type, format and pairing of a staging set. -/
def NestSet.pair (n : NestSet) : Option (ElemTy × WFmt × Pairing) := do
  let t ← nestTy n.ty
  let f ← nestFmt n.wfmt
  let p ← pairing t f
  some (t, f, p)

/-- Sub-code 5 does not apply (Table 8.5). -/
def NestSet.formOk (n : NestSet) : Bool :=
  match n.pair with
  | none => false
  | some (_, f, p) =>
    (f == .nf || (n.np == 0 && !n.rn)) && !(n.rn && n.np == 3) &&
      (n.ofmt == 0 || f == .nf) && !(p.wide && decide (1 < n.band)) && decide (n.rl ≤ 6)

/-- Weight stride of a level, signed. -/
def NestLevel.ws (l : NestLevel) : Int := l.sw.toInt

/-- Least and greatest weight offset over all steps: each level contributes its extreme index. -/
def NestSet.woRange (n : NestSet) : Int × Int :=
  n.lv.toList.foldl (fun (r : Int × Int) l =>
    let d := l.ws * ((l.trips - 1 : Nat) : Int)
    (r.1 + min 0 d, r.2 + max 0 d)) ((n.wo.toNat : Int), (n.wo.toNat : Int))

/-- Every weight offset of the nest is a multiple of 512: WO is, and so is every stride that some step takes
(Table 8.5). -/
def NestSet.woAligned (n : NestSet) : Bool :=
  n.wo.toNat % 512 == 0 && n.lv.toList.all fun l => l.trips == 1 || l.ws % 512 == 0

/-- Sub-code 4 does not apply (Table 8.5). For NF the table's "SC + (wo − WO)/512 + 127 exceeds 0xF_FFFF or is below 0" is read
as two tests: the last of the 128 scales lies in the buffer, and the first does, so that SC + (wo − WO)/512 itself is not
below 0; the words can also be read to ask that only of the sum with 127 (assumption log 28). -/
def NestSet.offsetsOk (n : NestSet) : Bool :=
  let (lo, hi) := n.woRange
  let isNf := nestFmt n.wfmt == some .nf
  let sc := (n.sc.toNat : Int)
  let wo := (n.wo.toNat : Int)
  n.woAligned && decide (0 ≤ lo) && decide (hi + 0xFFFF ≤ 0xFFFFF) &&
    (!isNf || (decide (0 ≤ sc + (lo - wo) / 512) && decide (sc + (hi - wo) / 512 + 127 ≤ 0xFFFFF)))

/-- The index of each level in step k of the whole nest, levels in order, the innermost fastest (R183). -/
def stepIndex (trips : List Nat) (k : Nat) : List Nat :=
  (trips.foldr (fun n (st : List Nat × Nat) => (st.2 % n :: st.1, st.2 / n)) ([], k)).1

/-- Steps in one group: the trips of levels RL to 5 (R183). -/
def NestSet.groupSteps (n : NestSet) : Nat := (n.trips.drop n.rl).foldl (· * ·) 1

/-- Number of groups: the trips of levels 0 to RL − 1 (R183). -/
def NestSet.groups (n : NestSet) : Nat := (n.trips.take n.rl).foldl (· * ·) 1

/-- A weighted sum of a step's indices. -/
def stepSum (f : NestLevel → Int) (lv : List NestLevel) (idx : List Nat) : Int :=
  ((lv.zip idx).map fun p => f p.1 * ((p.2 : Nat) : Int)).sum

/-- Weight offset of a step. -/
def NestSet.stepWo (n : NestSet) (k : Nat) : Int :=
  (n.wo.toNat : Int) + stepSum NestLevel.ws n.lv.toList (stepIndex n.trips k)

/-- Scale offset of a weight offset (R183). -/
def NestSet.scaleOff (n : NestSet) (wo : Int) : Int := (n.sc.toNat : Int) + (wo - (n.wo.toNat : Int)) / 512

/-- Activation address of a step, mod 2^51. -/
def NestSet.stepXa (n : NestSet) (k : Nat) : VAddr :=
  BitVec.ofInt 51 ((n.xa.toNat : Int) + stepSum (fun l => l.sa.toInt) n.lv.toList (stepIndex n.trips k))

/-- Output address of a group, from its first step, mod 2^51. -/
def NestSet.groupXo (n : NestSet) (g : Nat) : VAddr :=
  BitVec.ofInt 51 ((n.xo.toNat : Int) +
    stepSum (fun l => l.so.toInt) (n.lv.toList.take n.rl) (stepIndex n.trips (g * n.groupSteps)))

/-- Bytes of one stored element (R183). -/
def NestSet.outBytes (n : NestSet) (p : Pairing) : Nat :=
  if n.ofmt == 0 then (if p.wide then 8 else 4) else if n.ofmt == 3 then 4 else 2

/-- A stored element (R183). -/
def NestSet.outElem (n : NestSet) (v : Nat) : Nat :=
  if n.ofmt == 0 then v
  else roundFV (if n.ofmt == 1 then nfFmt 2 else if n.ofmt == 2 then bf16 else nfFmt 4) .rne false (fp32.value v)

/-- The bytes of one output row. -/
def NestSet.outRow (n : NestSet) (p : Pairing) (row : Nat) : List Byte :=
  let w := if p.wide then 64 else 32
  ((List.range 128).map fun c => leBytes (n.outBytes p) (n.outElem (fieldOf w row c))).flatten

end Sys2Proof.Machine
end

