-- ==== Sys2Proof/Machine/PumpUnit.lean ====
section
/-! DEFINITION. The units of pump commands: addresses, checks, and what a unit moves on this device (spec/10 R216 to R222,
spec/02 R46 to R48). -/

namespace Sys2Proof.Machine

/-- Bytes of an element. -/
def PumpCmd.size (m : PumpCmd) : Nat := 2 ^ m.esz

/-- Units of a command. -/
def PumpCmd.units (m : PumpCmd) : Nat :=
  match m.kind with
  | .pgath => m.e.toNat
  | .pscat => m.e.toNat
  | .pwld => m.c.toNat
  | _ => m.c.toNat / m.size

/-- Weight-buffer offsets of a PWLD. -/
def pwldOff (a : Word) : Nat := (a.extractLsb' 0 20).toNat
def pwldScale (a : Word) : Nat := (a.extractLsb' 20 20).toNat

/-- The runs of the weight buffer that a command writes: start and length (R47, R48). -/
def PumpCmd.weightRuns (m : PumpCmd) : List (Nat × Nat) :=
  if m.kind == .pwld then
    (pwldOff m.a, 512 * m.c.toNat) :: (if m.scl then [(pwldScale m.a, m.c.toNat)] else [])
  else []

/-- The command a pump holds. -/
def Pump.cmd : Pump → Option PumpCmd
  | .idle => none
  | .running m _ _ => some m
  | .parked m _ _ _ _ => some m

/-- Every command of a core that has not ended: queued, running or parked. -/
def Core.pumpCmds (k : Core) : List PumpCmd := k.pumpq ++ k.pump0.cmd.toList ++ k.pump1.cmd.toList

/-! ## The accesses of a unit (R216, R217) -/

/-- Why a pump goes no further: an address check, poison at the source with its physical address, an unreachable target, or
a translation not answered yet. -/
inductive PumpStop where
  | park (va : VAddr) (cause : BitVec 7) (write : Bool)
  | poison (pa : Nat)
  | lost
  | wait
deriving DecidableEq, Repr

/-- The context a pump's accesses translate under: they use no SUP page (R356). -/
def State.pumpCtx (s : State) (c : CoreId) (kind : AccKind) : TransCtx := { (s.core c).ctx .ctrl kind with sup := false }

/-- The place of one access of a pump. -/
def State.pumpLoc (s : State) (c : CoreId) (kind : AccKind) (size align : Nat) (planed : Bool) (va : VAddr) :
    Except PumpStop Loc :=
  let a : UnitAcc :=
    { c := c, x := s.pumpCtx c kind, size := size, align := align, planed := planed, engine := true, u64 := false }
  match s.checkUnit a va with
  | .ok l => .ok l
  | .miss _ => .error .wait
  | .pri _ => .error .wait
  | .fault cause ea => .error (.park ea cause (kind == .write))
  | .poison _ pa => .error (.poison pa)

/-- Bytes read at a checked place; poison ends the command (Table 26.3). -/
def State.pumpRead (s : State) (c : CoreId) (l : Loc) (n : Nat) : Except PumpStop (List Byte) :=
  let r := s.readLoc c (s.corePart c) l n
  if r.2 then .error (.poison (s.badAddr c l n)) else .ok r.1

/-- The address base + k, mod 2^51. -/
def addrPlus (base : Word) (k : Nat) : VAddr := (base + BitVec.ofNat 64 k).setWidth 51

/-- Bytes of an index. -/
def PumpCmd.iwBytes (m : PumpCmd) : Nat := if m.iw then 8 else 4

/-- The index of unit j (R217). -/
def State.pumpIdx (s : State) (c : CoreId) (m : PumpCmd) (j : Nat) : Except PumpStop Nat := do
  let l ← s.pumpLoc c .read m.iwBytes m.iwBytes false (addrPlus m.c (m.iwBytes * j))
  let bs ← s.pumpRead c l m.iwBytes
  pure (leNat bs)

/-- The source address of unit j, given its index; PFILL has none. -/
def PumpCmd.srcVa (m : PumpCmd) (j idx : Nat) : VAddr :=
  addrPlus m.b (m.size * (if m.kind == .pgath then idx else j))

/-- The destination address of unit j, given its index. -/
def PumpCmd.dstVa (m : PumpCmd) (j idx : Nat) : VAddr :=
  addrPlus m.a (m.size * (if m.kind == .pscat then idx else j))

/-- The command reads an index list. -/
def PumpCmd.indexed (m : PumpCmd) : Bool := m.kind == .pgath || m.kind == .pscat

/-- PREM goes to another device (R220). -/
def State.premRemote (s : State) (m : PumpCmd) : Bool :=
  m.kind == .prem && m.e.extractLsb' 0 16 != 0xFFFF && m.e.extractLsb' 0 16 != s.fabric.devid

/-! ## Overlapping ranges (R217) -/

/-- A virtual byte lies in a run of n bytes that may wrap. -/
def inRun (base : VAddr) (n : Nat) (va : VAddr) : Bool := decide ((va - base).toNat < n)

/-- A virtual byte lies in the command's source range (R217). -/
def State.inSource (s : State) (c : CoreId) (m : PumpCmd) (va : VAddr) : Bool :=
  match m.kind with
  | .pcopy => inRun (m.b.setWidth 51) m.c.toNat va
  | .prem => inRun (m.b.setWidth 51) m.c.toNat va
  | .pscat => inRun (m.b.setWidth 51) (m.size * m.units) va
  | .pgath => (List.range m.units).any fun j =>
      match s.pumpIdx c m j with
      | .ok i => inRun (m.srcVa j i) m.size va
      | .error _ => false
  | _ => false

/-- The bytes a unit writes: those that also lie in the source range are unpredictable (R217). -/
def State.overlapBytes (s : State) (c : CoreId) (m : PumpCmd) (dst : VAddr) (bs : List Byte) : List Byte :=
  bs.mapIdx fun i b => if s.inSource c m (dst + BitVec.ofNat 51 i) then Config.freeByte (s.fresh + i) else b

/-- Bytes of the source range that a unit is about to overwrite are kept with the command, with their poison, so that a
later unit still reads them: an overlap affects nothing else (R217). -/
def State.keepSource (s : State) (c : CoreId) (m : PumpCmd) (dst : VAddr) (l : Loc) : PumpCmd :=
  (List.range m.size).foldl (fun m i =>
    let va := dst + BitVec.ofNat 51 i
    if s.inSource c m va && (m.saved.get? va.toNat).isNone then
      let r := s.readLoc c (s.corePart c) (l.plus i) 1
      { m with saved := m.saved.set va.toNat (r.1.headD 0, r.2) }
    else m) m

/-- The bytes of a source element, in order: one that the command has overwritten reads as it was (R217). -/
def State.sourceBytes (s : State) (c : CoreId) (m : PumpCmd) (l : Loc) (va : VAddr) : Nat → Nat → Except PumpStop (List Byte)
  | _, 0 => .ok []
  | i, n + 1 => do
    let b ← match m.saved.get? (va + BitVec.ofNat 51 i).toNat with
      | some (b, bad) => if bad then .error (.poison (l.plus i).addr) else pure [b]
      | none => s.pumpRead c (l.plus i) 1
    let rest ← s.sourceBytes c m l va (i + 1) n
    pure (b ++ rest)

/-! ## What a unit moves (R217 to R219) -/

/-- Unit j of a command that moves an element to this device's memory. -/
def State.copyUnit (s : State) (c : CoreId) (m : PumpCmd) (j : Nat) : Except PumpStop (State × PumpCmd) := do
  let idx ← if m.indexed then s.pumpIdx c m j else pure 0
  let src ← if m.kind == .pfill then pure Loc.zero else s.pumpLoc c .read m.size m.size false (m.srcVa j idx)
  let dst ← s.pumpLoc c .write m.size m.size false (m.dstVa j idx)
  let bs ← if m.kind == .pfill then pure (leBytes m.size m.b.toNat)
    else if m.saved.isEmpty then s.pumpRead c src m.size
    else s.sourceBytes c m src (m.srcVa j idx) 0 m.size
  let s' := s.writeLoc c (s.corePart c) dst (s.overlapBytes c m (m.dstVa j idx) bs) false
  pure ({ s' with fresh := s'.fresh + m.size }, s.keepSource c m (m.dstVa j idx) dst)

/-- A PWLD source address inside the window is refused (R219). -/
def pwldWindow (va : VAddr) (n : Nat) : Option VAddr :=
  if windowBase ≤ va.toNat then some va
  else if windowBase < va.toNat + n then some (BitVec.ofNat 51 windowBase)
  else none

/-- Write bytes of the weight buffer. -/
def State.writeWbuf (s : State) (c : CoreId) (off : Nat) (bs : List Byte) : State :=
  s.modCore c fun k => { k with wbuf := k.wbuf.store off bs false }

/-- The scale bytes of a PWLD whose run has been checked as a whole, each translated: they have no alignment (R218). -/
def State.scaleRun (s : State) (c : CoreId) (va : VAddr) : Nat → Except PumpStop (List Byte)
  | 0 => .ok []
  | n + 1 => do
    let l ← s.pumpLoc c .read 1 1 false va
    let b ← s.pumpRead c l 1
    let rest ← s.scaleRun c (va + 1) n
    pure (b ++ rest)

/-- The scale bytes of a PWLD, one access in the order of Table 9.2: outside the window (R219), under one aperture or
none (R55), then translated. -/
def State.scaleBytes (s : State) (c : CoreId) (va : VAddr) (n : Nat) : Except PumpStop (List Byte) :=
  match pwldWindow va n with
  | some ea => .error (.park ea Cause.localRange false)
  | none =>
    let p := (s.pumpCtx c .read).part
    if s.apertureAt p va.toNat != s.apertureAt p (va.toNat + n - 1) then
      .error (.park va Cause.apertureViolation false)
    else s.scaleRun c va n

/-- The scales of a PWLD are still to be copied: they come before block 0 (R218). -/
def PumpCmd.needsScales (m : PumpCmd) (u : Nat) : Bool := m.kind == .pwld && m.scl && !m.scaled && u == 0

/-- The number of a pump's next unit: the scales of a PWLD come before block 0. -/
def unitNumber (m : PumpCmd) (u : Nat) : Nat := if m.needsScales u then 0 else u + 1

/-- The scales of a PWLD are copied (R218). -/
def State.scaleUnit (s : State) (c : CoreId) (m : PumpCmd) : Except PumpStop (State × PumpCmd) := do
  let bs ← s.scaleBytes c (m.e.setWidth 51) m.c.toNat
  pure (s.writeWbuf c (pwldScale m.a) bs, { m with scaled := true })

/-- Block j of a PWLD (R218, R219). -/
def State.weightUnit (s : State) (c : CoreId) (m : PumpCmd) (j : Nat) : Except PumpStop (State × PumpCmd) := do
  let va := addrPlus m.b (512 * j)
  if va.toNat % 512 != 0 then .error (.park va Cause.misaligned false)
  match pwldWindow va 512 with
  | some ea => .error (.park ea Cause.localRange false)
  | none =>
    let l ← s.pumpLoc c .read 512 512 true va
    let bs ← s.pumpRead c l 512
    pure (s.writeWbuf c (pwldOff m.a + 512 * j) bs, m)

/-- Unit j of a command performed on this device, or the scales before block 0: the state, and the command as it goes
on. -/
def State.localUnit (s : State) (c : CoreId) (m : PumpCmd) (j : Nat) : Except PumpStop (State × PumpCmd) :=
  if m.needsScales j then s.scaleUnit c m
  else if m.kind == .pwld then s.weightUnit c m j
  else s.copyUnit c m j

/-- The unit after unit j belongs to the same step: it writes into the same aligned 8-byte unit, which a reader sees old or
new and never a mixture (R46, R54). A scatter of elements below 8 bytes, whose indices may come back to any unit, is one
step. -/
def PumpCmd.together (m : PumpCmd) (j : Nat) : Bool :=
  decide (m.esz < 3) && (match m.kind with
    | .pwld => false
    | .pscat => true
    | _ => (m.dstVa j 0).toNat / 8 == (m.dstVa (j + 1) 0).toNat / 8)

/-- The place that unit u of a command reads first of its data, once every address of the unit has passed its checks; none
for one that reads no source, or goes no further (R216, R222). -/
def State.unitSource (s : State) (c : CoreId) (m : PumpCmd) (u : Nat) : Option Loc :=
  let get := fun (r : Except PumpStop Loc) => match r with
    | .ok l => some l
    | .error _ => none
  let dst := fun (i : Nat) => if s.premRemote m then (m.dstVa u i).toNat % m.size == 0
    else (get (s.pumpLoc c .write m.size m.size false (m.dstVa u i))).isSome
  let within := fun (va : VAddr) (n : Nat) => (pwldWindow va n).isNone
  if m.needsScales u then
    if (s.scaleBytes c (m.e.setWidth 51) m.c.toNat).toOption.isSome then get (s.pumpLoc c .read 1 1 false (m.e.setWidth 51))
    else none
  else if m.kind == .pwld then
    if within (addrPlus m.b (512 * u)) 512 then get (s.pumpLoc c .read 512 512 true (addrPlus m.b (512 * u))) else none
  else if m.kind == .pfill then none
  else match (if m.indexed then s.pumpIdx c m u else .ok 0) with
    | .ok i => if dst i then get (s.pumpLoc c .read m.size m.size false (m.srcVa u i)) else none
    | .error _ => none

/-! ## Unpredictable bytes (R222) -/

/-- The bytes of unit u at its destination become unpredictable (R222), where the destination can be reached. -/
def State.scramble (s : State) (c : CoreId) (m : PumpCmd) (u : Nat) : State :=
  if m.units ≤ u || s.premRemote m then s
  else if m.kind == .pwld then
    { s.writeWbuf c (pwldOff m.a + 512 * u) ((List.range 512).map fun i => Config.freeByte (s.fresh + i)) with
      fresh := s.fresh + 512 }
  else
    let idx := if m.kind == .pscat then match s.pumpIdx c m u with
      | .ok i => some i
      | .error _ => none
      else some 0
    match idx with
    | none => s
    | some i =>
      match s.pumpLoc c .write m.size m.size false (m.dstVa u i) with
      | .error _ => s
      | .ok l =>
        let bad := (s.readLoc c (s.corePart c) l m.size).2
        let s' := s.writeLoc c (s.corePart c) l ((List.range m.size).map fun i => Config.freeByte (s.fresh + i)) bad
        { s' with fresh := s'.fresh + m.size }

end Sys2Proof.Machine
end

