-- ==== Sys2Proof/Machine/Waits.lean ====
section
/-! DEFINITION. The waits of an instruction: reading its counted sources, then reserving its destination, then its
engine's queue (spec/01 R19 to R31, spec/07 R144, spec/08 R168, spec/10 R215, spec/11 R243). An instruction and the
event that ends its wait go through the same definitions. -/

namespace Sys2Proof.Machine

/-! ## Where a stream stands -/

/-- The instruction of a stream is done with issue: it continues at the next one. -/
def Stream.finish (v : Stream) : Stream :=
  { v with st := .running, pend := .none, pc := v.pc + BitVec.ofNat 51 v.len }

/-- A stream held at its instruction. -/
def Stream.wait (v : Stream) (st : StreamState) (p : Pend) : Stream := { v with st := st, pend := p }

/-- Continue a stream at its next instruction. -/
def State.finishOn (s : State) (c : CoreId) (x : StreamId) : State := s.modStream c x Stream.finish

/-- Hold a stream at its instruction. -/
def State.waitOn (s : State) (c : CoreId) (x : StreamId) (st : StreamState) (p : Pend) : State :=
  s.modStream c x fun v => v.wait st p

/-- EADDR of ECC_UNCORRECTABLE for a failing count state (R404). -/
def failingEaddr (x : CReg) : Word := ((0x02 : BitVec 8) ++ (0 : BitVec 56)) ||| countEaddr x 0

/-! ## Engine queues -/

/-- Entries of the pump queue in use (R214): queued commands and those running. -/
def Core.pumpUsed (k : Core) : Nat :=
  let run := fun (p : Pump) => match p with
    | .running _ _ _ => 1
    | _ => 0
  k.pumpq.length + run k.pump0 + run k.pump1

/-- PQDEPTH.LIM with 0 read as 16 (R214). -/
def Core.pumpLim (k : Core) : Nat := if k.pqlim == 0 then 16 else k.pqlim.toNat

/-- The queue takes a command: USED < LIM (R215). -/
def Core.pumpRoom (k : Core) : Bool := decide (k.pumpUsed < k.pumpLim)

/-- The command parked on a completion register, with its pump and progress (R224): true is pump 1. Where both pumps hold a command
parked on it, that of pump 0 is the model's choice (assumption log 28). -/
def Core.parkedOn (k : Core) (g : GReg) : Option (Bool × PumpCmd × Nat) :=
  match k.pump0, k.pump1 with
  | .parked m u _ _ _, .parked m' u' _ _ _ =>
    if m.g == g then some (false, m, u) else if m'.g == g then some (true, m', u') else none
  | .parked m u _ _ _, _ => if m.g == g then some (false, m, u) else none
  | _, .parked m u _ _ _ => if m.g == g then some (true, m, u) else none
  | _, _ => none

/-- A pump of a core: true is pump 1. -/
def Core.pump (k : Core) (second : Bool) : Pump := if second then k.pump1 else k.pump0

/-- The core with a pump replaced. -/
def Core.setPump (k : Core) (second : Bool) (p : Pump) : Core :=
  if second then { k with pump1 := p } else { k with pump0 := p }

/-- A completion word (R172, R221): STATUS in [63:56], UNITS in [31:0]. -/
def completionWord (status units : Nat) : Word := BitVec.ofNat 64 (status * 2 ^ 56 + units % 2 ^ 32)

/-- The prospective latch after an entry has entered the queue (R169). -/
def AQEntry.platch (e : AQEntry) (old : Option LatchFmt) : Option LatchFmt :=
  match e with
  | .wlatch w => some w.fmt
  | .wclr _ => none
  | .mma _ => old
  | .nest _ => none

/-- A stream is held before the array queue (R168). -/
def Stream.atArray (v : Stream) : Bool :=
  match v.pend with
  | .array _ _ => true
  | _ => false

/-- A stream may enter the array queue: there is room, and CTRL lets an instruction of EXEC that stands at the same step
go first (R168). -/
def Core.arrayRoom (k : Core) (x : StreamId) : Bool := decide (k.aq.length < 4) && !(x == .ctrl && k.exec.atArray)

/-- Enter the array queue, or be held at that step (R168): a held entry keeps its reservations. Table 1.3 names no state
for a stream held by the full array queue; the model keeps it RUNNING, as it does in a wait for a row mask, a page walk,
an LDS or a semaphore operation other than SEMWT (assumption log 28). Within a cycle EXEC goes first. -/
def State.arrayEnter (s : State) (c : CoreId) (x : StreamId) (e : AQEntry)
    (debits : List (CReg × BitVec 16)) : State :=
  let k := s.core c
  if k.arrayRoom x then
    (((s.setCore c { k with aq := k.aq ++ [e], platch := e.platch k.platch }).finishOn c x).takeTurn (.array c) (codeOf x))
  else s.waitOn c x .running (.array e debits)

/-! ## The destination (R20, R21) -/

/-- The write of a vector unit's instruction as accepted (R146). -/
def State.acceptVec (s : State) (c : CoreId) (x : StreamId) (r : CReg) (rdr : BitVec 3) (d : WriteData)
    (m : Option (MReg × BitVec 32)) (debits : List (CReg × BitVec 16)) : State :=
  let v := s.stream c x
  let w : VecWrite := { dst := r, rdr := rdr, data := d, mreg := m, debits := debits, pc := v.pc, word := v.word,
                        len := v.len }
  (s.modCore c fun k => { k.reserve r with vwrites := k.vwrites ++ [w], interval := .vec }).finishOn c x

/-- A WLATCH that is waiting or queued and so races with a PWLD whose completion it has not read (R48). -/
def WlatchOp.race (w : WlatchOp) (runs : List (Nat × Nat)) : WlatchOp := { w with races := w.races ++ runs }

/-- A PWLD that has ended with its completion write is ordered before nothing until that write's count is read (R48). -/
def Core.land (k : Core) (m : PumpCmd) : Core :=
  if m.kind == .pwld then { k with landed := ⟨m.g, (k.cnt (.sig m.g)).c, m.weightRuns, [], []⟩ :: k.landed } else k

/-- The runs of the weight buffer written by a PWLD that a stream is not ordered after (R48): one that has not ended, or one
whose completion count has not been read by it, or by a party it is ordered after (R268). -/
def Core.openRuns (k : Core) (x : StreamId) : List (Nat × Nat) :=
  (k.pumpCmds.map PumpCmd.weightRuns).flatten ++ ((k.landed.filter fun l => !l.after.contains x).map (·.runs)).flatten

/-- Every WLATCH or nest in the array queue, or held before it, races with a PWLD issued now (R48). -/
def Core.raceLatches (k : Core) (runs : List (Nat × Nat)) : Core :=
  if runs.isEmpty then k
  else
    let entry := fun (e : AQEntry) => match e with
      | .wlatch w => AQEntry.wlatch (w.race runs)
      | .nest r => .nest { r with races := r.races ++ runs }
      | e => e
    let pend := fun (p : Pend) => match p with
      | .array e d => .array (entry e) d
      | .dst r n d (.wlatch w) => .dst r n d (.wlatch (w.race runs))
      | p => p
    { k with aq := k.aq.map entry, exec := { k.exec with pend := pend k.exec.pend },
             ctrl := { k.ctrl with pend := pend k.ctrl.pend } }

/-- A pump becomes free, with a change of its core: in a cycle that comes before any take (R367, assumption log 5). -/
def State.freePump (s : State) (c : CoreId) (second : Bool) (f : Core → Core) : State :=
  (s.modCore c fun k => (f k).setPump second .idle).takeTurn (.take c) 0

/-- What follows once the destination may be written (R20, R21). A write that a stream makes itself releases what the
stream did before (R37). PRESUME of a PWLD with scales that restarts at block 0 copies the scales again, which are no unit: the
spec does not say whether it does (assumption log 28). A nest whose START is at or past its number of groups stores none, and its GRP
is START, which R183 and R188 leave open (assumption log 28). -/
def State.afterDst (s : State) (c : CoreId) (x : StreamId) (r : CReg) (rdr : BitVec 3)
    (debits : List (CReg × BitVec 16)) (op : DstOp) : State :=
  match op with
  | .count => ((s.releaseOn c x).modCore c fun k => k.completeWrite r rdr .count).finishOn c x
  | .vec d m => s.acceptVec c x r rdr d m debits
  | .load planed units =>
    match r with
    | .tile t =>
      ((s.requests c (s.stream c x).pc (.load c (s.core c).seq) (units.map (loadReq planed))).modCore c
        fun k => { k.reserve r with seq := k.seq + 1, loads := k.loads ++ [⟨k.seq, t, rdr, planed, units, none, (s.stream c x).pc⟩] }).finishOn c x
    | _ => s
  | .wlatch w => (s.modCore c fun k => k.reserve r).arrayEnter c x (.wlatch w) debits
  | .mma m => (s.modCore c fun k => k.reserve r).arrayEnter c x (.mma m) debits
  | .nest ord =>
    let set := (s.core c).nestSet
    let o := match r with
      | .sig g => AQEntry.nest ⟨(s.core c).openRuns x, set, g, rdr, ord, set.start.toNat, (s.stream c x).pc⟩
      | _ => .wclr (s.stream c x).pc
    (s.modCore c fun k => (k.reserve r).reserve (.acc set.acc)).arrayEnter c x o debits
  | .geom o => (s.modCore c fun k => { k.reserve r with geom := k.geom ++ [o], interval := .geom }).finishOn c x
  | .pump m =>
    ((s.modCore c fun k => { (k.reserve r).raceLatches m.weightRuns with pumpq := k.pumpq ++ [m] }).finishOn c x).takeTurn
      (.append c) (codeOf x)
  | .presume =>
    match r with
    | .sig g =>
      match (s.core c).parkedOn g with
      | some (second, m, u) =>
        let m := { m with rdr := rdr, start := u, scaled := false }
        ((s.freePump c second fun k => { k.reserve r with pumpq := m :: k.pumpq }).finishOn c x).takeTurn (.append c) (codeOf x)
      | none => s.trapOn c x Cause.pumpQueueError 1
    | _ => s
  | .pcancel =>
    match r with
    | .sig g =>
      match (s.core c).parkedOn g with
      | some (second, m, u) =>
        (((s.releaseOn c x).scramble c m u).freePump c second fun k =>
          (k.completeWrite r rdr (.sig (completionWord 0x02 u))).land m).finishOn c x
      | none => s.trapOn c x Cause.pumpQueueError 1
    | _ => s

/-- The destination's write may begin: the nest also writes its accumulator (R184). -/
def Core.dstReady (k : Core) (r : CReg) (op : DstOp) : Bool :=
  (k.cnt r).writable && (match op with
    | .nest _ => (k.cnt (.acc k.nestSet.acc)).writable
    | _ => true)

/-- The registers whose writes begin: a nest also writes its accumulator (R184). -/
def DstOp.writes (op : DstOp) (k : Core) (r : CReg) : List CReg :=
  match op with
  | .nest _ => [r, .acc k.nestSet.acc]
  | _ => [r]

/-- A command that needs an entry of the pump queue. -/
def DstOp.needsEntry : DstOp → Bool
  | .pump _ => true
  | .presume => true
  | _ => false

/-- A command that needs a parked command (R224, R225). -/
def DstOp.needsParked : DstOp → Bool
  | .presume => true
  | .pcancel => true
  | _ => false

/-- A stream waits for an entry of the pump queue alone (R215). -/
def Core.awaitsEntry (k : Core) (x : StreamId) : Bool :=
  match (k.stream x).pend with
  | .dst r _ _ op => op.needsEntry && k.dstReady r op
  | _ => false

/-- A stream of lower code also waits for an entry alone: it appends first (R215). -/
def Core.appendBehind (k : Core) (x : StreamId) : Bool :=
  coreStreams.any fun y => decide (codeOf y < codeOf x) && k.awaitsEntry y

/-- A stream that waits for an entry is in COUNT_WAIT while its completion register blocks (R215). -/
def Core.reseat (k : Core) : Core :=
  coreStreams.foldl (fun k y =>
    match (k.stream y).pend with
    | .dst r _ _ op =>
      if op.needsEntry && (k.stream y).st == .otherWait && !k.dstReady r op then
        k.modStream y fun v => { v with st := .countWait }
      else k
    | _ => k) k

/-- Wait until the destination may be written, then go on (R20): COUNT_WAIT while the register blocks, OTHER_WAIT
while only the pump queue blocks (R215); a failing count state traps (R404). A write that first issues goes on at once, also in
a tick in which a waiting write of a stream of lower code to the same register has become ready: that it has not become able
to pass in the same cycle as that one, R22, is the model's choice (assumption log 28). -/
def State.dstPhase (s : State) (c : CoreId) (x : StreamId) (r : CReg) (rdr : BitVec 3)
    (debits : List (CReg × BitVec 16)) (op : DstOp) : State :=
  let k := s.core c
  let acc := match op with
    | .nest _ => CReg.acc k.nestSet.acc
    | _ => r
  if (k.cnt acc).bad && !(k.cnt r).bad then s.trapOn c x Cause.eccUncorrectable (failingEaddr acc)
  else if (k.cnt r).bad then
    (s.waitOn c x .running (.dst r rdr debits op)).trapOn c x Cause.eccUncorrectable (failingEaddr r)
  else if !k.dstReady r op then s.waitOn c x .countWait (.dst r rdr debits op)
  else if op.needsEntry && (!k.pumpRoom || k.appendBehind x) then s.waitOn c x .otherWait (.dst r rdr debits op)
  else (s.modCore c fun k => k.handOn x (op.writes k r)).afterDst c x r rdr debits op

/-- The write of R29 on a destination. -/
def State.nullWrite (s : State) (c : CoreId) (x : StreamId) (r : CReg) (rdr : BitVec 3) : State :=
  s.dstPhase c x r rdr [] .count

/-! ## The sources (R23 to R28) -/

/-- The array's entries on a core, with those held before the queue (R168). -/
def Core.arrayEntries (k : Core) : List AQEntry :=
  k.aq ++ coreStreams.filterMap fun x => match (k.stream x).pend with
    | .array e _ => some e
    | _ => none

/-- The bits of an accumulator that a band's write may change. -/
def bandMask (wide : Bool) (band : Nat) (mask : BitVec 32) : BitVec 524288 :=
  match bandWrite wide band mask 0 fun _ => false with
  | .acc _ m _ _ => m
  | _ => 0

/-- What the write in flight on a register changes (R26): the bits, and their new contents where they already stand in the core:
in the vector unit, in the buffer of a load, in the exact sign unit, or at the head of the array. -/
def Core.coming (k : Core) (x : CReg) : Option WriteData :=
  match k.vwrites.find? fun w => w.dst == x with
  | some w => some w.data
  | none =>
    match x with
    | .tile t =>
      match k.loads.find? fun l => l.dst == t, k.geom.find? fun o => o.dst == t with
      | some l, _ => match l.buf with
        | some b => some (.tile b.1 (BitVec.allOnes 32768) 0 0)
        | none => none
      | none, some o => some (.tile (geomTile (geomBytes o.kind o.sym (o.regs.map BitVec.toNat))) (BitVec.allOnes 32768) 0 0)
      | none, none => none
    | .acc a =>
      match k.aq.head?, k.latch with
      | some (.mma m), some l => if m.d == a then some (mmaWrite m l) else none
      | _, _ => none
    | .sig _ => none

/-- The bits of an accumulator that the array's write in flight on it may change. -/
def Core.accComing (k : Core) (a : AReg) : BitVec 524288 :=
  match k.arrayEntries.findSome? fun e => match e with
    | .mma m => if m.d == a then some (bandMask (m.ty == .fp64) m.band.toNat m.mask) else none
    | .nest r => if r.set.acc == a then
        some (bandMask (match r.set.pair with
          | some (_, _, p) => p.wide
          | none => false) r.set.band (BitVec.allOnes 32)) else none
    | _ => none with
  | some m => m
  | none => BitVec.allOnes 524288

/-- Some mixture of a register's old contents and of those a write in flight gives it (R26): which bits are new is free, and so are
the new contents where they do not stand in the core yet (assumption log 7). The poison it returns is the register's as it
stands, the model's choice: the rule speaks of the value alone (assumption log 28). -/
def Core.mixture (k : Core) (n : Nat) (x : CReg) : RegVal :=
  match k.regVal x, k.coming x, x with
  | .tile v p, some (.tile w m _ _), _ => .tile (mergeBits v w (m &&& Config.freeTile n)) p
  | .acc v p, some (.acc w m _ _), _ => .acc (mergeBits v w (m &&& Config.freeAcc n)) p
  | .sig v, some (.sig w), _ => .sig (mergeBits v w (Config.freeWord n))
  | v, some _, _ => v
  | .tile _ p, none, _ => .tile (Config.freeTile n) p
  | .acc v p, none, .acc a => .acc (mergeBits v (Config.freeAcc n) (k.accComing a)) p
  | .acc _ p, none, _ => .acc (Config.freeAcc n) p
  | .sig _, none, _ => .sig (Config.freeWord n)

/-- The value one source captures: an any source of a register whose write is reserved reads a mixture, unless a counted source
of the same instruction reads that register (R26, Table 1.7). -/
def Core.capture (k : Core) (srcs : List SrcRef) (n : Nat) (r : SrcRef) : RegVal :=
  if r.exp.isNone && (k.cnt r.x).rsv && !(countedRegs srcs).contains r.x then k.mixture n r.x else k.regVal r.x

/-- The values all sources capture in one cycle (R24, R28). -/
def captureAll (s : State) (c : CoreId) (srcs : List SrcRef) : List RegVal :=
  srcs.mapIdx fun i r => (s.core c).capture srcs (s.fresh + i) r

/-- The tile an operand of a store captured, with its poison. -/
def tileOfVal : RegVal → BitVec 32768 × BitVec 32
  | .tile v p => (v, p)
  | _ => (0, 0)

/-- The value of an accumulator operand. -/
def accOfVal : RegVal → BitVec 524288 × BitVec 128
  | .acc v p => (v, p)
  | _ => (0, 0)

/-- The store a TST or TSTP makes from what it captured (R194, R197). -/
def storeOf (planed : Option Nat) (cm : Bool) (vals : List RegVal) : StoreData :=
  let (v, p) := tileOfVal ((vals[0]?).getD (.sig 0))
  match planed with
  | none => .tst v p
  | some n =>
    .tstp v p n (if cm then (tileOfVal ((vals[1]?).getD (.sig 0))).1.extractLsb' 0 32 else BitVec.allOnes 32)

/-- The first unit of a store that takes a poisoned row to host memory (Table 26.3). -/
def poisonToHost (d : StoreData) (units : List MemUnit) : Option MemUnit :=
  (units.zipIdx.find? fun u => u.1.loc.isHost && (d.writes u.2).any fun w => w.2.2).map (·.1)

/-- An MMA with what it captured: the tile, then the accumulator unless ZA, then the scale tile if AS (R177). -/
def mmaCapture (m : MmaOp) (vals : List RegVal) : MmaOp :=
  let x := tileOfVal ((vals[0]?).getD (.sig 0))
  let b := if m.za then (0, 0) else accOfVal ((vals[1]?).getD (.sig 0))
  let t := if m.as then tileOfVal ((vals[if m.za then 1 else 2]?).getD (.sig 0)) else (0, 0)
  { m with x := x.1, xp := x.2, b := b.1, bp := b.2, s := t.1, sp := t.2 }

/-- The numbers of the tiles of a geometry instruction's groups. -/
def regNats (vals : List RegVal) : List Nat := vals.map RegVal.nat

/-- Once the sources are read and debited. -/
def State.afterSrc (s : State) (c : CoreId) (x : StreamId) (op : SrcOp) (vals : List RegVal)
    (debits : List (CReg × BitVec 16)) : State :=
  match op with
  | .cwait => s.finishOn c x
  | .vec o =>
    let (d, m) := vecData o.fn o.mask vals
    s.dstPhase c x o.dst o.rdr debits (.vec d m)
  | .wlatch w =>
    s.dstPhase c x (.sig w.g) w.rdr debits (.wlatch (w.race ((s.core c).openRuns x)))
  | .mma m => s.dstPhase c x (.acc m.d) m.rdr debits (.mma (mmaCapture m vals))
  | .store planed cm units =>
    let d := storeOf planed cm vals
    let seq := (s.core c).seq
    let s := s.requests c (s.stream c x).pc (.store c x seq) (d.reqs units)
    ((s.modCore c fun k => { k with seq := seq + 1 }).modStream c x fun v =>
      { v with stores := v.stores ++ [⟨seq, d, units, v.pc⟩] }).finishOn c x
  | .geom kind dst rdr =>
    let k := s.core c
    let o : GeomOp :=
      { kind := kind, regs := vals.map fun v => (tileOfVal v).1, poison := sameRows vals, dst := dst, rdr := rdr,
        sym := k.gmode.getLsbD 0, flag := k.gmode.getLsbD 1, pc := (s.stream c x).pc }
    s.dstPhase c x (.tile dst) rdr debits (.geom o)

/-- What stops an instruction whose sources are readable, before anything is read or debited: poison bound for host
memory (Table 26.3), a non-finite lane in FAULT mode (R245). -/
def State.srcBar (s : State) (c : CoreId) (x : StreamId) (op : SrcOp) (vals : List RegVal) : Option State :=
  match op with
  | .store planed cm units => (poisonToHost (storeOf planed cm vals) units).map fun u => s.poisonOn c x u.va u.loc.addr
  | .geom kind _ _ =>
    if (s.core c).gmode.getLsbD 1 then none
    else (firstBad kind (regNats vals)).map fun e => s.trapOn c x Cause.geomNonfinite e
  | _ => none

/-- The sources are readable: read, debit and go on in one step (R24 step 4). -/
def State.readSources (s : State) (c : CoreId) (x : StreamId) (srcs : List SrcRef) (op : SrcOp) : State :=
  let vals := captureAll s c srcs
  match s.srcBar c x op vals with
  | some s' => s'
  | none =>
    let debits := (s.core c).debitsOf srcs
    let s := { s with fresh := s.fresh + srcs.length }
    (s.modCore c fun k => k.debitAll x srcs).afterSrc c x op vals debits

/-- Evaluate the counted sources together (R24): fault, wait, or read. A read that first issues is granted at once, also in a
tick in which a waiting read of a stream of lower code on the same register has become readable: that R27 orders only the
reads that have waited is the model's choice (assumption log 28). -/
def State.srcPhase (s : State) (c : CoreId) (x : StreamId) (srcs : List SrcRef) (op : SrcOp) : State :=
  match (s.core c).evalSources srcs with
  | .conflict r => s.trapOn c x Cause.countConflict (countEaddr r 0)
  | .failing r => s.trapOn c x Cause.eccUncorrectable (failingEaddr r)
  | .stale r e => s.trapOn c x Cause.staleRead (countEaddr r e)
  | .wait => s.waitOn c x .countWait (.src srcs op)
  | .overrun r e => s.trapOn c x Cause.readerOverrun (countEaddr r e)
  | .ready => s.readSources c x srcs op

/-- The same, after the check of Table 1.7 that comes before any wait. -/
def State.srcIssue (s : State) (c : CoreId) (x : StreamId) (srcs : List SrcRef) (op : SrcOp) : State :=
  match conflictIn srcs with
  | some r => s.trapOn c x Cause.countConflict (countEaddr r 0)
  | none => s.srcPhase c x srcs op

/-! ## The vector unit's frame (R144, R211) -/

/-- What stops an MMA at issue, by sub-code of Table 8.5 (R175): no latch ahead, a pair outside Table 8.1, KSEL. -/
def mmaBar (ty : ElemTy) (ksel : BitVec 2) (latch : Option LatchFmt) : Option Word :=
  match latch with
  | none => some 1
  | some f =>
    match pairing ty f.fmt with
    | none => some 2
    | some p => if p.ksel < ksel.toNat then some 3 else none

/-- An NUPD of EXEC that names a row mask register has not completed (R211). -/
def Core.maskBusy (k : Core) (m : MReg) : Bool :=
  k.vwrites.any fun w => match w.mreg with
    | some (r, _) => r == m
    | none => false

/-- Once the mask is known (R144, R177): an empty mask selects the write of R29, which the vector unit accepts like
any other of its writes (R146); an MMA's pairing is checked before any wait on its sources (R175). -/
def State.masked (s : State) (c : CoreId) (x : StreamId) (srcs : List SrcRef) (op : SrcOp) : State :=
  match op with
  | .vec o =>
    if o.mask == 0 then s.dstPhase c x o.dst o.rdr [] (.vec .count none) else s.srcIssue c x srcs (.vec o)
  | .mma m =>
    if m.mask == 0 then s.nullWrite c x (.acc m.d) m.rdr
    else match mmaBar m.ty m.ksel (s.core c).platch with
      | some sub => (s.takeTurn (.array c) (codeOf x)).trapOn c x Cause.matrixState sub
      | none => s.srcIssue c x srcs (.mma m)
  | op => s.srcIssue c x srcs op

/-- The operation with its row mask read, for one that takes its mask from register k; NUPD, which writes k, has no
row mask of its own (R210). -/
def SrcOp.withMask (op : SrcOp) (mask : BitVec 32) : SrcOp :=
  match op with
  | .vec o => match o.fn with
    | .nupd _ _ _ _ => .vec o
    | _ => .vec { o with mask := mask }
  | .mma m => .mma { m with mask := mask }
  | op => op

/-- An NUPD, which has no row mask of its own and so cannot turn out to select nothing (R210). -/
def SrcOp.isNupd : SrcOp → Bool
  | .vec o => match o.fn with
    | .nupd _ _ _ _ => true
    | _ => false
  | _ => false

/-- Wait until no earlier NUPD that names k is in flight, then read the mask and go on (R211). The check of Table 1.7 of an
NUPD comes before that wait. -/
def State.maskPhase (s : State) (c : CoreId) (x : StreamId) (srcs : List SrcRef) (op : SrcOp) (k : Option MReg) : State :=
  match k with
  | none => s.masked c x srcs op
  | some k =>
    if (s.core c).maskBusy k then
      match if op.isNupd then conflictIn srcs else none with
      | some r => s.trapOn c x Cause.countConflict (countEaddr r 0)
      | none => s.waitOn c x .running (.maskWait srcs op k)
    else s.masked c x srcs (op.withMask ((s.core c).m[k.toNat]'k.isLt))

/-- An instruction of the vector unit as its frame begins (R144): guarded false, the write of R29. -/
def State.vecIssue (s : State) (g : Guard) (dst : CReg) (rdr : BitVec 3) (mk : Option MReg) (srcs : List SrcRef)
    (fn : VecFn) : Out :=
  let c := s.cur.1
  let x := s.cur.2
  .next (if s.guard g then s.maskPhase c x srcs (.vec ⟨fn, BitVec.allOnes 32, dst, rdr⟩) mk
    else s.dstPhase c x dst rdr [] (.vec .count none))

end Sys2Proof.Machine
end

