-- ==== Sys2Proof/Machine/HostFabric.lean ====
section
/-! DEFINITION. Queue bindings, links, packets and table banks (spec/23 R371, R377 to R384, spec/21 R366). -/

namespace Sys2Proof.Machine

/-! ## Bindings (R371) -/

/-- The bits of a QMAP word that exist. -/
def qmapMask : BitVec 32 := 0x8001FF3F

/-- Two QMAP words name the same function and page. -/
def sameBinding (a b : BitVec 32) : Bool :=
  a.getLsbD 31 && b.getLsbD 31 && a.extractLsb' 0 6 == b.extractLsb' 0 6 && a.extractLsb' 8 9 == b.extractLsb' 8 9

/-- QMAP_WRITE (R371): discarded with BINDERR where another queue has the binding. -/
def execQmapWrite (q : BitVec 15) (v : BitVec 32) (s : State) : Out :=
  let v := v &&& qmapMask
  s.bar0 fun s => (if s.queues.any fun k => k.1 != q.toNat && sameBinding k.2.qmap v then { s with binderr := true }
    else s.modQueue q fun k => { k with qmap := v })

/-! ## Links (R377, R378, R382, R383) -/

/-- The state with one link changed. -/
def State.modLink (s : State) (l : Fin 24) (f : Link → Link) : State :=
  { s with fabric := { s.fabric with links := s.fabric.links.set l.val (f (s.fabric.links[l.val])) } }

/-- LINK_TRAIN (R378): the neighbour says whether it takes elided payloads. -/
def execLinkTrain (l : Fin 24) (elide : Bool) (s : State) : Out := .next (s.modLink l fun k => { k with elide := elide })

/-- FLIT_CRC_ERROR (R377): the flit is resent as first sent, and nothing else changes. -/
def execFlitCrcError (_l : Fin 24) (s : State) : Out := .next s

/-- The devices of the active bank whose last port is a link (R379, R382). -/
def Fabric.lastPort (f : Fabric) (l : Fin 24) : List (BitVec 16) :=
  ((if f.routeBank then f.routeB else f.routeA).filter fun e => e.2.getLsbD 21 && f.upPorts e.2 != [] &&
    (f.upPorts e.2).all (· == l)).map fun e => BitVec.ofNat 16 e.1

/-- The fabric with a fault of a link noted: within 20,000 ticks of the first that is not resolved yet, what is outstanding on it is
to be resolved (R382). -/
def Fabric.drop (f : Fabric) (l : Fin 24) (tick : Nat) : Fabric :=
  if (f.open_ l).isSome then f
  else { f with drops := f.drops ++ [⟨l, tick, (List.finRange 24).filter f.usable, f.lastPort l, none⟩] }

/-- LINK_FAULT_DETECT (R382, R383): the port counts as down, and its packets are to be resolved. -/
def execLinkFaultDetect (l : Fin 24) (s : State) : Out :=
  .next (if (s.fabric.links[l.val]).up then
      ({ s with fabric := s.fabric.drop l s.tick }.modLink l fun k => { k with up := false, fresh := true }).postNotice 1 l.val 0
    else s)

/-- LINK_UP (R382, R383). -/
def execLinkUp (l : Fin 24) (s : State) : Out :=
  .next (if (s.fabric.links[l.val]).up then s
    else (s.modLink l fun k => { k with up := true }).postNotice 2 l.val 0)

/-- The owner of a packet still waits for it. -/
def State.awaited (s : State) (o : OutPkt) : Bool :=
  match o.owner with
  | .sem c x => match (s.stream c x).pend with
    | .sem q => q.target == .remote o.pkt.dst && q.seq == some o.pkt.seq
    | .semwt q => q.target == .remote o.pkt.dst && q.seq == some o.pkt.seq
    | _ => false
  | .pump c second => match (s.core c).pump second with
    | .running _ _ (some (dev, seq)) => dev == o.pkt.dst && seq == o.pkt.seq
    | _ => false

/-- A packet that will have no answer: its operation ends with PEER_LOST (R366), and one that nothing waits for is gone. -/
def State.lostPkt (s : State) (o : OutPkt) : Option OutPkt :=
  if s.awaited o then some { o with ack := some (.reject Cause.peerLost) } else none

/-- DEVICE_LOSS (R366, R382): cached windows go, operations in flight end with PEER_LOST, and a notice is posted. -/
def State.deviceLoss (s : State) (dev : BitVec 16) : State :=
  let lost := fun (o : OutPkt) => if o.pkt.dst == dev && o.ack.isNone then s.lostPkt o else some o
  let s := { s with fabric := { s.fabric with out := s.fabric.out.filterMap lost,
                                              windows := s.fabric.windows.map fun (l : List (BitVec 16)) => l.filter (· != dev) } }
  s.postNotice 3 0 dev

/-- The core a packet came from. -/
def PktOwner.core : PktOwner → CoreId
  | .sem c _ => c
  | .pump c _ => c

/-- An unresolved packet is sent again on a port of the entry it was injected under, in the form that port's neighbour takes
(R378, R381, R382); one of a flow that another fault holds waits for that to be resolved; where no port of that entry is up, its
operation ends with PEER_LOST (R366). -/
def State.resend (s : State) (o : OutPkt) : Option OutPkt :=
  match s.fabric.way o.entry o.owner.core o.pkt.dst (Config.freeWord s.fresh).toNat with
  | .out p => some { o with port := p, pkt := { o.pkt with body := bodyToward o.full (s.fabric.links[p.val]).elide } }
  | .held l => some { o with port := l }
  | .lost => s.lostPkt o

/-- The fabric with the fault of a link resolved at a tick: records of faults are kept while one is not resolved. -/
def Fabric.resolve (f : Fabric) (l : Fin 24) (tick : Nat) : Fabric :=
  let ds := f.drops.map fun (d : LinkDrop) => if d.link == l && d.done.isNone then { d with done := some tick } else d
  { f with drops := if ds.all fun d => d.done.isSome then [] else ds }

/-- LINK_RESOLVE_EXPIRE (R382, R366): what was outstanding on the failed port is sent again, whether the link is up again or
not, and each device that lost its last port with this fault is lost. -/
def execLinkResolveExpire (l : Fin 24) (s : State) : Out :=
  .next (match s.fabric.open_ l with
    | none => s
    | some d =>
      let s := { s with fabric := s.fabric.resolve l s.tick }
      let s := { s with fabric := { s.fabric with out := s.fabric.out.filterMap fun (o : OutPkt) =>
        if o.port == l && o.ack.isNone then s.resend o else some o } }.useFresh
      d.lost.foldl State.deviceLoss s)

/-- SOURCE_RESET_NOTICE (R366, R384): the device's sequence state here is cleared, and what was on its way to it is
lost. -/
def execSourceResetNotice (dev : BitVec 16) (s : State) : Out :=
  .next (({ s with fabric := { s.fabric with rx := s.fabric.rx.drop dev.toNat,
                                             acks := s.fabric.acks.filter fun a => a.dev != dev } }).deviceLoss dev)

/-! ## Packets (R382, R384) -/

/-- PACKET_RECEIVE. -/
def execPacketReceive (pkt : Packet) (mismatch : Bool) (s : State) : Out := .next (s.packetReceive pkt mismatch)

/-- The causes a target turns a packet away with (R234, R380, R402, Table 26.1): those of a semaphore operation, or of a PREM
unit. -/
def PktOwner.mayReject (o : PktOwner) (cause : BitVec 7) : Bool :=
  match o with
  | .sem _ _ => [Cause.permission, Cause.peerLost, Cause.badHandle, Cause.pipeCheck].contains cause
  | .pump _ _ => [Cause.pageNotPresent, Cause.permission, Cause.stage2Fault, Cause.misaligned, Cause.peerLost,
      Cause.poisonConsumed].contains cause

/-- An acknowledgement that a packet of this owner can have. -/
def PktOwner.mayAck (o : PktOwner) (r : AckRes) : Bool :=
  match r with
  | .ok _ => true
  | .reject cause => o.mayReject cause

/-- PACKET_ACK (R382, R384): the acknowledgement is kept for whoever waits for it; one that no target gives is none. -/
def execPacketAck (dev : BitVec 16) (seq : BitVec 32) (result : AckRes) (s : State) : Out :=
  .next (match s.fabric.outPkt dev seq with
    | none => s
    | some o =>
      if !o.owner.mayAck result then s
      else if !s.awaited o then s.dropPkt dev seq
      else
        { s with fabric := { s.fabric with out := s.fabric.out.map fun (q : OutPkt) =>
            if q.pkt.dst == dev && q.pkt.seq == seq && q.ack.isNone then { q with ack := some result } else q } })

/-- PACKET_REFUSED (R384): the packet lay beyond the window and is sent again. -/
def execPacketRefused (dev : BitVec 16) (seq : BitVec 32) (s : State) : Out :=
  .next { s with fabric := { s.fabric with out := s.fabric.out.filterMap fun (q : OutPkt) =>
    if q.pkt.dst == dev && q.pkt.seq == seq && q.ack.isNone then s.resend q else some q } }.useFresh

/-! ## Banks (R381, R383) -/

/-- ROUTING_SWAP (R381, R382): the banks change places, and links that have come up again are used. -/
def execRoutingSwap (s : State) : Out :=
  s.bar0 fun s =>
    let links := s.fabric.links.map fun (l : Link) => { l with fresh := l.fresh && !l.up }
    { s with fabric := { s.fabric with routeBank := !s.fabric.routeBank, routeSwap := true, links := links } }

/-- KEY_SWAP (R381). -/
def execKeySwap (s : State) : Out :=
  s.bar0 fun s => { s with fabric := { s.fabric with keyBank := !s.fabric.keyBank, keySwap := true } }

/-- SWAP_COMPLETE (R381, R383). -/
def execSwapComplete (key : Bool) (s : State) : Out :=
  .next (if key then
      (if s.fabric.keySwap then { s with fabric := { s.fabric with keySwap := false } }.postNotice 4 0 0 else s)
    else if s.fabric.routeSwap then { s with fabric := { s.fabric with routeSwap := false } }.postNotice 4 0 0
    else s)

end Sys2Proof.Machine
end

