-- ==== Sys2Proof/Machine/Scalar.lean ====
section
/-! DEFINITION. Scalar arithmetic, immediates, compares, predicates and count bases (spec/06 R117 to R123). -/

namespace Sys2Proof.Machine

/-! ## Shared shapes (R117, R118) -/

/-- A guarded instruction whose effect ends at the next instruction; guarded false it only goes on. -/
def State.doing (s : State) (g : Guard) (s' : State) : Out := .next (if s.guard g then s'.adv else s.adv)

/-- s[D] ← v. -/
def State.setS (s : State) (g : Guard) (d : SReg) (v : Word) : Out := s.doing g (s.ws d v)

/-- p[D] ← v. -/
def State.setP (s : State) (g : Guard) (d : PReg) (v : Bool) : Out := s.doing g (s.wp d v)

/-- k[D] ← v. -/
def State.setK (s : State) (g : Guard) (d : KReg) (v : BitVec 16) : Out := s.doing g (s.wk d v)

/-- s[D] ← v, or INT_DIV_ZERO for a zero divisor with s[D] unchanged (R120). -/
def State.setDiv (s : State) (g : Guard) (d : SReg) (b v : Word) : Out :=
  if s.guard g && b == 0 then .next (s.trap Cause.intDivZero 0) else s.setS g d v

/-! ## Major 0x01 (Table 6.1) -/

/-- ADD (Table 6.1). -/
def execAdd (g : Guard) (d a b : SReg) (s : State) : Out := s.setS g d (s.rs a + s.rs b)

/-- SUB (Table 6.1). -/
def execSub (g : Guard) (d a b : SReg) (s : State) : Out := s.setS g d (s.rs a - s.rs b)

/-- MUL (Table 6.1). -/
def execMul (g : Guard) (d a b : SReg) (s : State) : Out := s.setS g d (s.rs a * s.rs b)

/-- MULH (Table 6.1). -/
def execMulh (g : Guard) (d a b : SReg) (s : State) : Out := s.setS g d (mulHigh (s.rs a) (s.rs b))

/-- MULHU (Table 6.1). -/
def execMulhu (g : Guard) (d a b : SReg) (s : State) : Out := s.setS g d (mulHighU (s.rs a) (s.rs b))

/-- AND (Table 6.1). -/
def execAnd (g : Guard) (d a b : SReg) (s : State) : Out := s.setS g d (s.rs a &&& s.rs b)

/-- OR (Table 6.1). -/
def execOr (g : Guard) (d a b : SReg) (s : State) : Out := s.setS g d (s.rs a ||| s.rs b)

/-- XOR (Table 6.1). -/
def execXor (g : Guard) (d a b : SReg) (s : State) : Out := s.setS g d (s.rs a ^^^ s.rs b)

/-- SHL (Table 6.1). -/
def execShl (g : Guard) (d a b : SReg) (s : State) : Out := s.setS g d (s.rs a <<< shiftAmount (s.rs b))

/-- SHR (Table 6.1). -/
def execShr (g : Guard) (d a b : SReg) (s : State) : Out := s.setS g d (s.rs a >>> shiftAmount (s.rs b))

/-- SAR (Table 6.1). -/
def execSar (g : Guard) (d a b : SReg) (s : State) : Out := s.setS g d ((s.rs a).sshiftRight (shiftAmount (s.rs b)))

/-- ROT (Table 6.1). -/
def execRot (g : Guard) (d a b : SReg) (s : State) : Out := s.setS g d ((s.rs a).rotateLeft (shiftAmount (s.rs b)))

/-- MIN: signed (Table 6.1). -/
def execMin (g : Guard) (d a b : SReg) (s : State) : Out := s.setS g d (if (s.rs a).slt (s.rs b) then s.rs a else s.rs b)

/-- MAX: signed (Table 6.1). -/
def execMax (g : Guard) (d a b : SReg) (s : State) : Out := s.setS g d (if (s.rs a).slt (s.rs b) then s.rs b else s.rs a)

/-- MINU (Table 6.1). -/
def execMinu (g : Guard) (d a b : SReg) (s : State) : Out := s.setS g d (if (s.rs a).ult (s.rs b) then s.rs a else s.rs b)

/-- MAXU (Table 6.1). -/
def execMaxu (g : Guard) (d a b : SReg) (s : State) : Out := s.setS g d (if (s.rs a).ult (s.rs b) then s.rs b else s.rs a)

/-- DIV: truncated toward zero (R120). -/
def execDiv (g : Guard) (d a b : SReg) (s : State) : Out := s.setDiv g d (s.rs b) ((s.rs a).sdiv (s.rs b))

/-- DIVU (R120). -/
def execDivu (g : Guard) (d a b : SReg) (s : State) : Out := s.setDiv g d (s.rs b) ((s.rs a) / (s.rs b))

/-- REM: sign of a (R120). -/
def execRem (g : Guard) (d a b : SReg) (s : State) : Out := s.setDiv g d (s.rs b) ((s.rs a).srem (s.rs b))

/-- REMU (R120). -/
def execRemu (g : Guard) (d a b : SReg) (s : State) : Out := s.setDiv g d (s.rs b) ((s.rs a) % (s.rs b))

/-- SEL (Table 6.1). -/
def execSel (g : Guard) (d a b : SReg) (p : PReg) (s : State) : Out :=
  s.setS g d (if s.rp p then s.rs a else s.rs b)

/-- MOV (Table 6.1). -/
def execMov (g : Guard) (d a : SReg) (s : State) : Out := s.setS g d (s.rs a)

/-- CLZ (Table 6.1). -/
def execClz (g : Guard) (d a : SReg) (s : State) : Out := s.setS g d (clz64 (s.rs a))

/-- CTZ (Table 6.1). -/
def execCtz (g : Guard) (d a : SReg) (s : State) : Out := s.setS g d (ctz64 (s.rs a))

/-- POPC (Table 6.1). -/
def execPopc (g : Guard) (d a : SReg) (s : State) : Out := s.setS g d (popc64 (s.rs a))

/-! ## Major 0x02 (Table 6.2) -/

/-- ADDI (Table 6.2). -/
def execAddi (g : Guard) (d a : SReg) (imm : BitVec 48) (s : State) : Out := s.setS g d (s.rs a + sext64 imm)

/-- ANDI (Table 6.2). -/
def execAndi (g : Guard) (d a : SReg) (imm : BitVec 48) (s : State) : Out := s.setS g d (s.rs a &&& sext64 imm)

/-- ORI (Table 6.2). -/
def execOri (g : Guard) (d a : SReg) (imm : BitVec 48) (s : State) : Out := s.setS g d (s.rs a ||| sext64 imm)

/-- XORI (Table 6.2). -/
def execXori (g : Guard) (d a : SReg) (imm : BitVec 48) (s : State) : Out := s.setS g d (s.rs a ^^^ sext64 imm)

/-- SHLI (Table 6.2). -/
def execShli (g : Guard) (d a : SReg) (sh : BitVec 6) (s : State) : Out := s.setS g d (s.rs a <<< sh.toNat)

/-- SHRI (Table 6.2). -/
def execShri (g : Guard) (d a : SReg) (sh : BitVec 6) (s : State) : Out := s.setS g d (s.rs a >>> sh.toNat)

/-- SARI (Table 6.2). -/
def execSari (g : Guard) (d a : SReg) (sh : BitVec 6) (s : State) : Out := s.setS g d ((s.rs a).sshiftRight sh.toNat)

/-- LI (Table 6.2). -/
def execLi (g : Guard) (d : SReg) (imm : BitVec 48) (s : State) : Out := s.setS g d (sext64 imm)

/-- LIH: IMM[15:0] above s[A][47:0] (Table 6.2). -/
def execLih (g : Guard) (d a : SReg) (imm : BitVec 16) (s : State) : Out :=
  s.setS g d (imm ++ (s.rs a).extractLsb' 0 48)

/-- LEA: an address below 2^51 (Table 6.2). -/
def execLea (g : Guard) (d a : SReg) (imm : BitVec 48) (s : State) : Out :=
  s.setS g d (zext64 ((s.rs a + sext64 imm).setWidth 51))

/-! ## Major 0x03 (Table 6.4) -/

/-- CMP.EQ (Table 6.4). -/
def execCmpEq (g : Guard) (d : PReg) (a b : SReg) (s : State) : Out := s.setP g d (s.rs a == s.rs b)

/-- CMP.NE (Table 6.4). -/
def execCmpNe (g : Guard) (d : PReg) (a b : SReg) (s : State) : Out := s.setP g d (s.rs a != s.rs b)

/-- CMP.LT (Table 6.4). -/
def execCmpLt (g : Guard) (d : PReg) (a b : SReg) (s : State) : Out := s.setP g d ((s.rs a).slt (s.rs b))

/-- CMP.LE (Table 6.4). -/
def execCmpLe (g : Guard) (d : PReg) (a b : SReg) (s : State) : Out := s.setP g d ((s.rs a).sle (s.rs b))

/-- CMP.GT (Table 6.4). -/
def execCmpGt (g : Guard) (d : PReg) (a b : SReg) (s : State) : Out := s.setP g d ((s.rs b).slt (s.rs a))

/-- CMP.GE (Table 6.4). -/
def execCmpGe (g : Guard) (d : PReg) (a b : SReg) (s : State) : Out := s.setP g d ((s.rs b).sle (s.rs a))

/-- CMP.LTU (Table 6.4). -/
def execCmpLtu (g : Guard) (d : PReg) (a b : SReg) (s : State) : Out := s.setP g d ((s.rs a).ult (s.rs b))

/-- CMP.LEU (Table 6.4). -/
def execCmpLeu (g : Guard) (d : PReg) (a b : SReg) (s : State) : Out := s.setP g d ((s.rs a).ule (s.rs b))

/-- CMP.GTU (Table 6.4). -/
def execCmpGtu (g : Guard) (d : PReg) (a b : SReg) (s : State) : Out := s.setP g d ((s.rs b).ult (s.rs a))

/-- CMP.GEU (Table 6.4). -/
def execCmpGeu (g : Guard) (d : PReg) (a b : SReg) (s : State) : Out := s.setP g d ((s.rs b).ule (s.rs a))

/-- PAND (Table 6.4). -/
def execPand (g : Guard) (d a b : PReg) (s : State) : Out := s.setP g d (s.rp a && s.rp b)

/-- POR (Table 6.4). -/
def execPor (g : Guard) (d a b : PReg) (s : State) : Out := s.setP g d (s.rp a || s.rp b)

/-- PNOT (Table 6.4). -/
def execPnot (g : Guard) (d a : PReg) (s : State) : Out := s.setP g d (!s.rp a)

/-! ## Count bases (Table 6.6) -/

/-- KSET (R123). -/
def execKset (g : Guard) (d : KReg) (imm : BitVec 16) (s : State) : Out := s.setK g d imm

/-- KADD (R123). -/
def execKadd (g : Guard) (d a : KReg) (imm : BitVec 16) (s : State) : Out := s.setK g d (s.rk a + imm)

/-- KMOV to a count base from a scalar (R123). -/
def execKmovKS (g : Guard) (d : KReg) (a : SReg) (s : State) : Out := s.setK g d ((s.rs a).setWidth 16)

/-- KMOV to a scalar from a count base (R123). -/
def execKmovSK (g : Guard) (d : SReg) (a : KReg) (s : State) : Out := s.setS g d (zext64 (s.rk a))

/-- KMOV between count bases (R123). -/
def execKmovKK (g : Guard) (d a : KReg) (s : State) : Out := s.setK g d (s.rk a)

end Sys2Proof.Machine
end

