-- ==== Sys2Proof/Machine/Control.lean ====
section
/-! DEFINITION. Counts, branches, loops, drain points and task control (spec/06 R124 to R134, spec/01 R15 to R18). -/

namespace Sys2Proof.Machine

/-! ## Counts (R124 to R127) -/

/-- CADV (R124, R125): the write of R29, whatever the guard; as a counted handoff it releases what precedes it (R37). -/
def execCadv (_g : Guard) (x : CReg) (rdr : BitVec 3) (s : State) : Out :=
  .next (s.nullWrite s.cur.1 s.cur.2 x rdr)

/-- CRD (R127): the count state, without waiting; a failing count state raises its cause (R404). -/
def execCrd (g : Guard) (d : SReg) (x : CReg) (s : State) : Out :=
  let n := s.curCore.cnt x
  if s.guard g && n.bad then .next (s.trap Cause.eccUncorrectable (failingEaddr x))
  else s.doing g (s.ws d n.word)

/-- CWAIT (R126): a counted read without data. -/
def execCwait (g : Guard) (x : CReg) (k : KReg) (off : BitVec 5) (s : State) : Out :=
  if s.guard g then
    .next (s.srcIssue s.cur.1 s.cur.2 [⟨x, some (s.rk k + off.signExtend 16)⟩] .cwait)
  else .next s.adv

/-! ## Branches (R128) -/

/-- Address + 2 · sext(OFF), mod 2^51 (R90). -/
def State.target (s : State) (off : BitVec 48) : VAddr := s.pc + (2 * sext64 off).setWidth 51

/-- BR (Table 6.7). -/
def execBr (g : Guard) (off : BitVec 48) (s : State) : Out :=
  .next (if s.guard g then s.goto (s.target off) else s.adv)

/-- A branch to s[A][50:0]; a target with bit 0 set raises MISALIGNED (R99). -/
def State.jump (s : State) (g : Guard) (a : SReg) : Out :=
  let t : VAddr := (s.rs a).setWidth 51
  if !s.guard g then .next s.adv
  else if t.getLsbD 0 then .next (s.trap Cause.misaligned (t.zeroExtend 64))
  else .next (s.goto t)

/-- BRI (Table 6.7). -/
def execBri (g : Guard) (a : SReg) (s : State) : Out := s.jump g a

/-- RET (Table 6.7). -/
def execRet (g : Guard) (a : SReg) (s : State) : Out := s.jump g a

/-- CALL (Table 6.7): the link is the address of the next instruction. -/
def execCall (g : Guard) (d : SReg) (off : BitVec 48) (s : State) : Out :=
  .next (if s.guard g then (s.ws d (s.nextPc.zeroExtend 64)).goto (s.target off) else s.adv)

/-! ## Loops (R129, R131) -/

/-- The count bases after a pass: those in KMASK are stepped (R129). -/
def stepBases (k : Vector (BitVec 16) 7) (kmask : BitVec 7) : Vector (BitVec 16) 7 :=
  k.mapIdx fun i v => if kmask.getLsbD i then v + 1 else v

/-- The passes left after the decrement (R129). -/
def loopLeft (n : Word) : Word := if n == 0 then 0 else n - 1

/-- The clamp of a drainable LOOP under drain with n passes left (R129): LOOPIT and DRAINED.CL. -/
def Stream.clamp (v : Stream) (n : Word) : Stream :=
  { v with loopit := if n != 0 && !(v.loopit.getLsbD 63) then n ||| (1 <<< 63) else v.loopit,
           cl := v.cl || n != 0 }

/-- LOOP (R129). -/
def execLoop (g : Guard) (d : SReg) (kmask : BitVec 7) (drain : Bool) (off : BitVec 48) (s : State) : Out :=
  if !s.guard g then .next s.adv
  else
    let n := loopLeft (s.rs d)
    let clamps := drain && s.curStream.dr && !(n.getLsbD 63)
    let s' := s.modStream s.cur.1 s.cur.2 fun v =>
      let v := { v with k := stepBases v.k kmask }
      if clamps then v.clamp n else v
    let n := if clamps then 0 else n
    .next (if n == 0 then (s'.ws d n).adv else (s'.ws d n).goto (s.target off))

/-! ## Task control (R132, R134) -/

/-- CONTROL_STATE with a sub-code of Table 6.14. -/
def State.controlState (s : State) (sub : Word) : State := s.trap Cause.controlState sub

/-- CTRL runs a handler. -/
def State.inHandler (s : State) : Bool := s.cur.2 == .ctrl && s.curCore.hl != 0

/-- DPT (R132): under drain the stream stops with its live masks and its PC at the next instruction. -/
def execDpt (a b : SReg) (s : State) : Out :=
  if s.inHandler then .next (s.controlState 4)
  else if s.curStream.dr then
    let live := s.rs b ++ s.rs a
    .next (s.adv.modStream s.cur.1 s.cur.2 fun v => { v with st := .drainStop, at_ := true, live := live })
  else .next s.adv

/-- A stream that leaves IDLE at the entry of its section (R134). -/
def Stream.fork (v : Stream) (entry : VAddr) : Stream :=
  if v.st == .idle then { v with st := .running, pc := entry } else v

/-- LOAD, EXEC and STORE leave IDLE at their sections' entries (R14); a core without a task has entry points 0. -/
def Core.fork (k : Core) : Core :=
  let (l, e, t) := match k.task with
    | some t => (t.entryLoad, t.entryExec, t.entryStore)
    | none => (0, 0, 0)
  let k := k.handTo [.ctrl] [.load, .exec, .store]
  { k with forked := true, load := k.load.fork l, exec := k.exec.fork e, store := k.store.fork t }

/-- FORK (Table 6.10): what CTRL did before comes before what the three streams do. A second FORK in a handler fits sub-codes 1 and 4
of Table 6.14, and which it raises is the model's choice (assumption log 28). -/
def execFork (s : State) : Out :=
  if s.inHandler then .next (s.controlState 4)
  else if s.curCore.forked then .next (s.controlState 1)
  else .next (((s.releaseOn s.cur.1 s.cur.2).modCore s.cur.1 Core.fork).adv)

/-- JOIN (R15): the stream waits; JOIN_COMPLETE ends the wait. Every access before it comes first. -/
def execJoin (s : State) : Out :=
  if s.inHandler then .next (s.controlState 4)
  else .next ((s.releaseOn s.cur.1 s.cur.2).waitOn s.cur.1 s.cur.2 .otherWait .join)

/-- END (Table 6.10): the stream stays RUNNING at END until STREAM_ENDED. -/
def execEndStream (s : State) : Out :=
  if s.inHandler then .next (s.controlState 4)
  else .next ((s.releaseOn s.cur.1 s.cur.2).waitOn s.cur.1 s.cur.2 .running .finish)

/-- POST (R18): the word this role posted last. -/
def execPost (g : Guard) (a : SReg) (s : State) : Out :=
  s.doing g (s.modCore s.cur.1 fun k => { k with posted := s.rs a })

/-- The stream has arrived at the join of ordinal j: it waits at a JOIN of that ordinal, or is ENDED (R15). -/
def Stream.joined (v : Stream) (j : Nat) : Bool := v.st == .ended || (v.pend == .join && v.jord == j) || decide (j < v.jord)

/-- The rendezvous of ordinal j is complete (R15). -/
def Core.joinDone (k : Core) (j : Nat) : Bool :=
  k.load.joined j && k.exec.joined j && k.store.joined j && k.ctrl.joined j

/-- A stream leaves the join of ordinal j (R15). -/
def Stream.leaveJoin (v : Stream) (j : Nat) : Stream :=
  if v.pend == .join && v.jord == j then { v.finish with jord := j + 1 } else v

/-- Every stream that waits leaves a join whose rendezvous is complete, ordered after all that have arrived (R15, Table 12.3). -/
def Core.leaveJoin (k : Core) (j : Nat) : Core :=
  if k.joinDone j then
    let k := k.handTo coreStreams (coreStreams.filter fun x => (k.stream x).pend == .join && (k.stream x).jord == j)
    { k with load := k.load.leaveJoin j, exec := k.exec.leaveJoin j, store := k.store.leaveJoin j,
             ctrl := k.ctrl.leaveJoin j }
  else k

/-- The ordinal of the join that some stream of a core waits at. -/
def Core.joinOrd (k : Core) : Option Nat :=
  ([k.load, k.exec, k.store, k.ctrl].find? fun v => v.pend == .join).map fun v => v.jord

/-- JOIN_COMPLETE (R15): the four streams have arrived, and those that wait go on. -/
def execJoinComplete (c : CoreId) (s : State) : Out :=
  .next (match (s.core c).joinOrd with
    | some j => if (s.core c).gated then s else s.modCore c fun k => k.leaveJoin j
    | none => s)

end Sys2Proof.Machine
end

