-- ==== Sys2Proof/Machine/Access.lean ====
section
/-! DEFINITION. Loads, stores and tags of the access unit, and the events that perform them (spec/09 R190 to R206,
R212, spec/21 R354 to R358, R369). -/

namespace Sys2Proof.Machine

/-! ## Address-side checks (R192) -/

/-- The needs of an access by the issuing stream. -/
def State.unitAcc (s : State) (kind : AccKind) (size align : Nat) (planed u64 : Bool) : UnitAcc :=
  { c := s.cur.1, x := s.curCore.ctx s.cur.2 kind, size := size, align := align, planed := planed, engine := false,
    u64 := u64 }

/-- The issuing stream is held by a page walk, which is a miss of the TLB (Table 27.3), by a request for a page of host
memory (R192, R369), or under an aperture by a MIGRATE of its buffer (R365); its instruction comes to issue again
afterwards. -/
def State.walkFor (s : State) (va : VAddr) (write : Bool) (pri : Option (BitVec 36)) : State :=
  let s' := s.modStream s.cur.1 s.cur.2 fun v => { v with walk := some ⟨va, write, pri⟩, again := true }
  if pri.isSome || (s.apertureAt s.curCore.partId va.toNat).isSome then s' else s'.sketch 6 s.cur.1 s.pc 1

/-- What a failed check does: a trap, or a wait for a translation. -/
def State.accessBar (s : State) (va0 : VAddr) (write : Bool) (r : UnitRes) : State :=
  match r with
  | .ok _ => s
  | .miss va => s.walkFor va write none
  | .pri page => s.walkFor va0 write (some page)
  | .fault cause ea => (s.dropAnswers s.cur.1 cause).trap cause (ea.zeroExtend 64)
  | .poison ea pa => s.poisonOn s.cur.1 s.cur.2 ea pa

/-- Check the units at some addresses, then go on with their places (R192). -/
def State.access (s : State) (a : UnitAcc) (vas : List VAddr) (go : State → List MemUnit → State) : State :=
  match s.checkUnits a vas with
  | .ok units => go s units
  | .error r => s.accessBar ((vas[0]?).getD 0) (a.x.kind == .write) r

/-- The addresses of n units. -/
def State.unitVas (s : State) (base str : SReg) (off : BitVec 24) (dense n : Nat) : List VAddr :=
  (List.range n).map (unitAddr (s.ea base off) (s.stride str dense))

/-- Blocks of a planed instruction on n planes (R195). -/
def planedBlocks (n : Nat) : Nat := if n == 1 then 32 else if n == 2 then 16 else if n == 3 then 10 else 8

/-- A tile load: the write of R29 when guarded false, else the checks, then the wait for the destination. -/
def State.tileLoad (s : State) (g : Guard) (d : TDst) (planed : Option (Nat × Bool)) (a : UnitAcc)
    (vas : List VAddr) : Out :=
  let c := s.cur.1
  let x := s.cur.2
  .next (if s.guard g then s.access a vas fun s us => s.dstPhase c x (.tile d.reg) d.rdr [] (.load planed us)
    else s.nullWrite c x (.tile d.reg) d.rdr)

/-- TLD (R193). -/
def execTld (g : Guard) (d : TDst) (base str : SReg) (off : BitVec 24) (s : State) : Out :=
  s.tileLoad g d none (s.unitAcc .read 128 128 false false) (s.unitVas base str off 128 32)

/-- TLDP (R196): n − 1 in its field. With STR = 0 the stride is the 512 bytes of Table 9.1 (R190); the table of R91 gives
the 128 bytes of TLD for every tile instruction, and no ruling settles the conflict (assumption log 28). -/
def execTldp (g : Guard) (d : TDst) (n : BitVec 2) (rn1 : Bool) (base str : SReg) (off : BitVec 24) (s : State) : Out :=
  s.tileLoad g d (some (n.toNat + 1, rn1)) (s.unitAcc .read 512 512 true false)
    (s.unitVas base str off 512 (planedBlocks (n.toNat + 1)))

/-- A tile store: COUNT_CONFLICT, then the checks, then the sources (R192, R194, R197). -/
def State.tileStore (s : State) (g : Guard) (srcs : List SrcRef) (planed : Option Nat) (cm : Bool) (a : UnitAcc)
    (vas : List VAddr) : Out :=
  let c := s.cur.1
  let x := s.cur.2
  .next (if s.guard g then
    match conflictIn srcs with
    | some r => s.trap Cause.countConflict (countEaddr r 0)
    | none => s.access a vas fun s us => s.srcPhase c x srcs (.store planed cm us)
  else s.adv)

/-- TST (R194). -/
def execTst (g : Guard) (a : TSrc) (base str : SReg) (off : BitVec 24) (s : State) : Out :=
  s.tileStore g [s.tsrc a] none false (s.unitAcc .write 128 128 false false) (s.unitVas base str off 128 32)

/-- TSTP (R197), with the stride of TLDP. -/
def execTstp (g : Guard) (a : TSrc) (n : BitVec 2) (cm : Option TSrc) (base str : SReg) (off : BitVec 24)
    (s : State) : Out :=
  let srcs := match cm with
    | some m => [s.tsrc a, s.tsrc m]
    | none => [s.tsrc a]
  s.tileStore g srcs (some (n.toNat + 1)) cm.isSome (s.unitAcc .write 512 512 true false)
    (s.unitVas base str off 512 (planedBlocks (n.toNat + 1)))

/-! ## Scalar loads and stores (R201, R202) -/

/-- LDS of n bytes: the stream waits for SCALAR_LOAD_RETURN (R201). -/
def State.scalarLoad (s : State) (g : Guard) (t base : SReg) (off : BitVec 24) (n : Nat) (signed : Bool) : Out :=
  let c := s.cur.1
  let x := s.cur.2
  .next (if s.guard g then
    s.access (s.unitAcc .read n n false (n == 8)) [s.ea base off] fun s us =>
      match us with
      | u :: _ =>
        let seq := (s.core c).seq
        ((s.requests c s.pc (.lds c x seq) [unitReq false false u [(0, n)]]).modCore c fun k => { k with seq := seq + 1 }).waitOn c x
          .running (.lds ⟨seq, t, n, signed, u⟩)
      | [] => s
  else s.adv)

/-- LDS.u8 (R201). -/
def execLdsU8 (g : Guard) (t base : SReg) (off : BitVec 24) (s : State) : Out := s.scalarLoad g t base off 1 false
/-- LDS.u16 (R201). -/
def execLdsU16 (g : Guard) (t base : SReg) (off : BitVec 24) (s : State) : Out := s.scalarLoad g t base off 2 false
/-- LDS.u32 (R201). -/
def execLdsU32 (g : Guard) (t base : SReg) (off : BitVec 24) (s : State) : Out := s.scalarLoad g t base off 4 false
/-- LDS.u64 (R201). -/
def execLdsU64 (g : Guard) (t base : SReg) (off : BitVec 24) (s : State) : Out := s.scalarLoad g t base off 8 false
/-- LDS.i8 (R201). -/
def execLdsI8 (g : Guard) (t base : SReg) (off : BitVec 24) (s : State) : Out := s.scalarLoad g t base off 1 true
/-- LDS.i16 (R201). -/
def execLdsI16 (g : Guard) (t base : SReg) (off : BitVec 24) (s : State) : Out := s.scalarLoad g t base off 2 true
/-- LDS.i32 (R201). -/
def execLdsI32 (g : Guard) (t base : SReg) (off : BitVec 24) (s : State) : Out := s.scalarLoad g t base off 4 true

/-- A store of a stream enters its queue (R212). -/
def State.pushStore (s : State) (c : CoreId) (x : StreamId) (d : StoreData) (us : List MemUnit) : State :=
  let s := s.requests c (s.stream c x).pc (.store c x (s.core c).seq) (d.reqs us)
  (s.modCore c fun k => { k with seq := k.seq + 1 }).modStream c x fun v =>
    { v with stores := v.stores ++ [⟨(s.core c).seq, d, us, (s.stream c x).pc⟩] }

/-- STS of n bytes (R202): the value is read at issue. -/
def State.scalarStore (s : State) (g : Guard) (t base : SReg) (off : BitVec 24) (n : Nat) : Out :=
  let c := s.cur.1
  let x := s.cur.2
  .next (if s.guard g then
    s.access (s.unitAcc .write n n false (n == 8)) [s.ea base off] fun s us =>
      (s.pushStore c x (.sts (leBytes n (s.rs t).toNat)) us).adv
  else s.adv)

/-- STS.u8 (R202). -/
def execStsU8 (g : Guard) (t base : SReg) (off : BitVec 24) (s : State) : Out := s.scalarStore g t base off 1
/-- STS.u16 (R202). -/
def execStsU16 (g : Guard) (t base : SReg) (off : BitVec 24) (s : State) : Out := s.scalarStore g t base off 2
/-- STS.u32 (R202). -/
def execStsU32 (g : Guard) (t base : SReg) (off : BitVec 24) (s : State) : Out := s.scalarStore g t base off 4
/-- STS.u64 (R202). -/
def execStsU64 (g : Guard) (t base : SReg) (off : BitVec 24) (s : State) : Out := s.scalarStore g t base off 8

/-! ## Cistern tags (R43, R44, R203 to R206) -/

/-- TAG of an entry. -/
def tagOf (e : Word) : BitVec 39 := e.extractLsb' 0 39
/-- V of an entry. -/
def tagV (e : Word) : Bool := e.getLsbD 39

/-- The lowest-numbered entry that meets a test. -/
def Core.tagFind (k : Core) (f : Word → Bool) : Option (Nat × Word) :=
  (k.tags.toList.zipIdx.find? fun e => f e.1).map fun e => (e.2, e.1)

/-- The word LOOKUP writes (R204). -/
def Core.lookup (k : Core) (tag : BitVec 39) : Word :=
  match k.tagFind fun e => tagV e && tagOf e == tag with
  | some (i, e) =>
    (0 : BitVec 40) ++ e.extractLsb' 42 6 ++ e.extractLsb' 41 1 ++ e.extractLsb' 40 1 ++ (0 : BitVec 7) ++ BitVec.ofNat 9 i
  | none =>
    match k.tagFind fun e => !tagV e with
    | some (i, _) => (1 <<< 63) ||| BitVec.ofNat 64 i
    | none => 3 <<< 62

/-- The issuing stream performs a tag operation: those of one cycle are performed in stream-code order (R44). -/
def State.tagTurn (s : State) : State := s.takeTurn (.tag s.cur.1) (codeOf s.cur.2)

/-- LOOKUP (R204). -/
def execLookup (g : Guard) (t base : SReg) (off : BitVec 24) (s : State) : Out :=
  if s.guard g then .next ((s.ws t (s.curCore.lookup ((s.ea base off).extractLsb' 12 39))).adv.tagTurn) else .next s.adv

/-- The core with one tag-table entry written. -/
def Core.setTag (k : Core) (i : Nat) (v : Word) : Core := { k with tags := k.tags.setIfInBounds i v }

/-- TAGSET (R205): the index is checked before the value. -/
def execTagset (g : Guard) (t base : SReg) (off : BitVec 24) (s : State) : Out :=
  let i := s.tagIdx base off
  if !s.guard g then .next s.adv
  else if 512 ≤ i.toNat then .next (s.trap Cause.tagIndex i)
  else if (s.rs t).extractLsb' 48 16 != 0 then .next s.trapReserved
  else .next ((s.modCore s.cur.1 fun k => k.setTag i.toNat (s.rs t)).adv.tagTurn)

/-- The entry at an index, zero beyond the table. -/
def Core.tag (k : Core) (i : Nat) : Word := (k.tags[i]?).getD 0

/-- TAGINV (R205): V is cleared, the other bits stay. -/
def execTaginv (g : Guard) (base : SReg) (off : BitVec 24) (s : State) : Out :=
  let i := s.tagIdx base off
  if !s.guard g then .next s.adv
  else if 512 ≤ i.toNat then .next (s.trap Cause.tagIndex i)
  else .next ((s.modCore s.cur.1 fun k => k.setTag i.toNat (k.tag i.toNat &&& ~~~((1 : Word) <<< 39))).adv.tagTurn)

/-- The word PROBE writes (R206). -/
def Core.probe (k : Core) (tag : BitVec 39) (range : Nat) : Word :=
  let hits := k.tags.toList.zipIdx.filter fun e => tagV e.1 && tagOf e.1 >>> range == tag >>> range
  let first := match hits with
    | e :: _ => e.2
    | [] => 0
  (0 : BitVec 38) ++ BitVec.ofNat 10 hits.length ++ (0 : BitVec 6) ++ bit1 (!hits.isEmpty) ++ BitVec.ofNat 9 first

/-- PROBE (R206). -/
def execProbe (g : Guard) (t base : SReg) (off : BitVec 24) (range : BitVec 4) (s : State) : Out :=
  if s.guard g then .next ((s.ws t (s.curCore.probe ((s.ea base off).extractLsb' 12 39) range.toNat)).adv.tagTurn)
  else .next s.adv

/-! ## Loads and stores performed -/

/-- An event of a core: nothing happens on a gated core (R412). -/
def State.onCore (s : State) (c : CoreId) (f : State → State) : Out := .next (if (s.core c).gated then s else f s)

/-- What an LDS reads: a port register, or bytes and their poison. -/
def State.ldsRead (s : State) (c : CoreId) (o : LdsOp) : State × Nat × Bool :=
  match o.unit.loc with
  | .port i _ =>
    let r := s.portRead i
    (r.1, r.2.toNat, false)
  | l =>
    let r := s.readLoc c (s.corePart c) l o.size
    (s, leNat r.1, r.2)

/-- The value of an LDS: zero- or sign-extended (R201). -/
def ldsValue (o : LdsOp) (v : Nat) : Word :=
  if o.signed then BitVec.ofInt 64 (toSigned (8 * o.size) v) else BitVec.ofNat 64 v

/-- What comes before an LDS of a stream (R212, Table 12.5): LOAD's earlier tile loads read their bytes, and the stream's
earlier stores to the same bytes are performed. -/
def State.beforeLds (s : State) (c : CoreId) (x : StreamId) (o : LdsOp) : State :=
  let s := if x == .load then s.readLoads c o.seq else s
  s.storeMany c x ((s.stream c x).overlapping o.seq [(o.unit.loc, o.size)])

/-- SCALAR_LOAD_RETURN (R201): the value is written, or POISON_CONSUMED raised; an uncorrectable error poisons what it
meets (R401); a trap that waited for CTRL's boundary is delivered (R337). -/
def execScalarLoadReturn (c : CoreId) (x : StreamId) (err : Bool) (s : State) : Out :=
  s.onCore c fun s =>
    match (s.stream c x).pend with
    | .lds o =>
      let s := s.beforeLds c x o
      let (s, v, bad) := s.ldsRead c o
      let s := if bad || (err && o.unit.loc.isMemory) then
          (((if bad then s else s.locError c (s.stream c x).pc o.unit.loc)).waitOn c x .running .none).poisonOn c x o.unit.va
            (s.badAddr c o.unit.loc o.size)
        else (s.modCore c fun k => k.writeS x o.t (ldsValue o v)).finishOn c x
      if x == .ctrl then s.deliverHeld c else s
    | _ => s

/-- The oldest store of a stream is an STS. -/
def Stream.headIsSts (v : Stream) : Option Bool :=
  match v.stores with
  | [] => none
  | r :: _ => some (match r.data with
    | .sts _ => true
    | _ => false)

/-- TILE_STORE_PERFORMED (R194, R197): the oldest store of the stream, a TST or TSTP, is performed. -/
def execTileStorePerformed (c : CoreId) (x : StreamId) (s : State) : Out :=
  s.onCore c fun s => if (s.stream c x).headIsSts == some false then s.storeOne c x else s

/-- SCALAR_STORE_PERFORMED (R202): the oldest store of the stream, an STS, is performed. -/
def execScalarStorePerformed (c : CoreId) (x : StreamId) (s : State) : Out :=
  s.onCore c fun s => if (s.stream c x).headIsSts == some true then s.storeOne c x else s

/-- The granules that a load reads, each as its place and the rows of the tile that it feeds (R193, R196): of a block, the halves of
the planes that the rule names, each of which holds one byte of 64 elements. -/
def LoadRec.reads (r : LoadRec) : List (Loc × List Nat) :=
  (r.units.zipIdx.flatMap fun u =>
    (loadParts r.planed).flatMap fun p => [0, 1].map fun h =>
      (u.1.loc.plus (p.1 + 64 * h), match r.planed with
        | none => [u.2]
        | some (n, _) =>
          let e := 128 * u.2 + 64 * h
          (List.range 32).filter fun row => decide (n * e / 128 ≤ row) && decide (row ≤ (n * (e + 64) - 1) / 128))).filter
    fun q => q.1.isMemory

/-- The granules of a load that meet an uncorrectable error: which they are is free. -/
def LoadRec.failing (r : LoadRec) (n : Nat) : List (Loc × List Nat) :=
  (r.reads.zipIdx.filter fun q => (Config.freeTile n).getLsbD q.2).map (·.1)

/-- The rows that uncorrectable errors meet are unpredictable and poisoned (R193, R196). -/
def loadError (n : Nat) (bad : List (Loc × List Nat)) (v : BitVec 32768 × BitVec 32) : BitVec 32768 × BitVec 32 :=
  let rows : BitVec 32 := BitVec.ofNat 32 ((List.range 32).map fun i => if bad.any fun q => q.2.contains i then 2 ^ i else 0).sum
  (mergeBits v.1 (Config.freeTile (n + 1)) (rowMaskBits rows), v.2 ||| rows)

/-- Granules that meet an error are poisoned, with their records (R401). -/
def State.loadErrors (s : State) (c : CoreId) (r : LoadRec) (bad : List (Loc × List Nat)) : State :=
  bad.foldl (fun s q => s.locError c r.pc q.1) s

/-- The write of a load whose bytes have been read. -/
def LoadRec.write (v : BitVec 32768 × BitVec 32) : WriteData :=
  .tile v.1 (BitVec.allOnes 32768) v.2 (BitVec.allOnes 32)

/-- TILE_LOAD_COMPLETE (R193, R196): load i reads its bytes, after LOAD's earlier stores and the loads before it, which its
write releases (R37, R212), and its write completes. -/
def execTileLoadComplete (c : CoreId) (i : Nat) (err : Bool) (s : State) : Out :=
  s.onCore c fun s =>
    match (s.core c).loads[i]? with
    | none => s
    | some r =>
      let s := (s.flushTo c .load r.seq).readBefore c (r.seq + 1)
      match (s.core c).loads[i]? with
      | none => s
      | some r =>
        let v := r.buf.getD (0, 0)
        let bad := if err then r.failing s.fresh else []
        let v := if err then loadError s.fresh bad v else v
        { (s.loadErrors c r bad).modCore c fun k =>
          { k.completeWrite (.tile r.dst) r.rdr (LoadRec.write v) with loads := k.loads.eraseIdx i } with fresh := s.fresh + 2 }

/-! ## Page walks (R192, R352 to R358, R369) -/

/-- The context of a stream's walk. -/
def Core.walkCtx (k : Core) (x : StreamId) (w : Walk) : TransCtx := k.ctx x (if w.write then .write else .read)

/-- A walk meets an uncorrectable error in one of the entries it reads (Table 26.1): which one is free. -/
def State.walkError (s : State) (c : CoreId) (x : StreamId) (t : TransCtx) (va : VAddr) : State :=
  let trace := s.walkTrace t va.toNat
  let pa := trace.getD ((Config.freeWord s.fresh).toNat % max trace.length 1) 0
  ((s.locError c (s.stream c x).pc (.phys pa)).useFresh).poisonOn c x va pa

/-- PAGE_WALK_COMPLETE (R192, R356): the walk ends with an entry, after which the instruction is checked again, or
with a fault; a walk of a page that a MIGRATE blocks waits (R365). An access under an aperture has nothing to walk (R55): it
waits while its buffer may move, and is checked again. -/
def execPageWalkComplete (c : CoreId) (x : StreamId) (useL2 wide ecc : Bool) (s : State) : Out :=
  s.onCore c fun s =>
    match (s.stream c x).walk with
    | none => s
    | some w =>
      let t := (s.core c).walkCtx x w
      let done := s.modStream c x fun v => { v with walk := none }
      if w.pri.isSome then s
      else if (s.apertureAt t.part w.va.toNat).isSome then (if s.movingIpa t.part then s else done)
      else if s.blockedPage t.part t.pasid w.va.toNat then s
      else match if useL2 then (s.l2Of c).find? fun e => e.serves t w.va.toNat else none with
        | some e => done.modCore c fun k => { k with tlb := tlbInsert tlbSize k.tlb e }
        | none =>
          if ecc then done.walkError c x t w.va
          else match s.walk t w.va.toNat with
            | .ok r => done.fillTlb c (tlbOf t w.va.toNat r wide)
            | .fault cause => done.trapOn c x cause (w.va.zeroExtend 64)
            | .poison pa => done.poisonOn c x w.va pa
            | .blocked => s

/-- PRI_RESPONSE (R369): the answer for a page of host memory is kept, and those who wait for it go on; a stream whose clocks stand does
once they go on (R412). -/
def execPriResponse (p : PartId) (pasid : BitVec 20) (page : BitVec 36) (ok : Bool) (s : State) : Out :=
  let keep := s.ats.filter fun e => !(e.part == p && e.pasid == pasid && e.page == page)
  .next { s with ats := ⟨p, pasid, page, ok⟩ :: keep, cores := s.cores.map fun k =>
    if k.gated then k else k.priDone p pasid page }

end Sys2Proof.Machine
end

