-- ==== Sys2Proof/Machine/Vector.lean ====
section
/-! DEFINITION. Tile-vector instructions and the plane and optimiser instructions (spec/07, spec/09 R207 to R211): each
names its function and its operands, and the frame of R144 does the rest. -/

namespace Sys2Proof.Machine

/-! ## Shared shapes -/

/-- The rounding mode of RMODE (R75). -/
def rmOf (v : BitVec 2) : RM := if v == 0 then .rne else if v == 1 then .rz else if v == 2 then .ru else .rd

/-- The rounding mode an instruction selects (R74). -/
def State.rm (s : State) (r : RSel) : RM :=
  match r with
  | .rmode => rmOf s.curStream.rmode
  | .rne => .rne
  | .rz => .rz
  | .ru => .ru
  | .rd => .rd

/-- An instruction with a tile destination and tile sources in operand order. -/
def State.tileOp (s : State) (g : Guard) (d : TDst) (mk : Option MReg) (srcs : List TSrc) (fn : VecFn) : Out :=
  s.vecIssue g (.tile d.reg) d.rdr mk (srcs.map s.tsrc) fn

/-! ## Arithmetic (R148 to R151) -/

/-- VADD (R149, R150). -/
def execVadd (g : Guard) (d : TDst) (a b : TSrc) (ty : ElemTy) (rs : RSel) (sat : Bool)
    (mk : Option MReg) (s : State) : Out :=
  s.tileOp g d mk [a, b] (.arith .add ty (s.rm rs) sat)

/-- VSUB (R149, R150). -/
def execVsub (g : Guard) (d : TDst) (a b : TSrc) (ty : ElemTy) (rs : RSel) (sat : Bool)
    (mk : Option MReg) (s : State) : Out :=
  s.tileOp g d mk [a, b] (.arith .sub ty (s.rm rs) sat)

/-- VMUL (R149, R150). -/
def execVmul (g : Guard) (d : TDst) (a b : TSrc) (ty : ElemTy) (rs : RSel) (sat : Bool)
    (mk : Option MReg) (s : State) : Out :=
  s.tileOp g d mk [a, b] (.arith .mul ty (s.rm rs) sat)

/-- VFMA (R149, R150). -/
def execVfma (g : Guard) (d : TDst) (a b c : TSrc) (ty : ElemTy) (rs : RSel) (sat : Bool)
    (mk : Option MReg) (s : State) : Out :=
  s.tileOp g d mk [a, b, c] (.arith .fma ty (s.rm rs) sat)

/-- VFMS (R149, R150). -/
def execVfms (g : Guard) (d : TDst) (a b c : TSrc) (ty : ElemTy) (rs : RSel) (sat : Bool)
    (mk : Option MReg) (s : State) : Out :=
  s.tileOp g d mk [a, b, c] (.arith .fms ty (s.rm rs) sat)

/-- VMIN (R149, R150). -/
def execVmin (g : Guard) (d : TDst) (a b : TSrc) (ty : ElemTy) (mk : Option MReg) (s : State) : Out :=
  s.tileOp g d mk [a, b] (.arith .min ty .rne false)

/-- VMAX (R149, R150). -/
def execVmax (g : Guard) (d : TDst) (a b : TSrc) (ty : ElemTy) (mk : Option MReg) (s : State) : Out :=
  s.tileOp g d mk [a, b] (.arith .max ty .rne false)

/-- VABS (R149, R150). -/
def execVabs (g : Guard) (d : TDst) (a : TSrc) (ty : ElemTy) (sat : Bool) (mk : Option MReg) (s : State) : Out :=
  s.tileOp g d mk [a] (.arith .abs ty .rne sat)

/-- VNEG (R149, R150). -/
def execVneg (g : Guard) (d : TDst) (a : TSrc) (ty : ElemTy) (sat : Bool) (mk : Option MReg) (s : State) : Out :=
  s.tileOp g d mk [a] (.arith .neg ty .rne sat)

/-- VDIV (R150). -/
def execVdiv (g : Guard) (d : TDst) (a b : TSrc) (ty : ElemTy) (rs : RSel) (sat : Bool)
    (mk : Option MReg) (s : State) : Out :=
  s.tileOp g d mk [a, b] (.arith .div ty (s.rm rs) sat)

/-- VSQRT (R150). -/
def execVsqrt (g : Guard) (d : TDst) (a : TSrc) (ty : ElemTy) (rs : RSel) (sat : Bool)
    (mk : Option MReg) (s : State) : Out :=
  s.tileOp g d mk [a] (.arith .sqrt ty (s.rm rs) sat)

/-- VRCP (R151). -/
def execVrcp (g : Guard) (d : TDst) (a : TSrc) (ty : ElemTy) (sat : Bool) (mk : Option MReg) (s : State) : Out :=
  s.tileOp g d mk [a] (.trans .rcp ty sat)

/-- VRSQ (R151). -/
def execVrsq (g : Guard) (d : TDst) (a : TSrc) (ty : ElemTy) (sat : Bool) (mk : Option MReg) (s : State) : Out :=
  s.tileOp g d mk [a] (.trans .rsq ty sat)

/-- VEXP2 (R151). -/
def execVexp2 (g : Guard) (d : TDst) (a : TSrc) (ty : ElemTy) (sat : Bool) (mk : Option MReg) (s : State) : Out :=
  s.tileOp g d mk [a] (.trans .exp2 ty sat)

/-- VLOG2 (R151). -/
def execVlog2 (g : Guard) (d : TDst) (a : TSrc) (ty : ElemTy) (sat : Bool) (mk : Option MReg) (s : State) : Out :=
  s.tileOp g d mk [a] (.trans .log2 ty sat)

/-! ## Logic, shifts, comparison and selection (R152 to R155) -/

/-- VAND (R152). -/
def execVand (g : Guard) (d : TDst) (a b : TSrc) (ty : ElemTy) (mk : Option MReg) (s : State) : Out :=
  s.tileOp g d mk [a, b] (.logic .and ty)

/-- VOR (R152). -/
def execVor (g : Guard) (d : TDst) (a b : TSrc) (ty : ElemTy) (mk : Option MReg) (s : State) : Out :=
  s.tileOp g d mk [a, b] (.logic .or ty)

/-- VXOR (R152). -/
def execVxor (g : Guard) (d : TDst) (a b : TSrc) (ty : ElemTy) (mk : Option MReg) (s : State) : Out :=
  s.tileOp g d mk [a, b] (.logic .xor ty)

/-- VNOT (R152). -/
def execVnot (g : Guard) (d : TDst) (a : TSrc) (ty : ElemTy) (mk : Option MReg) (s : State) : Out :=
  s.tileOp g d mk [a] (.logic .not ty)

/-- VSHL (R152). -/
def execVshl (g : Guard) (d : TDst) (a b : TSrc) (ty : ElemTy) (mk : Option MReg) (s : State) : Out :=
  s.tileOp g d mk [a, b] (.logic .shl ty)

/-- VSHR (R152). -/
def execVshr (g : Guard) (d : TDst) (a b : TSrc) (ty : ElemTy) (mk : Option MReg) (s : State) : Out :=
  s.tileOp g d mk [a, b] (.logic .shr ty)

/-- VSAR (R152). -/
def execVsar (g : Guard) (d : TDst) (a b : TSrc) (ty : ElemTy) (mk : Option MReg) (s : State) : Out :=
  s.tileOp g d mk [a, b] (.logic .sar ty)

/-- VCMP (R153). -/
def execVcmp (g : Guard) (d : TDst) (a b : TSrc) (cond : Cond) (ty : ElemTy) (mk : Option MReg) (s : State) : Out :=
  s.tileOp g d mk [a, b] (.cmp cond ty)

/-- VCMPB (R154). -/
def execVcmpb (g : Guard) (d : TDst) (a b : TSrc) (cond : Cond) (mk : Option MReg) (s : State) : Out :=
  s.tileOp g d mk [a, b] (.cmpb cond)

/-- VSEL (R155). -/
def execVsel (g : Guard) (d : TDst) (a b c : TSrc) (ty : ElemTy) (mk : Option MReg) (s : State) : Out :=
  s.tileOp g d mk [a, b, c] (.sel ty)

/-! ## Conversion and movement (R156 to R159) -/

/-- VCVT (R156 to R158). -/
def execVcvt (g : Guard) (d : TDst) (a : TSrc) (sty dty : ElemTy) (rs : RSel) (sat : Bool) (part : BitVec 4)
    (mk : Option MReg) (s : State) : Out :=
  s.tileOp g d mk [a] (.cvt sty dty (s.rm rs) sat part.toNat)

/-- VMOV (R159). -/
def execVmov (g : Guard) (d : TDst) (a : TSrc) (mk : Option MReg) (s : State) : Out := s.tileOp g d mk [a] .mov

/-- VSPLAT (R159). -/
def execVsplat (g : Guard) (d : TDst) (a : TSrc) (ty : ElemTy) (mk : Option MReg) (s : State) : Out :=
  s.tileOp g d mk [a] (.splat ty)

/-- VGETE (R159). -/
def execVgete (g : Guard) (d : TDst) (a b : TSrc) (ty : ElemTy) (mk : Option MReg) (s : State) : Out :=
  s.tileOp g d mk [a, b] (.gete ty)

/-- VPUTE (R159). -/
def execVpute (g : Guard) (d : TDst) (a b c : TSrc) (ty : ElemTy) (mk : Option MReg) (s : State) : Out :=
  s.tileOp g d mk [a, b, c] (.pute ty)

/-- VBCASTR (R159). -/
def execVbcastr (g : Guard) (d : TDst) (a b : TSrc) (mk : Option MReg) (s : State) : Out :=
  s.tileOp g d mk [a, b] .bcastr

/-! ## Reductions, scans and bits (R160 to R163) -/

/-- VRED (R160). -/
def execVred (g : Guard) (d : TDst) (a : TSrc) (op : RedOp) (row : Bool) (ty : ElemTy) (rs : RSel) (sat : Bool)
    (mk : Option MReg) (s : State) : Out :=
  s.tileOp g d mk [a] (.red op row ty (s.rm rs) sat)

/-- VSCAN (R160). -/
def execVscan (g : Guard) (d : TDst) (a : TSrc) (op : RedOp) (row : Bool) (ty : ElemTy) (rs : RSel) (sat : Bool)
    (mk : Option MReg) (s : State) : Out :=
  s.tileOp g d mk [a] (.scan op row ty (s.rm rs) sat)

/-- VPXOR (R161). -/
def execVpxor (g : Guard) (d : TDst) (a : TSrc) (tile : Bool) (ty : ElemTy) (mk : Option MReg) (s : State) : Out :=
  s.tileOp g d mk [a] (.pxor tile ty)

/-- VCLMUL (R162). -/
def execVclmul (g : Guard) (d : TDst) (a b : TSrc) (hi : Bool) (mk : Option MReg) (s : State) : Out :=
  s.tileOp g d mk [a, b] (.clmul hi)

/-- VPOPC (R163). -/
def execVpopc (g : Guard) (d : TDst) (a : TSrc) (ty : ElemTy) (mk : Option MReg) (s : State) : Out :=
  s.tileOp g d mk [a] (.popc ty)

/-- VCLZ (R163). -/
def execVclz (g : Guard) (d : TDst) (a : TSrc) (ty : ElemTy) (mk : Option MReg) (s : State) : Out :=
  s.tileOp g d mk [a] (.clz ty)

/-! ## Permutations (R164) -/

/-- VPERM (R164). -/
def execVperm (g : Guard) (d : TDst) (a b : TSrc) (ty : ElemTy) (mk : Option MReg) (s : State) : Out :=
  s.tileOp g d mk [a, b] (.perm ty)

/-- VSHUF (R164). -/
def execVshuf (g : Guard) (d : TDst) (a b : TSrc) (mk : Option MReg) (s : State) : Out := s.tileOp g d mk [a, b] .shuf

/-- VTRN (R164). -/
def execVtrn (g : Guard) (d : TDst) (a : TSrc) (ty : ElemTy) (mk : Option MReg) (s : State) : Out :=
  s.tileOp g d mk [a] (.trn ty)

/-- VCOMP (R164). -/
def execVcomp (g : Guard) (d : TDst) (a b : TSrc) (ty : ElemTy) (mk : Option MReg) (s : State) : Out :=
  s.tileOp g d mk [a, b] (.comp ty)

/-! ## Planes and the optimiser (R207 to R210) -/

/-- NPACK (R207). -/
def execNpack (g : Guard) (d : TDst) (a : TSrc) (mk : Option MReg) (s : State) : Out := s.tileOp g d mk [a] .npack

/-- NUNPK (R207). -/
def execNunpk (g : Guard) (d : TDst) (a : TSrc) (mk : Option MReg) (s : State) : Out := s.tileOp g d mk [a] .nunpk

/-- NRND (R208). -/
def execNrnd (g : Guard) (d : TDst) (a : TSrc) (fn : RndFn) (ty : ElemTy) (rs : RSel) (sat : Bool)
    (mk : Option MReg) (s : State) : Out :=
  s.tileOp g d mk [a] (.nrnd fn ty (s.rm rs) sat)

/-- NMOM (R209): the scalar is read at issue. -/
def execNmom (g : Guard) (d : TDst) (a b : TSrc) (c : SReg) (ty : ElemTy) (rs : RSel) (sat : Bool)
    (mk : Option MReg) (s : State) : Out :=
  s.tileOp g d mk [a, b] (.nmom ((s.rs c).setWidth 32) ty (s.rm rs) sat)

/-- NUPD in either form (R210, R211): it waits for earlier ones that name the same mask register. -/
def State.nupdIssue (s : State) (g : Guard) (d : TDst) (a b : TSrc) (c : SReg) (ty : ElemTy)
    (cm : Bool) (k : MReg) : Out :=
  s.tileOp g d (some k) [a, b] (.nupd ((s.rs c).setWidth 32) ty cm k)

/-- NUPD (R210): the new weights. -/
def execNupd (g : Guard) (d : TDst) (a b : TSrc) (c : SReg) (ty : ElemTy) (k : MReg) (s : State) : Out :=
  s.nupdIssue g d a b c ty false k

/-- NUPD.cm (R210): the carry mask as a tile. -/
def execNupdCm (g : Guard) (d : TDst) (a b : TSrc) (c : SReg) (ty : ElemTy) (k : MReg) (s : State) : Out :=
  s.nupdIssue g d a b c ty true k

end Sys2Proof.Machine
end

