-- ==== Sys2Proof/Machine/Matrix.lean ====
section
/-! DEFINITION. Matrix instructions, nests and accumulator moves (spec/08). -/

namespace Sys2Proof.Machine

/-! ## Latching (R170 to R173) -/

/-- The offsets of WLATCH are refused (R171). -/
def wlatchBad (fmt : WFmt) (w sc : Word) : Bool :=
  decide (2 ^ 20 ≤ w.toNat) || decide (2 ^ 20 ≤ sc.toNat) || w.toNat % 512 != 0 ||
    decide (0xFFFFF < w.toNat + 0xFFFF) || (fmt == .nf && decide (0xFFFFF < sc.toNat + 127))

/-- WLATCH (R172). -/
def execWlatch (g : Guard) (d : GDst) (a : GSrc) (ws ss : SReg) (fmt : WFmt) (np : BitVec 2) (rn : Bool)
    (s : State) : Out :=
  let c := s.cur.1
  let x := s.cur.2
  if !s.guard g then .next (s.nullWrite c x (.sig d.reg) d.rdr)
  else if wlatchBad fmt (s.rs ws) (s.rs ss) then .next s.trapReserved
  else
    let op : WlatchOp :=
      { races := [], off := (s.rs ws).toNat, soff := (s.rs ss).toNat, fmt := ⟨fmt, np, rn⟩, g := d.reg, rdr := d.rdr, pc := s.pc }
    .next (s.srcIssue c x [s.gsrc a] (.wlatch op))

/-- WCLR (R173): an entry of the array queue. -/
def execWclr (g : Guard) (s : State) : Out :=
  .next (if s.guard g then s.arrayEnter s.cur.1 s.cur.2 (.wclr s.pc) [] else s.adv)

/-! ## MMA (R174 to R179) -/

/-- MMA (R177). -/
def execMma (g : Guard) (d : ADst) (a : TSrc) (b : Option ASrc) (cs : Option TSrc) (ty : ElemTy) (band ksel : BitVec 2)
    (mk : Option MReg) (zs : Bool) (s : State) : Out :=
  let c := s.cur.1
  let x := s.cur.2
  let op : MmaOp :=
    { d := d.reg, rdr := d.rdr, ty := ty, band := band, ksel := ksel, mask := BitVec.allOnes 32, za := b.isNone,
      as := cs.isSome, zs := zs, x := 0, xp := 0, s := 0, sp := 0, b := 0, bp := 0, pc := s.pc }
  let srcs := [s.tsrc a] ++ (b.toList.map s.asrc) ++ (cs.toList.map s.tsrc)
  .next (if s.guard g then s.maskPhase c x srcs (.mma op) mk else s.nullWrite c x (.acc d.reg) d.rdr)

/-! ## Accumulator port (R180) -/

/-- AMOV to a tile (Table 8.3). -/
def execAmovToTile (g : Guard) (d : TDst) (a : ASrc) (q j : BitVec 2) (mk : Option MReg) (s : State) : Out :=
  s.vecIssue g (.tile d.reg) d.rdr mk [s.asrc a] (.amovToTile q j)

/-- AMOV to an accumulator (Table 8.3). -/
def execAmovToAcc (g : Guard) (d : ADst) (a : TSrc) (q j : BitVec 2) (mk : Option MReg) (s : State) : Out :=
  s.vecIssue g (.acc d.reg) d.rdr mk [s.tsrc a] (.amovToAcc q j)

/-- AZERO (Table 8.3). -/
def execAzero (g : Guard) (d : ADst) (s : State) : Out := s.vecIssue g (.acc d.reg) d.rdr none [] .azero

/-- AADD (Table 8.3). -/
def execAadd (g : Guard) (d : ADst) (a b : ASrc) (ty : ElemTy) (rs : RSel) (sat : Bool) (s : State) : Out :=
  s.vecIssue g (.acc d.reg) d.rdr none [s.asrc a, s.asrc b] (.aadd ty (s.rm rs) sat)

/-! ## Nests (R182 to R188) -/

/-- The state with the staging set of the issuing core changed. -/
def State.modNest (s : State) (f : NestSet → NestSet) : State :=
  s.modCore s.cur.1 fun k => { k with nestSet := f k.nestSet }

/-- NSETL (R182). -/
def execNsetl (g : Guard) (l : Fin 6) (a b cs : SReg) (s : State) : Out :=
  let p := s.rs cs
  let lv : NestLevel :=
    { n := (s.rs a).setWidth 32, sa := s.rs b, sw := p.extractLsb' 0 32, so := p.extractLsb' 32 32 }
  s.doing g (s.modNest fun n => { n with lv := n.lv.set l.val lv })

/-- A field of the staging set from a scalar (R182). -/
def NestSet.setField (n : NestSet) (f : Fin 6) (v : Word) : NestSet :=
  match f with
  | 0 => { n with xa := v.setWidth 51 }
  | 1 => { n with xo := v.setWidth 51 }
  | 2 => { n with orow := v.setWidth 32 }
  | 3 => { n with wo := v.extractLsb' 0 20, sc := v.extractLsb' 20 20 }
  | 4 => { n with cfg := v.setWidth 22 }
  | 5 => { n with start := v.setWidth 32 }

/-- NSETB (R182). -/
def execNsetb (g : Guard) (f : Fin 6) (a : SReg) (s : State) : Out := s.doing g (s.modNest fun n => n.setField f (s.rs a))

/-- The entry is a nest. -/
def AQEntry.isNest : AQEntry → Bool
  | .nest _ => true
  | _ => false

/-- Codes of latched formats (R170). -/
def wfmtCode : WFmt → Nat
  | .int8 => 0
  | .int4 => 1
  | .i4x => 2
  | .nf => 3
  | .fp64 => 4

/-- Groups completed by the running nest, or by the last one (R188). -/
def Core.nestGroups (k : Core) : Nat :=
  match k.aq with
  | .nest r :: _ => r.grp
  | _ => k.ngrp

/-- NSTAT selector 0 (R188). -/
def Core.nstat (k : Core) : Word :=
  let running := match k.aq with
    | e :: _ => e.isNest
    | [] => false
  let queued := (k.aq.drop 1).any AQEntry.isNest
  let (fmt, np, rn, fin) := match k.latch with
    | some l => (BitVec.ofNat 4 (wfmtCode l.fmt + 1), l.np, l.rn, l.fin)
    | none => (0, 0, false, false)
  (0 : BitVec 16) ++ BitVec.ofNat 32 k.nestGroups ++ (0 : BitVec 1) ++ bit1 k.npck ++ BitVec.ofNat 3 k.aq.length ++
    bit1 fin ++ bit1 rn ++ np ++ fmt ++ bit1 k.latch.isSome ++ bit1 queued ++ bit1 running

/-- NSTAT selector 1 (R188). -/
def Core.nstatFault (k : Core) : Word :=
  match k.nfault with
  | some f => bit1 f.store ++ f.cause ++ (0 : BitVec 5) ++ f.va
  | none => 0

/-- NSTAT (R188): selector 0 clears PCK. -/
def execNstat (g : Guard) (d : SReg) (sel : Bool) (s : State) : Out :=
  if sel then s.setS g d s.curCore.nstatFault
  else s.doing g ((s.modCore s.cur.1 fun k => { k with npck := false }).ws d s.curCore.nstat)

/-- NGO (R184, R187): the set is validated before any wait; where both sub-codes apply, 4 is raised. -/
def execNgo (g : Guard) (d : GDst) (o : OrdScp) (s : State) : Out :=
  let c := s.cur.1
  let x := s.cur.2
  let n := s.curCore.nestSet
  .next (if !s.guard g then s.nullWrite c x (.sig d.reg) d.rdr
    else if !n.offsetsOk then s.trap Cause.matrixState 4
    else if !n.formOk then s.trap Cause.matrixState 5
    else s.dstPhase c x (.sig d.reg) d.rdr [] (.nest o))

/-! ## The array executes its entries (R168, R169) -/

/-- Bytes of a column's block that a format reads (R171). -/
def columnBytes (f : LatchFmt) : Nat :=
  match f.fmt with
  | .fp64 => 512
  | .nf => 128 * (f.np.toNat + 1 + (if f.rn then 1 else 0))
  | _ => 128

/-- A byte that a latch reads is poisoned (R172). -/
def Core.latchBad (k : Core) (f : LatchFmt) (off soff : Nat) : Bool :=
  ((List.range 128).any fun c => k.wbuf.badRange (off + 512 * c) (columnBytes f)) ||
    (f.fmt == .nf && k.wbuf.badRange soff 128)

/-- Bytes from an offset of the weight buffer, those inside some runs unpredictable (R48). -/
def racedBytes (runs : List (Nat × Nat)) (n off : Nat) (bs : List Byte) : List Byte :=
  if runs.isEmpty then bs
  else bs.mapIdx fun i b =>
    if runs.any fun r => decide (r.1 ≤ off + i) && decide (off + i < r.1 + r.2) then Config.freeByte (n + i) else b

/-- Latch from the weight buffer (R171, R172): weights and scales inside the runs of a PWLD that is not ordered before the latch
are unpredictable (R48). -/
def Core.latchAt (k : Core) (races : List (Nat × Nat)) (f : LatchFmt) (off soff n : Nat) : Latch :=
  latchFrom f off (racedBytes races n off (k.wbuf.bytes.readRange off 0x10000))
    (racedBytes races (n + 0x10000) soff (k.wbuf.bytes.readRange soff 128))

/-- What a WLATCH latches (R172). -/
def Core.latchOf (k : Core) (w : WlatchOp) (n : Nat) : Latch := k.latchAt w.races w.fmt w.off w.soff n

/-- The head of the array queue. -/
def Core.arrayHead (k : Core) : Option AQEntry := k.aq.head?

/-- The array queue without its head. -/
def Core.arrayPop (k : Core) : Core := { k with aq := k.aq.drop 1 }

/-- The status of an engine error (R172, R185, Table 10.2). -/
def EngineErr.status : EngineErr → Nat
  | .none => 0x00
  | .uncorrectable => 0x10
  | .mismatch => 0x20

/-- A granule of the weight buffer that a latch reads meets an uncorrectable error and becomes poisoned, with its record
(R401): which one is free. -/
def State.wbufError (s : State) (c : CoreId) (off : Nat) (pc : VAddr) : State :=
  let g := off / 64 + (Config.freeWord s.fresh).toNat % 1024
  ((s.modCore c fun k => { k with wbuf := k.wbuf.mark g true }).coreRecord 6 c (64 * g) pc 0).useFresh

/-- WLATCH_COMPLETE (R172): weights are latched, or the latch is empty after an error, and the completion word is
written; what it read and the error have their records (R401, R408). -/
def execWlatchComplete (c : CoreId) (err : EngineErr) (s : State) : Out :=
  s.onCore c fun s =>
    match (s.core c).arrayHead with
    | some (.wlatch w) =>
      let k := s.core c
      let status := if err != .none then EngineErr.status err
        else if k.latchBad w.fmt w.off w.soff then 0x11 else 0x00
      let ok := status == 0
      let s := if err == .mismatch then s.mismatch c .array w.pc
        else if err == .uncorrectable then s.wbufError c w.off w.pc
        else if ok then s
        else s.coreRecord 3 c 0 w.pc 0
      let s' := s.modCore c fun k =>
        (({ k with latch := if ok then some (k.latchOf w s.fresh) else none }).arrayPop).completeWrite
          (.sig w.g) w.rdr (.sig (completionWord status (if ok then 128 else 0)))
      { s' with fresh := s'.fresh + 0x10080 }
    | _ => s

/-- WCLR_EXECUTE (R173). -/
def execWclrExecute (c : CoreId) (s : State) : Out :=
  s.onCore c fun s =>
    match (s.core c).arrayHead with
    | some (.wclr _) => s.modCore c fun k => { k.arrayPop with latch := none }
    | _ => s

/-- MMA_COMPLETE (R177, R179). -/
def execMmaComplete (c : CoreId) (mismatch : Bool) (s : State) : Out :=
  s.onCore c fun s =>
    match (s.core c).arrayHead with
    | some (.mma m) =>
      let k := s.core c
      let d := if mismatch then mmaPoison m (some (Config.freeAcc s.fresh))
        else match k.latch with
          | some l => mmaWrite m l
          | none => mmaPoison m none
      let s := if mismatch then s.useFresh.mismatch c .array m.pc else s
      s.modCore c fun k =>
        { k.arrayPop with npck := k.npck || mismatch }.completeWrite (.acc m.d) m.rdr d
    | _ => s

/-! ### Groups of a nest (R183, R185) -/

/-- Why a nest stops before a group is stored: an address cause, or poison with its physical address, 0 in the weight
buffer. -/
inductive NestStop where
  | fault (f : NestFault)
  | poison (pa : Nat)
  | wait
deriving DecidableEq, Repr

/-- A nest's access to a unit of n bytes (R58, R183). -/
def State.nestAcc (s : State) (c : CoreId) (kind : AccKind) (n align : Nat) : UnitAcc :=
  { c := c, x := { (s.core c).ctx .ctrl kind with sup := false }, size := n, align := align, planed := false,
    engine := true, u64 := false }

/-- The place of one unit of a nest, or why it stops. -/
def State.nestUnit (s : State) (c : CoreId) (kind : AccKind) (n align : Nat) (va : VAddr) : Except NestStop MemUnit :=
  match s.checkUnit (s.nestAcc c kind n align) va with
  | .ok l => .ok ⟨va, l⟩
  | .miss _ => .error .wait
  | .pri _ => .error .wait
  | .fault cause ea => .error (.fault ⟨ea, cause, kind == .write⟩)
  | .poison _ pa => .error (.poison pa)

/-- The places of several units, in order. -/
def State.nestUnits (s : State) (c : CoreId) (kind : AccKind) (n align : Nat) : List VAddr → Except NestStop (List MemUnit)
  | [] => .ok []
  | va :: rest => do
    let u ← s.nestUnit c kind n align va
    let us ← s.nestUnits c kind n align rest
    pure (u :: us)

/-- What a nest carries from step to step: the latch, the band and the poison of its 32 rows. -/
structure NestAcc where
  latch : Option Latch
  band : Nat
  poison : BitVec 32
deriving DecidableEq, Repr

/-- The addresses of the activation rows of a step. -/
def NestSet.stepVas (n : NestSet) (k : Nat) : List VAddr :=
  (List.range 32).map fun r => n.stepXa k + BitVec.ofNat 51 (128 * r)

/-- One step of a group: latch if nothing is latched or the offset differs, read the activation tile, accumulate (R183).
A latch of a step reads the weight buffer as a WLATCH does, so that a PWLD not ordered before the nest leaves it free (R48).
Weights that were latched at that offset in a format Table 8.1 does not pair with TYPE leave a band for which the spec states
no value (assumption log 7). -/
def State.nestStep (s : State) (c : CoreId) (races : List (Nat × Nat)) (n : NestSet) (t : ElemTy) (f : WFmt) (p : Pairing) (a : NestAcc) (k : Nat) :
    Except NestStop NestAcc := do
  let wo := n.stepWo k
  let fmt : LatchFmt := ⟨f, n.np, n.rn⟩
  let off := wo.toNat
  let keep := match a.latch with
    | some l => l.off == off
    | none => false
  if !keep && (s.core c).latchBad fmt off (n.scaleOff wo).toNat then .error (.poison 0)
  let fresh := (s.core c).latchAt races fmt off (n.scaleOff wo).toNat (s.fresh + 0x10080 * k)
  let latch := match a.latch with
    | some l => if keep then l else fresh
    | none => fresh
  let us ← s.nestUnits c .read 128 128 (n.stepVas k)
  let x := { s with fresh := s.fresh + k }.loadTile c us
  let band := match pairing t latch.fmt with
    | some q => bandMac t q latch 0 (BitVec.allOnes 32) x.1.toNat none a.band
    | none => (Config.unpairedBand latch.w latch.sw latch.fmt.code.toNat n.ty.toNat x.1 a.band).toNat % 2 ^ (32 * viewRow p.wide)
  pure { latch := some latch, band := band,
         poison := a.poison ||| x.2 }

/-- The steps of a group in order. -/
def State.nestSteps (s : State) (c : CoreId) (races : List (Nat × Nat)) (n : NestSet) (t : ElemTy) (f : WFmt) (p : Pairing) :
    NestAcc → List Nat → Except NestStop NestAcc
  | a, [] => .ok a
  | a, k :: rest => do
    let a ← s.nestStep c races n t f p a k
    s.nestSteps c races n t f p a rest

/-- Address of band row r of a group's output. -/
def NestSet.rowVa (n : NestSet) (g r : Nat) : VAddr := n.groupXo g + BitVec.ofNat 51 (r * n.orow.toNat)

/-- A row of a group's output as aligned units of 128 bytes (R58: the alignment of TST). -/
def NestSet.rowUnits (n : NestSet) (p : Pairing) (g r : Nat) : List VAddr :=
  (List.range (n.outBytes p)).map fun i => n.rowVa g r + BitVec.ofNat 51 (128 * i)

/-- The state after a group's rows are stored. -/
def State.nestStore (s : State) (c : CoreId) (n : NestSet) (p : Pairing) (a : NestAcc) (rows : List (List MemUnit)) : State :=
  rows.zipIdx.foldl (fun s row =>
    let bytes := n.outRow p (fieldOf (viewRow p.wide) a.band row.2)
    row.1.zipIdx.foldl (fun s u =>
      s.writeLoc c (s.corePart c) u.1.loc ((bytes.drop (128 * u.2)).take 128) (a.poison.getLsbD row.2)) s) s

/-- The places of the rows of a group, in order. -/
def State.nestRows (s : State) (c : CoreId) (n : NestSet) (p : Pairing) (g : Nat) : List Nat → Except NestStop (List (List MemUnit))
  | [] => .ok []
  | r :: rest => do
    let us ← s.nestUnits c .write 128 128 (n.rowUnits p g r)
    let rs ← s.nestRows c n p g rest
    pure (us :: rs)

/-- An access of a nest as it sets out: none where its address is misaligned. -/
def State.nestAttempt (s : State) (c : CoreId) (kind : AccKind) (va : VAddr) : List Attempt :=
  match s.nestUnit c kind 128 128 va with
  | .ok u => [⟨kind, va, [(0, 128)], some u.loc⟩]
  | .error _ => if va.toNat % 128 != 0 then [] else [⟨kind, va, [(0, 128)], none⟩]

/-- What the steps of a group read, in order, from a latch at an offset, and whether all of it can be read (R183). -/
def State.nestReads (s : State) (c : CoreId) (n : NestSet) (f : WFmt) : Option Nat → List Nat → List Attempt × Bool
  | _, [] => ([], true)
  | latched, k :: rest =>
    let wo := n.stepWo k
    if latched != some wo.toNat && (s.core c).latchBad ⟨f, n.np, n.rn⟩ wo.toNat (n.scaleOff wo).toNat then ([], false)
    else
      let rows := (n.stepVas k).map (s.nestAttempt c .read)
      if rows.all fun a => a.any (·.made.isSome) then
        let (as, ok) := s.nestReads c n f (some wo.toNat) rest
        (rows.flatten ++ as, ok)
      else ((rows.takeWhile fun a => a.any (·.made.isSome)).flatten ++
        ((rows.find? fun a => !a.any (·.made.isSome)).getD []), false)

/-- What the next group of a nest sets out to read, and then to store where all of it can be read and stored (R183, R185). -/
def State.groupAttempts (s : State) (c : CoreId) (r : NestRec) (f : WFmt) (p : Pairing) : List Attempt :=
  let n := r.set
  let (reads, ok) := s.nestReads c n f ((s.core c).latch.map (·.off))
    ((List.range n.groupSteps).map (r.grp * n.groupSteps + ·))
  if !ok then reads
  else
    let stores := (List.range 32).flatMap fun i => (n.rowUnits p r.grp i).map (s.nestAttempt c .write)
    if stores.all fun a => a.any (·.made.isSome) then reads ++ stores.flatten
    else reads ++ ((stores.takeWhile fun a => a.any (·.made.isSome)).flatten ++
      ((stores.find? fun a => !a.any (·.made.isSome)).getD [])).map fun a => { a with made := none }

/-- One group of a nest: every read, then every store; nothing of the group is stored when any of it stops. -/
def State.nestGroup (s : State) (c : CoreId) (r : NestRec) : Except NestStop State := do
  match r.set.pair with
  | none => .error (.poison 0)
  | some (t, f, p) =>
    let n := r.set
    let steps := (List.range n.groupSteps).map (r.grp * n.groupSteps + ·)
    let a ← s.nestSteps c r.races n t f p ⟨(s.core c).latch, 0, 0⟩ steps
    let rows ← s.nestRows c n p r.grp (List.range 32)
    match (rows.zipIdx.filter fun row => a.poison.getLsbD row.2).findSome? fun row => row.1.find? fun u => u.loc.isHost with
    | some u => .error (.poison u.loc.addr)
    | none =>
    let s := s.nestStore c n p a rows
    let next : AQEntry := .nest { r with grp := r.grp + 1 }
    let band := match bandWrite p.wide n.band (BitVec.allOnes 32) a.band fun i => a.poison.getLsbD i with
      | .acc v m pv pm => (v, m, pv, pm)
      | _ => (0, 0, 0, 0)
    let s := { s with fresh := s.fresh + 0x10080 * ((r.grp + 1) * n.groupSteps) }
    pure (s.modCore c fun k =>
      let b := match k.nestBand with
        | some d => d
        | none => 0
      { k with latch := a.latch, aq := next :: k.aq.drop 1, ngrp := r.grp + 1,
               nestBand := some (mergeBits b band.1 band.2.1), nestPoison := band.2.2.1 })

/-- The nest at the head of the array queue with groups left to run. -/
def Core.nestHead (k : Core) : Option NestRec :=
  match k.arrayHead with
  | some (.nest r) => some r
  | _ => none

/-- NEST_GROUP_COMPLETE (R183): the next group of the running nest, after what CTRL stored before it. -/
def execNestGroupComplete (c : CoreId) (s : State) : Out :=
  s.onCore c fun s =>
    match (s.core c).nestHead with
    | none => s
    | some r =>
      if r.grp < r.set.groups && !(s.core c).ctrl.hard then
        match (s.releaseOn c .ctrl).nestGroup c r with
        | .ok s' => s'
        | .error _ => s
      else s

/-- The write of a nest on its accumulator: the band of the last group, or an unpredictable band (R184, R185). R185 says only
that the band is unpredictable after a status other than OK: its rows keep the poison they had (assumption log 28). -/
def nestWrite (k : Core) (n : NestSet) (ok : Bool) (free : BitVec 524288) : WriteData :=
  let wide := match n.pair with
    | some (_, _, p) => p.wide
    | none => false
  match bandWrite wide n.band (BitVec.allOnes 32) 0 fun _ => false with
  | .acc _ m _ pm =>
    if ok then match k.nestBand with
      | some b => .acc b m k.nestPoison pm
      | none => .count
    else .acc free m 0 0
  | d => d

/-- A nest ends with a status (R184 to R186): one step for both registers, and the latch is empty. Its release comes before
that (R227, R228), also where the nest had no group to run. -/
def State.nestEnd (s : State) (c : CoreId) (r : NestRec) (status : Nat) (f : Option NestFault) : State :=
  let s := if releases r.o then s.releaseOn c .ctrl else s
  let s := if status == 0x20 then s.mismatch c .array r.pc else s
  (s.modCore c fun k =>
    let d := nestWrite k r.set (status == 0) (Config.freeAcc s.fresh)
    let k := { k.arrayPop with latch := none, nestBand := none, nestPoison := 0, ngrp := r.grp,
                               nfault := match f with
                                         | some f => some f
                                         | none => k.nfault }
    (k.completeWrite (.acc r.set.acc) 7 d).completeWrite (.sig r.g) r.rdr (.sig (completionWord status r.grp))).useFresh

/-- An uncorrectable error that the next step of a nest meets poisons what it met, with its record (R401): a row of the
activations, or a granule of the weight buffer; which one is free. -/
def State.nestError (s : State) (c : CoreId) (r : NestRec) : State :=
  let k := r.grp * r.set.groupSteps
  let w := (Config.freeWord s.fresh).toNat
  let s' := s.useFresh
  match s'.nestUnit c .read 128 128 (r.set.stepXa k + BitVec.ofNat 51 (128 * (w / 2 % 32))) with
  | .ok u => if w % 2 == 0 then s'.locError c r.pc u.loc else s'.wbufError c (r.set.stepWo k).toNat r.pc
  | .error _ => s'.wbufError c (r.set.stepWo k).toNat r.pc

/-- NEST_COMPLETE (R184 to R186): every group has run, the next one meets a fault, poison or an error, or the hard stop
ends the nest at a group boundary. -/
def execNestComplete (c : CoreId) (err : EngineErr) (s : State) : Out :=
  s.onCore c fun s =>
    match (s.core c).nestHead with
    | none => s
    | some r =>
      if err == .uncorrectable then (if r.set.groups ≤ r.grp then s else (s.nestError c r).nestEnd c r 0x10 none)
      else if err == .mismatch then s.nestEnd c r 0x20 none
      else if (s.core c).ctrl.hard then s.nestEnd c r 0x02 none
      else if r.set.groups ≤ r.grp then s.nestEnd c r 0x00 none
      else match (s.releaseOn c .ctrl).nestGroup c r with
        | .ok _ => s
        | .error .wait => s
        | .error (.poison pa) => ((s.releaseOn c .ctrl).coreRecord 3 c pa r.pc 0).nestEnd c r 0x11 none
        | .error (.fault f) => ((s.releaseOn c .ctrl).dropAnswers c f.cause).nestEnd c r 0x01 (some f)

/-- ARRAY_QUEUE_ROOM (R168): an instruction held before the full array queue enters it, EXEC's before an NGO. -/
def execArrayQueueRoom (c : CoreId) (x : StreamId) (s : State) : Out :=
  s.onCore c fun s =>
    match (s.stream c x).pend with
    | .array e debits => if (s.core c).arrayRoom x then s.arrayEnter c x e debits else s
    | _ => s

end Sys2Proof.Machine
end

