-- ==== Sys2Proof/Machine/Pump.lean ====
section
/-! DEFINITION. Pumps: issue of commands, units, completion words, parking and resuming (spec/10 R214 to R228). -/

namespace Sys2Proof.Machine

/-! ## Issue (R215, R217) -/

/-- A pump command of the issuing stream: guarded false, the write of R29; a limit of Table 10.1 broken,
RESERVED_FIELD; else the wait for gD and an entry. -/
def State.pumpIssue (s : State) (g : Guard) (d : GDst) (cmd : PumpCmd) (bad : Bool) : Out :=
  let c := s.cur.1
  let x := s.cur.2
  .next (if !s.guard g then s.nullWrite c x (.sig d.reg) d.rdr
    else if bad then s.trapReserved
    else s.dstPhase c x (.sig d.reg) d.rdr [] (.pump cmd))

/-- The command of the issuing stream with its scalar operands. -/
def State.pumpCmd (s : State) (kind : PumpKind) (d : GDst) (o : OrdScp) (a b c e : Word) (esz : Nat) (iw scl : Bool) : PumpCmd :=
  { kind := kind, a := a, b := b, c := c, e := e, esz := esz, iw := iw, scl := scl, g := d.reg, rdr := d.rdr, o := o,
    x := s.cur.2, pc := s.pc, start := 0 }

/-- A byte count is refused: not a multiple of the element size, or 2^32 elements or more. -/
def countBad (n : Word) (esz : Nat) : Bool := n.toNat % 2 ^ esz != 0 || decide (2 ^ 32 ≤ n.toNat / 2 ^ esz)

/-- PCOPY (Table 10.1). -/
def execPcopy (g : Guard) (d : GDst) (o : OrdScp) (a b cs : SReg) (esz : BitVec 3) (s : State) : Out :=
  s.pumpIssue g d (s.pumpCmd .pcopy d o (s.rs a) (s.rs b) (s.rs cs) 0 esz.toNat false false)
    (decide (6 < esz.toNat) || countBad (s.rs cs) esz.toNat)

/-- PGATH (Table 10.1). -/
def execPgath (g : Guard) (d : GDst) (o : OrdScp) (a b cs e : SReg) (esz : BitVec 3) (iw : Bool) (s : State) : Out :=
  s.pumpIssue g d (s.pumpCmd .pgath d o (s.rs a) (s.rs b) (s.rs cs) (s.rs e) esz.toNat iw false)
    (decide (6 < esz.toNat) || decide (2 ^ 32 ≤ (s.rs e).toNat))

/-- PSCAT (Table 10.1). -/
def execPscat (g : Guard) (d : GDst) (o : OrdScp) (a b cs e : SReg) (esz : BitVec 3) (iw : Bool) (s : State) : Out :=
  s.pumpIssue g d (s.pumpCmd .pscat d o (s.rs a) (s.rs b) (s.rs cs) (s.rs e) esz.toNat iw false)
    (decide (6 < esz.toNat) || decide (2 ^ 32 ≤ (s.rs e).toNat))

/-- PFILL (Table 10.1). -/
def execPfill (g : Guard) (d : GDst) (o : OrdScp) (a b cs : SReg) (esz : BitVec 3) (s : State) : Out :=
  s.pumpIssue g d (s.pumpCmd .pfill d o (s.rs a) (s.rs b) (s.rs cs) 0 esz.toNat false false)
    (decide (3 < esz.toNat) || countBad (s.rs cs) esz.toNat)

/-- The limits of PWLD (Table 10.1, R47). -/
def pwldBad (a n : Word) (scl : Bool) : Bool :=
  a.extractLsb' 40 24 != 0 || decide (n.toNat < 1) || decide (2048 < n.toNat) || pwldOff a % 512 != 0 ||
    decide (0x100000 < pwldOff a + 512 * n.toNat) || (scl && decide (0x100000 < pwldScale a + n.toNat))

/-- PWLD (Table 10.1, R218). -/
def execPwld (g : Guard) (d : GDst) (o : OrdScp) (a b cs : SReg) (scl : Option SReg) (s : State) : Out :=
  let e := (scl.map s.rs).getD 0
  s.pumpIssue g d (s.pumpCmd .pwld d o (s.rs a) (s.rs b) (s.rs cs) e 9 false scl.isSome)
    (pwldBad (s.rs a) (s.rs cs) scl.isSome)

/-- PREM (Table 10.1, R220). -/
def execPrem (g : Guard) (d : GDst) (o : OrdScp) (a b cs e : SReg) (esz : BitVec 3) (s : State) : Out :=
  s.pumpIssue g d (s.pumpCmd .prem d o (s.rs a) (s.rs b) (s.rs cs) (s.rs e) esz.toNat false false)
    (decide (6 < esz.toNat) || countBad (s.rs cs) esz.toNat || (s.rs e).extractLsb' 16 48 != 0)

/-- PRESUME and PCANCEL: a command must be parked on gD at issue, and again when the wait ends (R224, R225). -/
def State.parkedIssue (s : State) (g : Guard) (d : GDst) (op : DstOp) : Out :=
  let c := s.cur.1
  let x := s.cur.2
  .next (if !s.guard g then s.nullWrite c x (.sig d.reg) d.rdr
    else if (s.curCore.parkedOn d.reg).isNone then s.trap Cause.pumpQueueError 1
    else s.dstPhase c x (.sig d.reg) d.rdr [] op)

/-- PRESUME (R224). -/
def execPresume (g : Guard) (d : GDst) (s : State) : Out := s.parkedIssue g d .presume

/-- PCANCEL (R225). -/
def execPcancel (g : Guard) (d : GDst) (s : State) : Out := s.parkedIssue g d .pcancel

/-! ## PQSTAT (R226) -/

/-- The pump runs a command. -/
def Pump.busy : Pump → Bool
  | .running _ _ _ => true
  | _ => false

/-- The completion register of a parked command. -/
def Pump.parkedG : Pump → Option GReg
  | .parked m _ _ _ _ => some m.g
  | _ => none

/-- The fault record of a parked command. -/
def Pump.faultWord : Pump → Word
  | .parked _ _ va cause write => bit1 write ++ cause ++ (0 : BitVec 5) ++ va
  | _ => 0

/-- PQSTAT by selector (R226). -/
def Core.pqstat (k : Core) (sel : Fin 3) : Word :=
  match sel with
  | 0 =>
    (0 : BitVec 38) ++ k.pump1.parkedG.getD 0 ++ k.pump0.parkedG.getD 0 ++ (0 : BitVec 2) ++
      bit1 k.pump1.parkedG.isSome ++ bit1 k.pump0.parkedG.isSome ++ bit1 k.pump1.busy ++ bit1 k.pump0.busy ++
      k.pqlim ++ BitVec.ofNat 5 k.pumpUsed
  | 1 => k.pump0.faultWord
  | 2 => k.pump1.faultWord

/-- PQSTAT (R226). -/
def execPqstat (g : Guard) (d : SReg) (sel : Fin 3) (s : State) : Out := s.setS g d (s.curCore.pqstat sel)

/-- PUMP_QUEUE_ROOM (R215): a stream held only by the full pump queue appends its command, after those of lower code that
can. -/
def execPumpQueueRoom (c : CoreId) (x : StreamId) (s : State) : Out :=
  s.onCore c fun s =>
    match (s.stream c x).pend with
    | .dst r rdr debits op =>
      if op.needsEntry && (s.stream c x).st == .otherWait && (s.core c).pumpRoom then s.dstPhase c x r rdr debits op else s
    | _ => s

/-! ## Units (R216 to R220) -/

/-- The 64-byte granules of a payload at a checked place that hold a byte of a poisoned granule: each is sent with its poison flag
(R378, R403). -/
def State.payloadPoison (s : State) (c : CoreId) (l : Loc) (n : Nat) : BitVec 64 :=
  BitVec.ofNat 64 (((List.range ((n + 63) / 64)).filter fun g =>
    (s.readLoc c (s.corePart c) (l.plus (64 * g)) (min 64 (n - 64 * g))).2).map (2 ^ ·)).sum

/-- Unit j of a PREM is sent: the state with its packet outstanding, and the packet's number (R220). The destination's
alignment is the pump's to check (R217); its translation is the target's. A poisoned source is sent with its flags; the command
ends at that unit once it has been performed (R378, Table 26.3, assumption log 28). -/
def State.premSend (s : State) (c : CoreId) (second : Bool) (m : PumpCmd) (j : Nat) : Except PumpStop (State × BitVec 32) := do
  let l ← s.pumpLoc c .read m.size m.size false (m.srcVa j 0)
  if (m.dstVa j 0).toNat % m.size != 0 then .error (.park (m.dstVa j 0) Cause.misaligned true)
  let bs := (s.readLoc c (s.corePart c) l m.size).1
  match s.sendPacket c (m.e.setWidth 16) (releases m.o) (.pump c second)
    (.prem (m.dstVa j 0) m.size 0 bs (s.payloadPoison c l m.size)) with
  | .sent s' seq => .ok (s', seq)
  | .held => .error .wait
  | .lost => .error .lost

/-- A run of n virtual bytes, cut where 64-byte granules meet. -/
def granuleRuns (va : VAddr) (n : Nat) : List (VAddr × Nat) :=
  (PoisonMem.granules va.toNat n).map fun g =>
    let lo := max va.toNat (64 * g)
    (BitVec.ofNat 51 lo, min (va.toNat + n) (64 * g + 64) - lo)

/-- An access of a pump as it sets out: none where its address is misaligned, which is found before it is looked up. -/
def State.pumpAttempt (s : State) (c : CoreId) (kind : AccKind) (n align : Nat) (planed : Bool) (va : VAddr) : List Attempt :=
  match s.pumpLoc c kind n align planed va with
  | .ok l => [⟨kind, va, [(0, n)], some l⟩]
  | .error _ => if va.toNat % align != 0 then [] else [⟨kind, va, [(0, n)], none⟩]

/-- Attempts up to the first that is not made. -/
def untilBarred : List Attempt → List Attempt
  | [] => []
  | a :: rest => if a.made.isNone then [a] else a :: untilBarred rest

/-- What a pump sets out to do at the element of unit j of a command that is to be moved (R217): the source is checked, then the
destination, before either is made, and a poisoned source is not written; PREM writes at its target (R220). -/
def State.moveAttempts (s : State) (c : CoreId) (m : PumpCmd) (j idx : Nat) : List Attempt :=
  let src := if m.kind == .pfill then [] else s.pumpAttempt c .read m.size m.size false (m.srcVa j idx)
  let dst := if s.premRemote m then [] else s.pumpAttempt c .write m.size m.size false (m.dstVa j idx)
  let barred := fun (as : List Attempt) => as.map fun a => { a with made := none }
  if m.kind != .pfill && src.all (·.made.isNone) then src
  else if s.premRemote m then (if (m.dstVa j idx).toNat % m.size != 0 then barred src else src)
  else if dst.all (·.made.isNone) then barred src ++ dst
  else match s.copyUnit c m j with
    | .ok _ => src ++ dst
    | .error _ => src ++ barred dst

/-- What unit j of a command sets out to do, in order (R217, R218, R219): to read the scales before block 0, or a block, or an
index and then its element. -/
def State.unitAttempts (s : State) (c : CoreId) (m : PumpCmd) (j : Nat) : List Attempt :=
  if m.needsScales j then
    let va : VAddr := m.e.setWidth 51
    let n := m.c.toNat
    let p := (s.pumpCtx c .read).part
    if (pwldWindow va n).isSome || s.apertureAt p va.toNat != s.apertureAt p (va.toNat + n - 1) then []
    else untilBarred ((granuleRuns va n).flatMap fun r => s.pumpAttempt c .read r.2 1 false r.1)
  else if m.kind == .pwld then
    if (pwldWindow (addrPlus m.b (512 * j)) 512).isSome then [] else s.pumpAttempt c .read 512 512 true (addrPlus m.b (512 * j))
  else if m.indexed then
    let i := s.pumpAttempt c .read m.iwBytes m.iwBytes false (addrPlus m.c (m.iwBytes * j))
    match s.pumpIdx c m j with
    | .ok idx => i ++ s.moveAttempts c m j idx
    | .error _ => i
  else s.moveAttempts c m j 0

/-- The requests of some accesses of a command; a PREM unit to another device injects its payload, wherever it is read (R220). -/
def State.unitReqs (s : State) (c : CoreId) (m : PumpCmd) (as : List Attempt) : List Req :=
  (s.engineReqs c true as).map fun r =>
    if s.premRemote m && !r.miss && r.granules.isEmpty then { r with granules := List.replicate ((m.size + 63) / 64) none }
    else r

/-- Unit u of a running command performed on this device: its pump stands at the next one, or still before block 0 after
the scales (R218). -/
def State.oneUnit (s : State) (c : CoreId) (second : Bool) (m : PumpCmd) (u : Nat) : Except PumpStop State := do
  let (s', m') ← s.localUnit c m u
  if m.needsScales u then .ok (s'.modCore c fun k => k.setPump second (.running m' u none))
  else .ok ((s'.modCore c fun k => k.setPump second (.running m' (u + 1) none)).sketch 4 c m.pc 1)

/-- The next units of a running command that belong to one step, at most n, up to one that fails; nothing where one of them
has to wait, since a reader sees an aligned 8-byte unit old or new and never a mixture (R46). -/
def State.unitRun (s : State) (c : CoreId) (second : Bool) : Nat → Option State
  | 0 => some s
  | n + 1 =>
    match (s.core c).pump second with
    | .running m u none =>
      if m.units ≤ u then some s
      else match s.oneUnit c second m u with
        | .error .wait => none
        | .error _ => some s
        | .ok s' => if m.together u then s'.unitRun c second n else some s'
    | _ => some s

/-- What the next step of a running command sets out to do, with the units that belong to it, at most n, up to one that fails;
none where one of them has to wait. -/
def State.runAttempts (s : State) (c : CoreId) (second : Bool) : Nat → Option (List Attempt)
  | 0 => some []
  | n + 1 =>
    match (s.core c).pump second with
    | .running m u none =>
      if m.units ≤ u then some []
      else match s.oneUnit c second m u with
        | .error .wait => none
        | .error _ => some (s.unitAttempts c m u)
        | .ok s' =>
          if m.together u then (s'.runAttempts c second n).map (s.unitAttempts c m u ++ ·) else some (s.unitAttempts c m u)
    | _ => some []

/-- One step of a running command: the units that one step holds (R46), or the sending of one (R216, R220); a unit that
cannot be performed changes nothing. -/
def State.pumpUnit (s : State) (c : CoreId) (second : Bool) : State :=
  if (s.core c).gated then s
  else match (s.core c).pump second with
    | .running m u none =>
      if m.units ≤ u then s
      else if s.premRemote m then
        match s.premSend c second m u with
        | .ok (s', seq) =>
          s'.modCore c fun k => k.setPump second (.running m u (some (m.e.setWidth 16, seq)))
        | .error _ => s
      else (s.unitRun c second (m.units - u)).getD s
    | _ => s

/-- The pump performs every unit it can on this device. -/
def State.pumpRun (s : State) (c : CoreId) (second : Bool) : Nat → State
  | 0 => s
  | n + 1 =>
    match (s.core c).pump second with
    | .running m _ none => if s.premRemote m then s else (s.pumpUnit c second).pumpRun c second n
    | _ => s

/-- Every unit a running command can still perform here (R216), and the scales of a PWLD before them. -/
def State.pumpAhead (s : State) (c : CoreId) (second : Bool) : State :=
  match (s.core c).pump second with
  | .running m u _ => s.pumpRun c second (m.units - u + 1)
  | _ => s

/-- A payload carries poison. -/
def carriesPoison (b : PacketBody) : Bool :=
  match b with
  | .prem _ _ _ _ poison => poison != 0
  | .sem _ _ _ _ => false

/-- Why the next unit of a running command goes no further, if it does not; a unit sent with poison has been performed at its
target and is not counted. -/
def State.pumpStop (s : State) (c : CoreId) (second : Bool) (m : PumpCmd) (u : Nat) (sent : Option (BitVec 16 × BitVec 32)) :
    Option PumpStop :=
  if m.units ≤ u then none
  else match sent with
    | some (dev, seq) =>
      match s.fabric.outPkt dev seq with
      | none => some .lost
      | some o => match o.ack with
        | none => some .wait
        | some (.ok _) =>
          if carriesPoison o.full then some (.poison (match s.pumpLoc c .read m.size m.size false (m.srcVa u 0) with
            | .ok l => s.badAddr c l m.size
            | .error _ => 0))
          else some .wait
        | some (.reject cause) =>
          if cause == Cause.peerLost then some .lost
          else if cause == Cause.poisonConsumed then some (.poison 0)
          else some (.park (m.dstVa u 0) cause true)
    | none =>
      if s.premRemote m then
        match s.premSend c second m u with
        | .ok _ => some .wait
        | .error e => some e
      else match s.localUnit c m u with
        | .ok _ => some .wait
        | .error e => some e

/-! ## Ends of commands (R221 to R225) -/

/-- A pump ends its command with a status: completion word, count, pump free (R221). -/
def State.pumpEnd (s : State) (c : CoreId) (second : Bool) (m : PumpCmd) (status u : Nat) : State :=
  let s := if status == 0 then s else s.scramble c m u
  s.freePump c second fun k => (k.completeWrite (.sig m.g) m.rdr (.sig (completionWord status u))).land m

/-- The packet a pump has outstanding is no longer its: it stays outstanding until it is resolved (R382). -/
def State.dropSent (s : State) (sent : Option (BitVec 16 × BitVec 32)) : State :=
  match sent with
  | some (dev, seq) => s.leavePkt dev seq
  | none => s

/-- A free pump takes the oldest entry, after what the stream that issued it did before it (R216, R227). A command that
PRESUME has restarted follows what its own stream issued before, and nothing of the stream that issued PRESUME: R227 speaks
of the command's issuing stream, and whether PRESUME is an issue of the command is not said (assumption log 28). -/
def State.takeTo (s : State) (c : CoreId) (second : Bool) : State :=
  match (s.core c).pump second, (s.core c).pumpq with
  | .idle, m :: rest =>
    (s.releaseOn c m.x).modCore c fun k => { k with pumpq := rest }.setPump second (.running m m.start none)
  | _, _ => s

/-- PUMP_TAKE_COMMAND (R216, R367): a free pump takes the oldest entry; where both are free, pump 0 takes it and pump 1 the
next. A take leaves its place in the order of the cycle: no pump comes free after it in that tick, which could have been both
(assumption log 5). -/
def execPumpTakeCommand (c : CoreId) (pump : Bool) (s : State) : Out :=
  s.onCore c fun s =>
    let k := s.core c
    if k.pumpq.isEmpty || k.pump pump != .idle then s
    else (if k.pump0 == .idle && k.pump1 == .idle then (s.takeTo c false).takeTo c true else s.takeTo c pump).takeTurn (.take c) 1

/-- A pump's source meets an uncorrectable error: in memory or the cistern the command ends with UNCORRECTABLE, and what it met is
poisoned (R222, R401); a completion of host memory that PCI Express marks poisoned is read as a poisoned granule (Table 26.1). -/
def State.sourceError (s : State) (c : CoreId) (pump : Bool) (m : PumpCmd) (u : Nat) (l : Loc) : State :=
  if l.isHost then (s.coreRecord 3 c l.addr m.pc 0).pumpEnd c pump m 0x11 u
  else (s.locError c m.pc l).pumpEnd c pump m 0x10 u

/-- PUMP_COMMAND_END (R221, R222): every unit has been performed, or the next one meets poison, an error where it reads its
source, a checker mismatch, or an unreachable target. -/
def execPumpCommandEnd (c : CoreId) (pump : Bool) (err : EngineErr) (s : State) : Out :=
  s.onCore c fun s =>
    let s' := if err == .none then s.pumpAhead c pump else s
    match (s'.core c).pump pump with
    | .running m u sent =>
      match err with
      | .uncorrectable =>
        if m.units ≤ u || sent.isSome then s
        else match s'.unitSource c m u with
          | some l => if l.isMemory then s'.sourceError c pump m u l else s
          | none => s
      | .mismatch => ((s'.dropSent sent).mismatch c .pump m.pc).pumpEnd c pump m 0x20 u
      | .none =>
        if m.units ≤ u then s'.pumpEnd c pump m 0x00 u
        else match s'.pumpStop c pump m u sent with
          | some (.poison pa) => ((s'.dropSent sent).coreRecord 3 c pa m.pc 0).pumpEnd c pump m 0x11 u
          | some .lost => (s'.dropSent sent).pumpEnd c pump m 0x12 u
          | _ => s
    | _ => s

/-- PUMP_PARK (R223): the next unit fails an address check; the completion word says so, the pump keeps the command,
and CTRL receives PUMP_FAULT. -/
def execPumpPark (c : CoreId) (pump : Bool) (s : State) : Out :=
  s.onCore c fun s =>
    let s' := s.pumpAhead c pump
    match (s'.core c).pump pump with
    | .running m u sent =>
      match s'.pumpStop c pump m u sent with
      | some (.park va cause write) =>
        let s' := (((s'.dropSent sent).dropAnswers c cause).scramble c m u).modCore c fun k =>
          (k.completeWrite (.sig m.g) m.rdr (.sig (completionWord 0x01 u))).setPump pump (.parked m u va cause write)
        s'.asyncTrap c Cause.pumpFault (va.zeroExtend 64) pump
      | _ => s
    | _ => s

/-- PREM_UNIT_ACK (R220): the target has performed the unit, which is counted where its source was not poisoned. -/
def execPremUnitAck (c : CoreId) (pump : Bool) (s : State) : Out :=
  s.onCore c fun s =>
    match (s.core c).pump pump with
    | .running m u (some (dev, seq)) =>
      match (s.fabric.outPkt dev seq).bind fun o => if carriesPoison o.full then none else o.ack with
      | some (.ok _) =>
        ((s.dropPkt dev seq).modCore c fun k => k.setPump pump (.running m (u + 1) none)).sketch 4 c m.pc 1
      | _ => s
    | _ => s

end Sys2Proof.Machine
end

