-- ==== Sys2Proof/Machine/Geometry.lean ====
section
/-! DEFINITION. Exact geometric predicates: issue, acceptance, completion and the counters (spec/11). -/

namespace Sys2Proof.Machine

/-! ## Issue (R243, R282) -/

/-- The exact sign unit can take another instruction. -/
def Core.geomRoom (k : Core) : Bool := decide (k.geom.length < 2)

/-- A geometry instruction as it issues: the write of R29 when guarded false, COUNT_CONFLICT, then the wait for the
exact sign unit, then its sources. -/
def State.geomIssue (s : State) (g : Guard) (d : TDst) (kind : GeomKind) (srcs : List SrcRef) : Out :=
  let c := s.cur.1
  let x := s.cur.2
  .next (if !s.guard g then s.nullWrite c x (.tile d.reg) d.rdr
    else match conflictIn srcs with
      | some r => s.trap Cause.countConflict (countEaddr r 0)
      | none =>
        if s.curCore.geomRoom then s.srcPhase c x srcs (.geom kind d.reg d.rdr)
        else s.waitOn c x .otherWait (.geomRoom srcs kind d.reg d.rdr))

/-- ORIENT2 (Table 11.1). -/
def execOrient2 (g : Guard) (d : TDst) (pa pb pc : TSrc) (s : State) : Out :=
  s.geomIssue g d .orient2 (s.group pa 2 ++ s.group pb 2 ++ s.group pc 2)

/-- ORIENT3 (Table 11.1). -/
def execOrient3 (g : Guard) (d : TDst) (pa pb pc pd : TSrc) (s : State) : Out :=
  s.geomIssue g d .orient3 (s.group pa 3 ++ s.group pb 3 ++ s.group pc 3 ++ s.group pd 3)

/-- INCIRC (Table 11.1). -/
def execIncirc (g : Guard) (d : TDst) (pa pb pc pd : TSrc) (s : State) : Out :=
  s.geomIssue g d .incirc (s.group pa 2 ++ s.group pb 2 ++ s.group pc 2 ++ s.group pd 2)

/-- INSPH (Table 11.1): PD names the fourth and the fifth point. -/
def execInsph (g : Guard) (d : TDst) (pa pb pc pd : TSrc) (s : State) : Out :=
  s.geomIssue g d .insph (s.group pa 3 ++ s.group pb 3 ++ s.group pc 3 ++ s.group pd 6)

/-- SEGX (Table 11.1). -/
def execSegx (g : Guard) (d : TDst) (pa pb pc pd : TSrc) (s : State) : Out :=
  s.geomIssue g d .segx (s.group pa 2 ++ s.group pb 2 ++ s.group pc 2 ++ s.group pd 2)

/-- GEOM_ACCEPT (R243, R282): an instruction held before a full exact sign unit goes on to its sources. -/
def execGeomAccept (c : CoreId) (s : State) : Out :=
  s.onCore c fun s =>
    match (s.stream c .exec).pend with
    | .geomRoom srcs kind d rdr => if (s.core c).geomRoom then s.srcPhase c .exec srcs (.geom kind d rdr) else s
    | _ => s

/-! ## Completion (R242, R253, R255) -/

/-- How a lane was decided, by its result byte: 0 stage A, 1 stage B, 2 stage C, 3 symbolically, 4 at issue
(R246, R247). -/
def laneStage (kind : GeomKind) (b : Nat) : Nat :=
  if b == 0x80 then 4 else if b / 32 % 2 == 1 && kind != .segx then 4 else b / 4 % 4

/-- Lanes decided in one of some ways. -/
def laneCount (kind : GeomKind) (bytes : List Nat) (stages : List Nat) : Nat :=
  (bytes.filter fun b => stages.contains (laneStage kind b)).length

/-- A saturating counter (R255). -/
def satAdd16 (a : BitVec 16) (n : Nat) : BitVec 16 := BitVec.ofNat 16 (min 0xFFFF (a.toNat + n))

/-- The counters after an instruction completes (R255). -/
def GStat.after (t : GStat) (kind : GeomKind) (bytes : List Nat) (mismatch : Bool) : GStat :=
  { cnta := satAdd16 t.cnta (laneCount kind bytes [0]), cntb := satAdd16 t.cntb (laneCount kind bytes [1]),
    cntc := satAdd16 t.cntc (laneCount kind bytes [2, 4]), cnts := satAdd16 t.cnts (laneCount kind bytes [3]),
    pck := t.pck || mismatch, nfs := t.nfs || bytes.contains 0x80 }

/-- What a geometry instruction writes; after a checker mismatch rows 0 to 3 are unpredictable and poisoned (R253). -/
def geomWrite (bytes : List Nat) (poison : BitVec 32) (free : Option (BitVec 32768)) : WriteData :=
  match free with
  | none => .tile (geomTile bytes) (BitVec.allOnes 32768) (geomPoison poison) (BitVec.allOnes 32)
  | some f => .tile (mergeBits (geomTile bytes) f (rowMaskBits 0xF)) (BitVec.allOnes 32768) 0xF (BitVec.allOnes 32)

/-- GEOM_COMPLETE (R243, R253): the oldest geometry instruction completes its one write. -/
def execGeomComplete (c : CoreId) (mismatch : Bool) (s : State) : Out :=
  s.onCore c fun s =>
    match (s.core c).geom with
    | [] => s
    | o :: rest =>
      let bytes := geomBytes o.kind o.sym (o.regs.map BitVec.toNat)
      let d := geomWrite bytes o.poison (if mismatch then some (Config.freeTile s.fresh) else none)
      let s := if mismatch then s.useFresh.mismatch c .sign o.pc else s
      let s := (s.sketch 0x08 c o.pc (laneCount o.kind bytes [1])).sketch 0x09 c o.pc (laneCount o.kind bytes [2])
      s.modCore c fun k =>
        { k with geom := rest, gstat := k.gstat.after o.kind bytes mismatch }.completeWrite (.tile o.dst) o.rdr d

/-! ## GSTAT (R255) -/

/-- The two words of GSTAT. -/
def Core.gstatWord (k : Core) (sel : Bool) : Word :=
  if sel then (0 : BitVec 60) ++ bit1 k.gstat.nfs ++ bit1 k.gstat.pck ++ BitVec.ofNat 2 k.geom.length
  else k.gstat.cnts ++ k.gstat.cntc ++ k.gstat.cntb ++ k.gstat.cnta

/-- The read clears what it returns (R255). -/
def GStat.clear (t : GStat) (sel : Bool) : GStat :=
  if sel then { t with pck := false, nfs := false } else { t with cnta := 0, cntb := 0, cntc := 0, cnts := 0 }

/-- GSTAT (R255). -/
def execGstat (g : Guard) (d : SReg) (sel : Bool) (s : State) : Out :=
  s.doing g ((s.modCore s.cur.1 fun k => { k with gstat := k.gstat.clear sel }).ws d (s.curCore.gstatWord sel))

end Sys2Proof.Machine
end

