-- ==== Sys2Proof/Machine/Sync.lean ====
section
/-! DEFINITION. Semaphore operations, fences and barriers, and the events that end them (spec/10 R229 to R237). -/

namespace Sys2Proof.Machine

/-! ## Semaphore operations (R229, R230, R233, R234) -/

/-- What an operation with an ordering kind waits for before it issues (R233): release performs what precedes. -/
def State.orderFor (s : State) (o : OrdScp) : State := if releases o then s.releaseOn s.cur.1 s.cur.2 else s

/-- A semaphore operation of the issuing stream: BAD_HANDLE, PEER_LOST, or an operation in progress (R230). -/
def State.semIssue (s : State) (g : Guard) (kind : SemKind) (o : OrdScp) (d a : SReg) (b cmp : Word) : Out :=
  let c := s.cur.1
  let x := s.cur.2
  let h := s.rs a
  let op := fun (t : SemTarget) (seq : Option (BitVec 32)) =>
    Pend.sem { kind := kind, handle := h, target := t, d := d, b := b, c := cmp, o := o, seq := seq, result := none }
  .next (if !s.guard g then s.adv
    else match s.resolve c h with
      | .bad => s.trap Cause.badHandle h
      | .cell t i => (s.orderFor o).waitOn c x .running (op (.cell t i) none)
      | .remote dev =>
        match (s.orderFor o).sendPacket c dev (releases o) (.sem c x) (.sem kind h b cmp) with
        | .lost => s.trap Cause.peerLost h
        | .held => (s.orderFor o).waitOn c x .running (op (.remote dev) none)
        | .sent s' seq => s'.waitOn c x .running (op (.remote dev) (some seq)))

/-- SEMADD (Table 10.3). -/
def execSemadd (g : Guard) (o : OrdScp) (d a b : SReg) (s : State) : Out := s.semIssue g .add o d a (s.rs b) 0

/-- SEMSWP (Table 10.3). -/
def execSemswp (g : Guard) (o : OrdScp) (d a b : SReg) (s : State) : Out := s.semIssue g .swp o d a (s.rs b) 0

/-- SEMCAS (Table 10.3). -/
def execSemcas (g : Guard) (o : OrdScp) (d a b cs : SReg) (s : State) : Out := s.semIssue g .cas o d a (s.rs b) (s.rs cs)

/-- SEMMAX (Table 10.3), signed or unsigned. -/
def execSemmax (g : Guard) (o : OrdScp) (d a b : SReg) (u : Bool) (s : State) : Out :=
  s.semIssue g (if u then .maxu else .max) o d a (s.rs b) 0

/-- SEMLD (Table 10.3). -/
def execSemld (g : Guard) (o : OrdScp) (d a : SReg) (s : State) : Out := s.semIssue g .ld o d a 0 0

/-- A hold on a cell begins (R231). -/
def State.watchOn (s : State) (c : CoreId) (x : StreamId) (t : CoreId) (i : BitVec 12) (cond : SemCond) (b : Word) : State :=
  let v := s.cell t i
  let w : Watch :=
    { c := c, x := x, core := t, cell := i, cond := cond, b := b,
      since := if condHolds cond v b then some (s.view c) else none, val := v }
  { s with watches := s.watches ++ [w] }

/-- SEMWT (R231): the stream waits in OTHER_WAIT. -/
def execSemwt (g : Guard) (o : OrdScp) (d a b : SReg) (cond : SemCond) (s : State) : Out :=
  let c := s.cur.1
  let x := s.cur.2
  let h := s.rs a
  let w := fun (t : SemTarget) (seq : Option (BitVec 32)) =>
    Pend.semwt { handle := h, target := t, cond := cond, d := d, b := s.rs b, o := o, seq := seq }
  .next (if !s.guard g then s.adv
    else match s.resolve c h with
      | .bad => s.trap Cause.badHandle h
      | .cell t i => ((s.orderFor o).watchOn c x t i cond (s.rs b)).waitOn c x .otherWait (w (.cell t i) none)
      | .remote dev =>
        match (s.orderFor o).sendPacket c dev (releases o) (.sem c x) (.sem .ld h 0 0) with
        | .lost => s.trap Cause.peerLost h
        | .held => (s.orderFor o).waitOn c x .otherWait (w (.remote dev) none)
        | .sent s' seq => s'.waitOn c x .otherWait (w (.remote dev) (some seq)))

/-- A stream's operation was turned away (R234, R402): EADDR is the handle, but zero for a checker mismatch, whose record the
target has written. -/
def State.semReject (s : State) (c : CoreId) (x : StreamId) (cause : BitVec 7) (h : Word) : State :=
  (s.waitOn c x .running .none).trapOn c x cause (if cause == Cause.pipeCheck then 0 else h)

/-- The packet of an operation on another device, which waited for the port of its flow, goes out (R382). -/
def State.semSend (s : State) (c : CoreId) (x : StreamId) (o : SemOp) (dev : BitVec 16) : State :=
  if o.seq.isSome || (s.core c).gated then s
  else match s.sendPacket c dev (releases o.o) (.sem c x) (.sem o.kind o.handle o.b o.c) with
    | .lost => s.semReject c x Cause.peerLost o.handle
    | .held => s
    | .sent s' seq => s'.waitOn c x .running (.sem { o with seq := some seq })

/-- An operation of a waiting stream is performed on its cell; a checker mismatch leaves the cell as it is and raises
PIPE_CHECK, at a read of SEMWT too (R402). An operation waits for a later tick if one that comes after it in the order of
this cycle has been performed on its cell (R232), and while the core of the cell is gated (R412). -/
def State.semPerform (s : State) (c : CoreId) (x : StreamId) (mismatch : Bool) : State :=
  match (s.stream c x).pend with
  | .sem o =>
    match o.target, o.result with
    | .cell t i, none =>
      if (s.core t).gated || (s.core c).gated || !s.mayTurn t i (semRank c x) then s
      else if mismatch then (s.waitOn c x .running .none).pipeCheckOn c x .sem
      else
        let (s, old) := s.cellOpAt (semRank c x) o.kind t i o.b o.c
        let s := s.modCore c fun k => k.orderCell x (acquires o.o) (releases o.o && s.cell t i != old) t i
        s.waitOn c x .running (.sem { o with result := some old })
    | .remote dev, none => s.semSend c x o dev
    | .cell _ _, some _ => s
    | .remote _, some _ => s
  | .semwt w =>
    match w.target with
    | .cell _ _ => if mismatch && !(s.core c).gated then (s.dropWatch c x).pipeCheckOn c x .sem else s
    | .remote _ => s
  | _ => s

/-- SEM_OP_PERFORM (R232): a core's operation, one of the host, whose answer the host then holds, or what is held from a
peer device. In minimal mode the host reaches no cell (R389). A checker mismatch leaves the host's cell unchanged, with its record
and its mark on the core (R402, R405); what the host reads then is not said, and hostRead stays as it is (assumption log 30). -/
def execSemOpPerform (who : SemParty) (mismatch : Bool) (s : State) : Out :=
  match who with
  | .stream c x => .next (s.semPerform c x mismatch)
  | .peer dev => .next (s.peerRun dev mismatch)
  | .host t i k b cmp =>
    .next (if (s.core t).gated || s.boot.stage == .minimal then s
      else if mismatch then s.mismatch t .sem 0
      else
        let (s, old) := s.cellOpAt outsideRank k t i b cmp
        { s with hostRead := leBytes 8 old.toNat })

/-- The answer of a semaphore operation, from its cell or from another device (R230, R234). -/
def State.semAnswer (s : State) (o : SemOp) : Option AckRes :=
  match o.target, o.seq with
  | .remote dev, some seq => (s.fabric.outPkt dev seq).bind fun p => p.ack
  | _, _ => o.result.map .ok

/-- The packet of an operation is done with. -/
def State.semDone (s : State) (t : SemTarget) (seq : Option (BitVec 32)) : State :=
  match t, seq with
  | .remote dev, some seq => s.leavePkt dev seq
  | _, _ => s

/-- SEM_OP_RESULT (R230): the old value reaches s[D] and the stream goes on, or the cause is raised; a trap that
waited for CTRL's boundary is delivered (R337). -/
def execSemOpResult (c : CoreId) (x : StreamId) (s : State) : Out :=
  s.onCore c fun s =>
    match (s.stream c x).pend with
    | .sem o =>
      match s.semAnswer o with
      | none => s
      | some (.ok v) =>
        let s := ((s.semDone o.target o.seq).modCore c fun k => k.writeS x o.d v).finishOn c x
        if x == .ctrl then s.deliverHeld c else s
      | some (.reject cause) =>
        let s := (s.semDone o.target o.seq).semReject c x cause o.handle
        if x == .ctrl then s.deliverHeld c else s
    | _ => s

/-- The hold of a stream's SEMWT. -/
def State.watchOf (s : State) (c : CoreId) (x : StreamId) : Option Watch := s.watches.find? fun w => w.c == c && w.x == x

/-- A SEMWT that acquires takes the order of what was released on its cell (R233). -/
def Core.orderWait (k : Core) (x : StreamId) (w : SemWait) : Core :=
  match w.target with
  | .cell t i => k.orderCell x (acquires w.o) false t i
  | .remote _ => k

/-- SEMWT ends with a value. -/
def State.semwtEnd (s : State) (c : CoreId) (x : StreamId) (w : SemWait) (v : Word) : State :=
  (((s.semDone w.target w.seq).dropWatch c x).modCore c fun k => (k.writeS x w.d v).orderWait x w).finishOn c x

/-- SEMWT asks another device for the value of its cell, once the port of its flow lets it (R231, R382). -/
def State.semwtAsk (s : State) (c : CoreId) (x : StreamId) (w : SemWait) (dev : BitVec 16) (release : Bool) : State :=
  match s.sendPacket c dev release (.sem c x) (.sem .ld w.handle 0 0) with
  | .lost => s.semReject c x Cause.peerLost w.handle
  | .held => s.waitOn c x .otherWait (.semwt { w with seq := none })
  | .sent s' seq => s'.waitOn c x .otherWait (.semwt { w with seq := some seq })

/-- The value a cell of another device has returned ends the wait, or is asked for again; a refusal ends it with its
cause (R231, R234). -/
def State.semwtRemote (s : State) (c : CoreId) (x : StreamId) (w : SemWait) (dev : BitVec 16) : State :=
  match w.seq with
  | none => s.semwtAsk c x w dev (releases w.o)
  | some q => match (s.fabric.outPkt dev q).bind fun p => p.ack with
    | none => s
    | some (.reject cause) => (s.semDone w.target w.seq).semReject c x cause w.handle
    | some (.ok v) =>
      if condHolds w.cond v w.b then s.semwtEnd c x w v else (s.semDone w.target w.seq).semwtAsk c x w dev false

/-- SEMWT_HOLD_EXPIRE (R231): the cell has held satisfying values for 64 ticks; on another device, it has returned
one. -/
def execSemwtHoldExpire (c : CoreId) (x : StreamId) (s : State) : Out :=
  s.onCore c fun s =>
    match (s.stream c x).pend with
    | .semwt w =>
      match w.target with
      | .cell _ _ =>
        match s.watchOf c x with
        | some q => match q.since with
          | some t => if t + 64 ≤ s.view c && !(s.core q.core).gated then s.semwtEnd c x w q.val else s
          | none => s
        | none => s
      | .remote dev => s.semwtRemote c x w dev
    | _ => s

/-! ## Fences (R235) -/

/-- FENCE (R235): a release performs every store before it, and every fence gives LOAD's loads their bytes. -/
def execFence (g : Guard) (o : OrdScp) (s : State) : Out :=
  let c := s.cur.1
  let x := s.cur.2
  .next (if !s.guard g then s.adv
    else if releases o then (s.releaseOn c x).adv
    else if x == .load then (s.captureLoads c).adv
    else s.adv)

/-! ## Barriers (R236, R237) -/

/-- Index of a barrier scope. -/
def barIdx : BarScope → Fin 4
  | .core => 0
  | .gang => 1
  | .die => 2
  | .pkg => 3

/-- Domain identifiers of a MEMBER word (R38). -/
def domDie (m : Word) : BitVec 16 := m.extractLsb' 0 16
def domPkg (m : Word) : BitVec 16 := m.extractLsb' 16 16

/-- The participants of a barrier at a scope, seen from a task: the tasks of the gang, or of its domain (R236,
R39). -/
def Task.partner (t u : Task) (b : BarScope) : Bool :=
  let gang := t.key == u.key
  match b with
  | .core => false
  | .gang => gang
  | .die => if domDie t.member == 0 then gang else domDie t.member == domDie u.member
  | .pkg => if domPkg t.member == 0 then gang else domPkg t.member == domPkg u.member

/-- A participant has arrived at the barrier of ordinal n, or its CTRL is ENDED (R236): IDLE once its task has retired. -/
def Core.arrived (k : Core) (b : BarScope) (n : Nat) : Bool :=
  k.ctrl.st == .ended || k.ctrl.st == .idle || decide (n < k.barArr[(barIdx b).val])

/-- Every participant has arrived, those of pre-empted gangs as saved. -/
def State.barDone (s : State) (t : Task) (b : BarScope) (n : Nat) : Bool :=
  let met := fun (k : Core) => match k.task with
    | some u => !t.partner u b || k.arrived b n
    | none => true
  s.cores.toList.all met && s.nodes.all fun d => d.st == .retired || d.saves.all met

/-- A core leaves the barrier it waits at. -/
def Core.leaveBar (k : Core) (b : BarScope) (n : Nat) : Core :=
  if k.ctrl.pend == .bar b n then
    { k with barOrd := k.barOrd.set (barIdx b).val (n + 1), ctrl := k.ctrl.finish }
  else k

/-- Every participant that waits leaves the barrier; a gated core's stays as it is (R412). -/
def State.leaveBars (s : State) (t : Task) (b : BarScope) (n : Nat) : State :=
  { s with cores := s.cores.map fun k => match k.task with
      | some u => if t.partner u b && !k.gated then k.leaveBar b n else k
      | none => k }

/-- CTRL arrives at a barrier, unless it already has (R337). -/
def Core.arriveBar (k : Core) (b : BarScope) : Core :=
  let i := (barIdx b).val
  if k.barArr[i]! == k.barOrd[i]! then { k with barArr := k.barArr.setIfInBounds i (k.barOrd[i]! + 1) } else k

/-- BAR (R236): a core barrier completes at once; the others wait for BAR_COMPLETE. -/
def execBar (g : Guard) (ar : Bool) (b : BarScope) (s : State) : Out :=
  let c := s.cur.1
  if !s.guard g then .next s.adv
  else
    let s := if ar then s.releaseOn c .ctrl else s
    let n := s.curCore.barOrd[(barIdx b).val]
    let s := s.modCore c fun k => k.arriveBar b
    .next (if b == .core then (s.modCore c fun k => { k with barOrd := k.barOrd.set (barIdx b).val (n + 1) }).adv
      else s.waitOn c .ctrl .otherWait (.bar b n))

/-- BAR_COMPLETE (R236): the barrier that a core waits at has met every participant; all that wait go on. -/
def execBarComplete (c : CoreId) (s : State) : Out :=
  s.onCore c fun s =>
    match (s.stream c .ctrl).pend, (s.core c).task with
    | .bar b n, some t =>
      if s.barDone t b n then (s.leaveBars t b n).modCore c fun k => k.leaveBar b n else s
    | .bar b n, none => s.modCore c fun k => k.leaveBar b n
    | _, _ => s

end Sys2Proof.Machine
end

