-- ==== Sys2Proof/Machine/Reads.lean ====
section
/-! DEFINITION. Which state without poison an instruction reads (spec/26 R404): what an uncorrectable error of it stops. -/

namespace Sys2Proof.Machine

/-- A scalar, predicate or count-base register that an instruction reads. -/
inductive Src where
  | s (r : SReg)
  | p (r : PReg)
  | k (r : KReg)
deriving DecidableEq, Repr

/-- The predicate of a guard (R81). -/
def guardReads : Guard → List Src
  | .always => []
  | .on _ p => [.p p]

/-- The count base of an expected count (R23). -/
def specReads : CountSpec → List Src
  | .any => []
  | .at k _ => [.k k]

/-- The guard of an instruction, and the registers of its stream that it reads where the guard holds: scalar operands, and
the bases of its expected counts. -/
def srcsOf : Instr → Guard × List Src
  | .add g _ a b => (g, [.s a, .s b])
  | .sub g _ a b => (g, [.s a, .s b])
  | .mul g _ a b => (g, [.s a, .s b])
  | .mulh g _ a b => (g, [.s a, .s b])
  | .mulhu g _ a b => (g, [.s a, .s b])
  | .div g _ a b => (g, [.s a, .s b])
  | .divu g _ a b => (g, [.s a, .s b])
  | .rem g _ a b => (g, [.s a, .s b])
  | .remu g _ a b => (g, [.s a, .s b])
  | .and g _ a b => (g, [.s a, .s b])
  | .or g _ a b => (g, [.s a, .s b])
  | .xor g _ a b => (g, [.s a, .s b])
  | .shl g _ a b => (g, [.s a, .s b])
  | .shr g _ a b => (g, [.s a, .s b])
  | .sar g _ a b => (g, [.s a, .s b])
  | .rot g _ a b => (g, [.s a, .s b])
  | .min g _ a b => (g, [.s a, .s b])
  | .max g _ a b => (g, [.s a, .s b])
  | .minu g _ a b => (g, [.s a, .s b])
  | .maxu g _ a b => (g, [.s a, .s b])
  | .sel g _ a b p => (g, [.s a, .s b, .p p])
  | .mov g _ a => (g, [.s a])
  | .clz g _ a => (g, [.s a])
  | .ctz g _ a => (g, [.s a])
  | .popc g _ a => (g, [.s a])
  | .addi g _ a _ => (g, [.s a])
  | .andi g _ a _ => (g, [.s a])
  | .ori g _ a _ => (g, [.s a])
  | .xori g _ a _ => (g, [.s a])
  | .shli g _ a _ => (g, [.s a])
  | .shri g _ a _ => (g, [.s a])
  | .sari g _ a _ => (g, [.s a])
  | .li g _ _ => (g, [])
  | .lih g _ a _ => (g, [.s a])
  | .lea g _ a _ => (g, [.s a])
  | .cmpEq g _ a b => (g, [.s a, .s b])
  | .cmpNe g _ a b => (g, [.s a, .s b])
  | .cmpLt g _ a b => (g, [.s a, .s b])
  | .cmpLe g _ a b => (g, [.s a, .s b])
  | .cmpGt g _ a b => (g, [.s a, .s b])
  | .cmpGe g _ a b => (g, [.s a, .s b])
  | .cmpLtu g _ a b => (g, [.s a, .s b])
  | .cmpLeu g _ a b => (g, [.s a, .s b])
  | .cmpGtu g _ a b => (g, [.s a, .s b])
  | .cmpGeu g _ a b => (g, [.s a, .s b])
  | .pand g _ a b => (g, [.p a, .p b])
  | .por g _ a b => (g, [.p a, .p b])
  | .pnot g _ a => (g, [.p a])
  | .kset g _ _ => (g, [])
  | .kadd g _ a _ => (g, [.k a])
  | .kmovKS g _ a => (g, [.s a])
  | .kmovSK g _ a => (g, [.k a])
  | .kmovKK g _ a => (g, [.k a])
  | .cadv g _ _ => (g, [])
  | .crd g _ _ => (g, [])
  | .cwait g _ k _ => (g, [.k k])
  | .br g _ => (g, [])
  | .bri g a => (g, [.s a])
  | .call g _ _ => (g, [])
  | .ret g a => (g, [.s a])
  | .loop g d kmask _ _ => (g, [.s d] ++ (((List.finRange 7).filter fun i => kmask.getLsbD i.val).map Src.k))
  | .dpt a b => (.always, [.s a, .s b])
  | .fork => (.always, [])
  | .join => (.always, [])
  | .endStream => (.always, [])
  | .post g a => (g, [.s a])
  | .tld g _ base str _ => (g, [.s base, .s str])
  | .tldp g _ _ _ base str _ => (g, [.s base, .s str])
  | .tst g a base str _ => (g, specReads a.spec ++ [.s base, .s str])
  | .tstp g a _ cm base str _ => (g, specReads a.spec ++ (cm.map fun z => specReads z.spec).getD [] ++ [.s base, .s str])
  | .ldsU8 g _ base _ => (g, [.s base])
  | .ldsU16 g _ base _ => (g, [.s base])
  | .ldsU32 g _ base _ => (g, [.s base])
  | .ldsU64 g _ base _ => (g, [.s base])
  | .ldsI8 g _ base _ => (g, [.s base])
  | .ldsI16 g _ base _ => (g, [.s base])
  | .ldsI32 g _ base _ => (g, [.s base])
  | .stsU8 g t base _ => (g, [.s t, .s base])
  | .stsU16 g t base _ => (g, [.s t, .s base])
  | .stsU32 g t base _ => (g, [.s t, .s base])
  | .stsU64 g t base _ => (g, [.s t, .s base])
  | .lookup g _ base _ => (g, [.s base])
  | .tagset g t base _ => (g, [.s t, .s base])
  | .taginv g base _ => (g, [.s base])
  | .probe g _ base _ _ => (g, [.s base])
  | .vadd g _ a b _ _ _ _ => (g, specReads a.spec ++ specReads b.spec)
  | .vsub g _ a b _ _ _ _ => (g, specReads a.spec ++ specReads b.spec)
  | .vmul g _ a b _ _ _ _ => (g, specReads a.spec ++ specReads b.spec)
  | .vfma g _ a b c _ _ _ _ => (g, specReads a.spec ++ specReads b.spec ++ specReads c.spec)
  | .vfms g _ a b c _ _ _ _ => (g, specReads a.spec ++ specReads b.spec ++ specReads c.spec)
  | .vmin g _ a b _ _ => (g, specReads a.spec ++ specReads b.spec)
  | .vmax g _ a b _ _ => (g, specReads a.spec ++ specReads b.spec)
  | .vabs g _ a _ _ _ => (g, specReads a.spec)
  | .vneg g _ a _ _ _ => (g, specReads a.spec)
  | .vdiv g _ a b _ _ _ _ => (g, specReads a.spec ++ specReads b.spec)
  | .vsqrt g _ a _ _ _ _ => (g, specReads a.spec)
  | .vrcp g _ a _ _ _ => (g, specReads a.spec)
  | .vrsq g _ a _ _ _ => (g, specReads a.spec)
  | .vexp2 g _ a _ _ _ => (g, specReads a.spec)
  | .vlog2 g _ a _ _ _ => (g, specReads a.spec)
  | .vand g _ a b _ _ => (g, specReads a.spec ++ specReads b.spec)
  | .vor g _ a b _ _ => (g, specReads a.spec ++ specReads b.spec)
  | .vxor g _ a b _ _ => (g, specReads a.spec ++ specReads b.spec)
  | .vnot g _ a _ _ => (g, specReads a.spec)
  | .vshl g _ a b _ _ => (g, specReads a.spec ++ specReads b.spec)
  | .vshr g _ a b _ _ => (g, specReads a.spec ++ specReads b.spec)
  | .vsar g _ a b _ _ => (g, specReads a.spec ++ specReads b.spec)
  | .vcmp g _ a b _ _ _ => (g, specReads a.spec ++ specReads b.spec)
  | .vcmpb g _ a b _ _ => (g, specReads a.spec ++ specReads b.spec)
  | .vsel g _ a b c _ _ => (g, specReads a.spec ++ specReads b.spec ++ specReads c.spec)
  | .vcvt g _ a _ _ _ _ _ _ => (g, specReads a.spec)
  | .vmov g _ a _ => (g, specReads a.spec)
  | .vsplat g _ a _ _ => (g, specReads a.spec)
  | .vgete g _ a b _ _ => (g, specReads a.spec ++ specReads b.spec)
  | .vpute g _ a b c _ _ => (g, specReads a.spec ++ specReads b.spec ++ specReads c.spec)
  | .vred g _ a _ _ _ _ _ _ => (g, specReads a.spec)
  | .vscan g _ a _ _ _ _ _ _ => (g, specReads a.spec)
  | .vpxor g _ a _ _ _ => (g, specReads a.spec)
  | .vclmul g _ a b _ _ => (g, specReads a.spec ++ specReads b.spec)
  | .vpopc g _ a _ _ => (g, specReads a.spec)
  | .vclz g _ a _ _ => (g, specReads a.spec)
  | .vperm g _ a b _ _ => (g, specReads a.spec ++ specReads b.spec)
  | .vshuf g _ a b _ => (g, specReads a.spec ++ specReads b.spec)
  | .vtrn g _ a _ _ => (g, specReads a.spec)
  | .vbcastr g _ a b _ => (g, specReads a.spec ++ specReads b.spec)
  | .vcomp g _ a b _ _ => (g, specReads a.spec ++ specReads b.spec)
  | .wlatch g _ a ws ss _ _ _ => (g, specReads a.spec ++ [.s ws, .s ss])
  | .wclr g => (g, [])
  | .mma g _ a b c _ _ _ _ _ =>
    (g, specReads a.spec ++ (b.map fun z => specReads z.spec).getD [] ++ (c.map fun z => specReads z.spec).getD [])
  | .amovToTile g _ a _ _ _ => (g, specReads a.spec)
  | .amovToAcc g _ a _ _ _ => (g, specReads a.spec)
  | .azero g _ => (g, [])
  | .aadd g _ a b _ _ _ => (g, specReads a.spec ++ specReads b.spec)
  | .nsetl g _ a b c => (g, [.s a, .s b, .s c])
  | .nsetb g _ a => (g, [.s a])
  | .nstat g _ _ => (g, [])
  | .ngo g _ _ => (g, [])
  | .orient2 g _ pa pb pc => (g, specReads pa.spec ++ specReads pb.spec ++ specReads pc.spec)
  | .orient3 g _ pa pb pc pd => (g, specReads pa.spec ++ specReads pb.spec ++ specReads pc.spec ++ specReads pd.spec)
  | .incirc g _ pa pb pc pd => (g, specReads pa.spec ++ specReads pb.spec ++ specReads pc.spec ++ specReads pd.spec)
  | .insph g _ pa pb pc pd => (g, specReads pa.spec ++ specReads pb.spec ++ specReads pc.spec ++ specReads pd.spec)
  | .segx g _ pa pb pc pd => (g, specReads pa.spec ++ specReads pb.spec ++ specReads pc.spec ++ specReads pd.spec)
  | .gstat g _ _ => (g, [])
  | .npack g _ a _ => (g, specReads a.spec)
  | .nunpk g _ a _ => (g, specReads a.spec)
  | .nrnd g _ a _ _ _ _ _ => (g, specReads a.spec)
  | .nmom g _ a b c _ _ _ _ => (g, specReads a.spec ++ specReads b.spec ++ [.s c])
  | .nupd g _ a b c _ _ => (g, specReads a.spec ++ specReads b.spec ++ [.s c])
  | .nupdCm g _ a b c _ _ => (g, specReads a.spec ++ specReads b.spec ++ [.s c])
  | .pcopy g _ _ a b c _ => (g, [.s a, .s b, .s c])
  | .pgath g _ _ a b c e _ _ => (g, [.s a, .s b, .s c, .s e])
  | .pscat g _ _ a b c e _ _ => (g, [.s a, .s b, .s c, .s e])
  | .pfill g _ _ a b c _ => (g, [.s a, .s b, .s c])
  | .pwld g _ _ a b c scl => (g, [.s a, .s b, .s c] ++ (scl.map fun z => [Src.s z]).getD [])
  | .prem g _ _ a b c e _ => (g, [.s a, .s b, .s c, .s e])
  | .presume g _ => (g, [])
  | .pcancel g _ => (g, [])
  | .pqstat g _ _ => (g, [])
  | .semadd g _ _ a b => (g, [.s a, .s b])
  | .semswp g _ _ a b => (g, [.s a, .s b])
  | .semcas g _ _ a b c => (g, [.s a, .s b, .s c])
  | .semmax g _ _ a b _ => (g, [.s a, .s b])
  | .semld g _ _ a => (g, [.s a])
  | .semwt g _ _ a b _ => (g, [.s a, .s b])
  | .fence g _ => (g, [])
  | .bar g _ _ => (g, [])
  | .nop g => (g, [])
  | .trap g _ => (g, [])
  | .bkpt g _ => (g, [])
  | .csrr g _ _ => (g, [])
  | .csrw g _ a => (g, [.s a])
  | .csrx g _ _ a => (g, [.s a])
  | .tick g _ => (g, [])
  | .eret => (.always, [])
  | .resumeRetry g _ a => (g, [.s a])
  | .resumeSkip g _ => (g, [])
  | _ => (.always, [])

/-- The registers that the issuing stream's next instruction reads where its guard holds: a DPT reads its masks only while drain
is in force (R132), and outside a handler. -/
def State.opReads (s : State) (i : Instr) : List Src :=
  match i with
  | .dpt a b => if s.curStream.dr && !s.inHandler then [.s a, .s b] else []
  | i => (srcsOf i).2

/-- The issuing stream's next instruction reads a register. -/
def State.readsSrc (s : State) (i : Instr) (r : Src) : Bool :=
  let g := (srcsOf i).1
  (guardReads g).contains r || (s.guard g && (s.opReads i).contains r)

/-- The cell an operation of the semaphore unit would read, by its handle (R229, R231). -/
def handleReg : Instr → Option SReg
  | .semadd _ _ _ a _ => some a
  | .semswp _ _ _ a _ => some a
  | .semcas _ _ _ a _ _ => some a
  | .semmax _ _ _ a _ _ => some a
  | .semld _ _ _ a => some a
  | .semwt _ _ _ a _ _ => some a
  | _ => none

/-- A CSR that an instruction reads. -/
def csrOf : Instr → Option Csr
  | .csrr _ _ c => some c
  | .csrx _ _ c _ => some c
  | _ => none

/-- The rounding selector of an instruction (R74). -/
def rselOf : Instr → Option RSel
  | .vadd _ _ _ _ _ r _ _ => some r
  | .vsub _ _ _ _ _ r _ _ => some r
  | .vmul _ _ _ _ _ r _ _ => some r
  | .vfma _ _ _ _ _ _ r _ _ => some r
  | .vfms _ _ _ _ _ _ r _ _ => some r
  | .vdiv _ _ _ _ _ r _ _ => some r
  | .vsqrt _ _ _ _ r _ _ => some r
  | .vcvt _ _ _ _ _ r _ _ _ => some r
  | .vred _ _ _ _ _ _ r _ _ => some r
  | .vscan _ _ _ _ _ _ r _ _ => some r
  | .aadd _ _ _ _ _ r _ => some r
  | .nrnd _ _ _ _ _ r _ _ => some r
  | .nmom _ _ _ _ _ _ r _ _ => some r
  | _ => none

/-- The point registers of a geometry instruction (R243). -/
def State.geomSrcs (s : State) : Instr → Option (List SrcRef)
  | .orient2 _ _ pa pb pc => some (s.group pa 2 ++ s.group pb 2 ++ s.group pc 2)
  | .orient3 _ _ pa pb pc pd => some (s.group pa 3 ++ s.group pb 3 ++ s.group pc 3 ++ s.group pd 3)
  | .incirc _ _ pa pb pc pd => some (s.group pa 2 ++ s.group pb 2 ++ s.group pc 2 ++ s.group pd 2)
  | .insph _ _ pa pb pc pd => some (s.group pa 3 ++ s.group pb 3 ++ s.group pc 3 ++ s.group pd 6)
  | .segx _ _ pa pb pc pd => some (s.group pa 2 ++ s.group pb 2 ++ s.group pc 2 ++ s.group pd 2)
  | _ => none

/-- The issuing stream's next instruction waits for an entry of the pump queue, or reads its state (R215, R224, R226). -/
def readsQueue : Instr → Bool
  | .pcopy .. | .pgath .. | .pscat .. | .pfill .. | .pwld .. | .prem .. | .presume .. => true
  | .pqstat _ _ sel => sel == 0
  | _ => false

/-- A CSR that the issuing stream's next instruction reads without naming it: RMODE by selector 0 (R74), GMODE by a geometry
instruction whose sources are readable (R241), RETPC by ERET (R338), EPC and CAUSE by RESUME (R137), LOOPIT by a LOOP that is
clamped (R129), PQDEPTH by a command for the pumps (R214). -/
def State.readsCsr (s : State) (i : Instr) (c : Csr) : Bool :=
  match c with
  | .rmode => rselOf i == some .rmode
  | .gmode => s.curCore.geomRoom && ((s.geomSrcs i).map s.curCore.evalSources) == some .ready
  | .retpc => s.inHandler && i == .eret
  | .epc => s.inHandler && (match i with
    | .resumeRetry _ _ a => a == 0
    | .resumeSkip _ _ => true
    | _ => false)
  | .cause => s.inHandler && (match i with
    | .resumeRetry _ x _ => x == .ctrl
    | .resumeSkip _ _ => true
    | _ => false)
  | .loopit => s.curStream.dr && (match i with
    | .loop _ d _ drain _ => drain && loopLeft (s.rs d) != 0 && !(loopLeft (s.rs d)).getLsbD 63
    | _ => false)
  | .pqdepth => readsQueue i
  | _ => false

/-- The issuing stream's next instruction reads a piece of state (R404): a tag-table entry is read by every search of the
table, and by TAGINV where it names the entry. An instruction whose guard is false reads no more than its guard. -/
def State.readsState (s : State) (i : Instr) (w : EccStruct) : Bool :=
  match w with
  | .sreg r => s.readsSrc i (.s r)
  | .preg r => s.readsSrc i (.p r)
  | .kreg r => s.readsSrc i (.k r)
  | .count _ => true
  | .cell h => s.guard (srcsOf i).1 && match handleReg i with
    | some a => (s.rs a).setWidth 36 == h
    | none => false
  | .tag n => s.guard (srcsOf i).1 && match i with
    | .lookup _ _ _ _ => true
    | .probe _ _ _ _ _ => true
    | .taginv _ base off => (s.tagIdx base off).toNat == n.toNat
    | _ => false
  | .csr c => s.guard (srcsOf i).1 && (csrOf i == some c || s.readsCsr i c)
  | .header => false

/-- What the waiting instruction of a stream reads of such state when it goes on (R404): a semaphore operation that has not been
performed, or a SEMWT, its cell; a geometry instruction whose sources have become readable, GMODE (R241); a command that waits
for an entry of the pump queue, PQDEPTH (R215). -/
def State.waitReads (s : State) (c : CoreId) (x : StreamId) (w : EccStruct) : Bool :=
  let here := fun (t : SemTarget) => match t with
    | .cell _ _ => true
    | .remote _ => false
  match (s.stream c x).pend, w with
  | .sem o, .cell h => here o.target && o.result.isNone && o.handle.setWidth 36 == h
  | .semwt o, .cell h => here o.target && o.handle.setWidth 36 == h
  | .src srcs (.geom _ _ _), .csr .gmode => (s.core c).evalSources srcs == .ready
  | .dst _ _ _ op, .csr .pqdepth => op.needsEntry
  | _, _ => false

end Sys2Proof.Machine
end

