-- ==== Sys2Proof/Machine/System.lean ====
section
/-! DEFINITION. NOP, traps by instruction, control registers, the tick, and the return from a handler (spec/06 R135
to R140, spec/20 R334 to R338). -/

namespace Sys2Proof.Machine

/-! ## Traps by instruction (R135) -/

/-- NOP (R135). -/
def execNop (_g : Guard) (s : State) : Out := .next s.adv

/-- A guarded precise trap with zext(IMM) as EADDR (R135). -/
def State.trapImm (s : State) (g : Guard) (base : BitVec 7) (imm : BitVec 16) : Out :=
  .next (if s.guard g then s.trap base (imm.zeroExtend 64) else s.adv)

/-- TRAP (R135). -/
def execTrap (g : Guard) (imm : BitVec 16) (s : State) : Out := s.trapImm g Cause.softwareTrap imm

/-- BKPT (R135). -/
def execBkpt (g : Guard) (imm : BitVec 16) (s : State) : Out := s.trapImm g Cause.bkpt imm

/-! ## Control registers (R138, Table 6.12) -/

/-- CTRL runs a handler at a level of at least l. -/
def State.atLevel (s : State) (l : Nat) : Bool := s.cur.2 == .ctrl && decide (l ≤ s.curCore.hl)

/-- The Access column allows a read. -/
def State.csrReadable (s : State) (c : Csr) : Bool :=
  match c with
  | .cause | .epc | .eaddr | .eword0 | .eword1 | .retpc | .dlwait0 | .dlwait1 | .dlwait2 | .dlwait3 => s.atLevel 1
  | .shvec => s.atLevel 2
  | _ => true

/-- The Access column allows a write. -/
def State.csrWritable (s : State) (c : Csr) : Bool :=
  match c with
  | .rmode | .loopit | .gmode | .pqdepth | .uhvec => true
  | .retpc => s.atLevel 1
  | .udeleg0 | .udeleg1 | .shvec => s.atLevel 2
  | _ => false

/-- PQDEPTH (R214). -/
def Core.pqdepth (k : Core) : Word :=
  (0 : BitVec 51) ++ BitVec.ofNat 5 k.pumpUsed ++ (0 : BitVec 3) ++ k.pqlim

/-- A CSR as a stream of a core reads it: the trap CSRs are those of CTRL's handler level (R138). -/
def Core.csrRead (k : Core) (x : StreamId) (c : Csr) : Word :=
  let task := fun (f : Task → Word) => (k.task.map f).getD 0
  match c with
  | .status => k.status x
  | .rmode => (k.stream x).rmode.zeroExtend 64
  | .loopit => (k.stream x).loopit
  | .drained => (k.stream x).drained
  | .role => task fun t => BitVec.ofNat 64 t.role
  | .gsize => task fun t => BitVec.ofNat 64 t.gsize
  | .taskid => task fun t => taskidOf t.key
  | .kernid => task Task.kernid
  | .member => task Task.member
  | .gmode => k.gmode.zeroExtend 64
  | .pqdepth => k.pqdepth
  | .cause => k.trapSet.cause.zeroExtend 64
  | .epc => k.trapSet.epc.zeroExtend 64
  | .eaddr => k.trapSet.eaddr
  | .eword0 => k.trapSet.eword0
  | .eword1 => k.trapSet.eword1
  | .retpc => k.trapSet.retpc.zeroExtend 64
  | .dlwait0 => k.dlwait[0]
  | .dlwait1 => k.dlwait[1]
  | .dlwait2 => k.dlwait[2]
  | .dlwait3 => k.dlwait[3]
  | .uhvec => k.uhvec.zeroExtend 64
  | .udeleg0 => k.udeleg0
  | .udeleg1 => k.udeleg1
  | .shvec => k.shvec.zeroExtend 64

/-- A handler address or a return address: bit 0 and bits [63:51] are reserved (R335, Table 6.12). -/
def badAddress (v : Word) : Bool := v.getLsbD 0 || v.extractLsb' 51 13 != 0

/-- A write would set a reserved bit, or a value the CSR's page refuses (R75, R138, R214, R241). -/
def csrReserved (c : Csr) (v : Word) : Bool :=
  match c with
  | .rmode => v.extractLsb' 2 62 != 0
  | .gmode => v.extractLsb' 2 62 != 0
  | .pqdepth => decide (16 < (v.extractLsb' 0 5).toNat) || v.extractLsb' 5 3 != 0 || v.extractLsb' 13 51 != 0
  | .retpc => badAddress v
  | .uhvec => badAddress v
  | .shvec => badAddress v
  | _ => false

/-- Bits of UDELEG0 that exist: bit 34 reads zero and ignores writes (R335). -/
def udeleg0Mask : Word := ~~~(1 <<< 34)

/-- Bits of UDELEG1 that exist: bits 48 to 59 read zero and ignore writes (R335). -/
def udeleg1Mask : Word := ~~~(0xFFF <<< 48)

/-- The core after a CSR write that passed its checks. -/
def Core.csrWrite (k : Core) (x : StreamId) (c : Csr) (v : Word) : Core :=
  match c with
  | .rmode => k.modStream x fun t => { t with rmode := v.setWidth 2 }
  | .loopit => k.modStream x fun t => { t with loopit := v }
  | .gmode => { k with gmode := v.setWidth 2 }
  | .pqdepth => { k with pqlim := v.setWidth 5 }
  | .retpc => k.modTrapSet fun t => { t with retpc := v.setWidth 51 }
  | .uhvec => { k with uhvec := v.setWidth 51 }
  | .udeleg0 => { k with udeleg0 := v &&& udeleg0Mask }
  | .udeleg1 => { k with udeleg1 := v &&& udeleg1Mask }
  | .shvec => { k with shvec := v.setWidth 51 }
  | _ => k

/-- CSR numbers (Table 6.12). -/
def csrNumber (c : Csr) : Word :=
  match c with
  | .status => 0x000
  | .rmode => 0x001
  | .loopit => 0x002
  | .drained => 0x003
  | .role => 0x010
  | .gsize => 0x011
  | .taskid => 0x012
  | .kernid => 0x013
  | .member => 0x014
  | .gmode => 0x020
  | .pqdepth => 0x021
  | .cause => 0x030
  | .epc => 0x031
  | .eaddr => 0x032
  | .eword0 => 0x033
  | .eword1 => 0x034
  | .retpc => 0x035
  | .dlwait0 => 0x038
  | .dlwait1 => 0x039
  | .dlwait2 => 0x03A
  | .dlwait3 => 0x03B
  | .uhvec => 0x040
  | .udeleg0 => 0x041
  | .udeleg1 => 0x042
  | .shvec => 0x080

/-- What stops a CSR access, or nothing: PRIVILEGE by the Access column, then RESERVED_FIELD (R138). -/
def State.csrBar (s : State) (c : Csr) (read : Bool) (write : Option Word) : Option State :=
  if (read && !s.csrReadable c) || (write.isSome && !s.csrWritable c) then some (s.trap Cause.privilege (csrNumber c))
  else match write with
    | some v => if csrReserved c v then some s.trapReserved else none
    | none => none

/-- A CSR access by the issuing instruction: read the old value into d, write the new value. -/
def State.csrAccess (s : State) (g : Guard) (c : Csr) (d : Option SReg) (write : Option Word) : Out :=
  if !s.guard g then .next s.adv
  else match s.csrBar c d.isSome write with
    | some s' => .next s'
    | none =>
      let old := s.curCore.csrRead s.cur.2 c
      let s := match write with
        | some v => s.modCore s.cur.1 fun k => k.csrWrite s.cur.2 c v
        | none => s
      .next (match d with
        | some d => (s.ws d old).adv
        | none => s.adv)

/-- CSRR (R138). -/
def execCsrr (g : Guard) (d : SReg) (c : Csr) (s : State) : Out := s.csrAccess g c (some d) none

/-- CSRW (R138). -/
def execCsrw (g : Guard) (c : Csr) (a : SReg) (s : State) : Out := s.csrAccess g c none (some (s.rs a))

/-- CSRX (R138). -/
def execCsrx (g : Guard) (d : SReg) (c : Csr) (a : SReg) (s : State) : Out :=
  s.csrAccess g c (some d) (some (s.rs a))

/-- TICK (R140, R409): the tick in the partition's view. -/
def execTick (g : Guard) (d : SReg) (s : State) : Out := s.setS g d (BitVec.ofNat 64 (s.view s.cur.1))

/-! ## Returning from a handler (R136 to R138) -/

/-- ERET (R136, R338): stores first (R359), then CTRL leaves the level, and a held trap is delivered. -/
def execEret (s : State) : Out :=
  let c := s.cur.1
  if s.curCore.hl == 0 then .next (s.trap Cause.controlState 2)
  else .next (((s.releaseOn c .ctrl).modCore c Core.returnFrom).deliverHeld c)

/-- What stops RESUME of stream x, by sub-code of Table 6.14. -/
def Core.resumeBar (k : Core) (x : StreamId) (skip : Bool) : Option Word :=
  let base := k.trapSet.cause.extractLsb' 2 7
  if k.hl == 0 then some 2
  else if x == .ctrl && k.trapSet.cause.extractLsb' 0 2 != 3 then some 3
  else if x != .ctrl && (k.stream x).st != .stopped then some 3
  else if skip && (base == Cause.fetchFault || base == Cause.illegalPrefix) then some 5
  else none

/-- Continue a stream at an address: CTRL at ERET, another stream at once (R137). -/
def Core.resumeAt (k : Core) (x : StreamId) (pc : VAddr) : Core :=
  if x == .ctrl then k.modTrapSet fun t => { t with retpc := pc } else k.restart x pc

/-- RESUME (R137) at an address, or the next one; stores first (R359). -/
def State.resume (s : State) (g : Guard) (x : StreamId) (skip : Bool) (pc : VAddr) (odd : Bool) : Out :=
  if !s.guard g then .next s.adv
  else match s.curCore.resumeBar x skip with
    | some sub => .next (s.trap Cause.controlState sub)
    | none =>
      if odd then .next (s.trap Cause.misaligned (pc.zeroExtend 64))
      else .next (((s.releaseOn s.cur.1 .ctrl).adv).modCore s.cur.1 fun k => k.resumeAt x pc)

/-- RESUME with retry (R137): at EPC, or at s[A]. -/
def execResumeRetry (g : Guard) (x : StreamId) (a : SReg) (s : State) : Out :=
  if a == 0 then s.resume g x false s.curCore.trapSet.epc false
  else s.resume g x false ((s.rs a).setWidth 51) ((s.rs a).getLsbD 0)

/-- RESUME with skip (R137): after the trapped instruction. -/
def execResumeSkip (g : Guard) (x : StreamId) (s : State) : Out :=
  let t := s.curCore.trapSet
  s.resume g x true (t.epc + BitVec.ofNat 51 t.len) false

end Sys2Proof.Machine
end

