-- ==== Sys2Proof/Machine/CoreEvents.lean ====
section
/-! DEFINITION. What comes about inside a core: fetch, the ends of waits and of the vector unit's work, the end of a
stream, the watchdog, held traps and uncorrectable state (spec/95). -/

namespace Sys2Proof.Machine

/-- INSTRUCTION_FETCH (R98, R103). -/
def execInstructionFetch (c : CoreId) (x : StreamId) (useCache : Bool) (s : State) : Out :=
  s.onCore c fun s => s.fetchEvent c x useCache

/-! ## Ends of waits (R22, R24, R27) -/

/-- What a stream in COUNT_WAIT waits for has come about, or a count state it needs has failed (R404). -/
def Core.waitReady (k : Core) (x : StreamId) : Bool :=
  let v := k.stream x
  v.st == .countWait && (match v.pend with
    | .src srcs _ => k.evalSources srcs != .wait
    | .dst r _ _ op => k.dstReady r op || (op.writes k r).any fun w => (k.cnt w).bad
    | _ => false)

/-- The counted registers a waiting stream names. -/
def Core.waitRegs (k : Core) (x : StreamId) : List CReg :=
  match (k.stream x).pend with
  | .src srcs _ => srcs.map (·.x)
  | .dst r _ _ op => op.writes k r
  | _ => []

/-- A stream of lower code is ready and names a register in common: it goes first (R22, R27). Between a waiting read and a
waiting write of one register by different streams, which R22 and R27 do not order, this is the model's choice (assumption
log 28). -/
def Core.waitBehind (k : Core) (x : StreamId) : Bool :=
  coreStreams.any fun y => decide (codeOf y < codeOf x) && k.waitReady y &&
    (k.waitRegs y).any fun r => (k.waitRegs x).contains r

/-- COUNT_WAIT_RESUME (R24): the sources or the destination of a waiting instruction have become ready. -/
def execCountWaitResume (c : CoreId) (x : StreamId) (s : State) : Out :=
  s.onCore c fun s =>
    let k := s.core c
    if !k.waitReady x || k.waitBehind x then s
    else match (k.stream x).pend with
      | .src srcs op => s.srcPhase c x srcs op
      | .dst r rdr debits op => s.dstPhase c x r rdr debits op
      | _ => s

/-! ## The vector unit (R146, R211) -/

/-- PIPE_CHECK on the instruction whose interval runs: its write is not performed, its debits are undone, and it is
the trapped instruction (R31, R146, assumption log 12). -/
def State.vecMismatch (s : State) (c : CoreId) (w : VecWrite) : State :=
  let s := s.modCore c fun k =>
    ({ (k.releaseReg w.dst).recredit w.debits with vwrites := k.vwrites.dropLast }).modStream .exec fun v =>
      { v with pc := w.pc, word := w.word, len := w.len, ibuf := none }
  s.pipeCheckOn c .exec .vector

/-- ISSUE_INTERVAL_END (R146): EXEC may issue again, or the instruction is stopped by a checker mismatch. -/
def execIssueIntervalEnd (c : CoreId) (mismatch : Bool) (s : State) : Out :=
  s.onCore c fun s =>
    let k := s.core c
    if k.interval == .none then s
    else
      let s' := s.modCore c fun k => { k with interval := .none }
      if mismatch && k.interval == .vec && k.exec.st == .running then
        match k.vwrites.getLast? with
        | some w => s'.vecMismatch c w
        | none => s'
      else s'

/-- EXEC goes on from its wait for a row mask register (R211). -/
def State.maskResume (s : State) (c : CoreId) : State :=
  match (s.stream c .exec).pend with
  | .maskWait srcs op k => s.maskPhase c .exec srcs op (some k)
  | _ => s

/-- VECTOR_WRITE_COMPLETE (R144, R210): write i completes; the newest one only after its interval. -/
def execVectorWriteComplete (c : CoreId) (i : Nat) (s : State) : Out :=
  s.onCore c fun s =>
    let k := s.core c
    match k.vwrites[i]? with
    | none => s
    | some w =>
      if k.interval == .vec && i + 1 == k.vwrites.length then s
      else
        let k' := { k with vwrites := k.vwrites.eraseIdx i }.completeWrite w.dst w.rdr w.data
        let k' := match w.mreg with
          | some (m, v) => { k' with m := k'.m.set m.toNat v m.isLt }
          | none => k'
        (s.setCore c k').maskResume c

/-! ## END (R134) -/

/-- A pump command of a stream is queued, running or parked. -/
def Core.pumpsOf (k : Core) (x : StreamId) : Bool :=
  let holds := fun (p : Pump) => match p with
    | .running m _ _ => m.x == x
    | .parked m _ _ _ _ => m.x == x
    | .idle => false
  k.pumpq.any (fun m => m.x == x) || holds k.pump0 || holds k.pump1

/-- Every asynchronous instruction a stream issued has completed (R134). -/
def Core.asyncDone (k : Core) (x : StreamId) : Bool :=
  (k.stream x).stores.isEmpty && !k.pumpsOf x &&
    (match x with
    | .load => k.loads.isEmpty
    | .exec => k.vwrites.isEmpty && k.geom.isEmpty && !(k.aq.any fun e => !e.isNest)
    | .store => true
    | .ctrl => !(k.aq.any AQEntry.isNest))

/-- STREAM_ENDED (R134). -/
def execStreamEnded (c : CoreId) (x : StreamId) (s : State) : Out :=
  s.onCore c fun s =>
    if (s.stream c x).pend == .finish && (s.core c).asyncDone x then
      s.modStream c x fun v => { v with st := .ended, pend := .none }
    else s

/-! ## The deadlock watchdog (R33, R34) -/

/-- An engine command of the core is in flight; a parked pump command is not (R33). -/
def Core.engineBusy (k : Core) : Bool :=
  !k.pumpq.isEmpty || k.pump0.busy || k.pump1.busy || !k.geom.isEmpty || !k.aq.isEmpty

/-- The watchdog counter advances (R33). -/
def Core.wdRuns (k : Core) : Bool :=
  k.task.isSome && k.hl == 0 && !k.engineBusy &&
    (coreStreams.all fun x => (k.stream x).st == .countWait || (k.stream x).st == .ended) &&
    (coreStreams.any fun x => (k.stream x).st == .countWait)

/-- One word of the dump (R34). -/
def dumpWord (n : Count) (x : CReg) (write : Bool) (e : BitVec 16) : Word :=
  ((0 : BitVec 16) ++ bit1 true ++ bit1 write ++ bit1 n.opn ++ n.p ++ n.c ++ (0 : BitVec 26)) ||| countEaddr x e

/-- The dump of a stream: its first waiting source, or the write that waits (R34). -/
def Core.dump (k : Core) (x : StreamId) : Word :=
  let v := k.stream x
  if v.st != .countWait then 0
  else match v.pend with
    | .src srcs _ =>
      match srcs.find? fun r => match r.exp with
        | some e => (k.cnt r.x).source e == .wait
        | none => false with
      | some r => dumpWord (k.cnt r.x) r.x false (r.exp.getD 0)
      | none => (1 : Word) <<< 47
    | .dst r _ _ op =>
      let r := match op with
        | .nest _ => if (k.cnt r).writable then CReg.acc k.nestSet.acc else r
        | _ => r
      dumpWord (k.cnt r) r true (k.cnt r).c
    | _ => (1 : Word) <<< 47

/-- WATCHDOG_EXPIRE (R33): the dump is written and COUNT_DEADLOCK raised on the waiting stream of lowest code. -/
def execWatchdogExpire (c : CoreId) (s : State) : Out :=
  s.onCore c fun s =>
    let k := s.core c
    match k.wdSince with
    | none => s
    | some t =>
      if !k.wdRuns || s.view c < t + 2 ^ 20 then s
      else match coreStreams.find? fun x => (k.stream x).st == .countWait with
        | none => s
        | some x =>
          (s.setCore c { k with wdSince := none,
                                dlwait := #v[k.dump .load, k.dump .exec, k.dump .store, k.dump .ctrl] }).trapOn c x
            Cause.countDeadlock 0

/-! ## Traps held, and uncorrectable state (R338, R404) -/

/-- TRAP_DELIVERY (R336, R338): a held trap is delivered once CTRL may take it. -/
def execTrapDelivery (c : CoreId) (s : State) : Out := s.onCore c fun s => s.deliverHeld c

/-- EADDR of ECC_UNCORRECTABLE (R404): a value that is free for a save-area header, to which the rule gives no STRUCT
(assumption log 7). -/
def eccEaddr (free : Word) (w : EccStruct) : Word :=
  let at_ := fun (st : BitVec 8) (v : BitVec 56) => st ++ v
  match w with
  | .sreg i => at_ 1 (i.zeroExtend 56)
  | .preg i => at_ 1 (i.zeroExtend 56 ||| (1 <<< 5))
  | .kreg i => at_ 1 (BitVec.ofNat 56 i.val ||| (2 <<< 5))
  | .count x => at_ 2 ((countEaddr x 0).setWidth 56)
  | .cell h => at_ 3 (h.zeroExtend 56)
  | .tag i => at_ 4 (i.zeroExtend 56)
  | .csr c => at_ 5 ((csrNumber c).setWidth 56)
  | .header => free

/-- A count state fails for good (R404). -/
def Core.failCount (k : Core) (w : EccStruct) : Core :=
  match w with
  | .count x => k.setCnt x { k.cnt x with bad := true }
  | _ => k

/-- An uncorrectable error of state without poison leaves its record (R401), and a failing count state is marked. -/
def State.eccRecord (s : State) (c : CoreId) (pc : VAddr) (ea : Word) (what : EccStruct) (syn : Nat) : State :=
  ((s.coreRecord 6 c ea.toNat pc syn).modCore c fun k => k.failCount what).useFresh

/-- An uncorrectable error of state without poison (R401, R404), with its record: asynchronous on CTRL, while it runs, where
no instruction reads the state; precise on a stream whose next instruction, or the one that waits in it, reads the failing
state, and nothing where it reads none; a failing count state raises at every later read or write of its register. -/
def State.eccState (s : State) (c : CoreId) (x : Option StreamId) (what : EccStruct) (syn : Nat) : State :=
  let ea := eccEaddr (Config.freeWord s.fresh) what
  match x, what with
  | none, _ =>
    let s := s.eccRecord c 0 ea what syn
    if (s.core c).ctrl.st == .idle then s else s.asyncTrap c Cause.eccUncorrectable ea
  | some x, .count _ => s.eccRecord c (s.stream c x).pc ea what syn
  | some x, _ =>
    if s.waitReads c x what then
      ((s.eccRecord c (s.stream c x).pc ea what syn).dropWatch c x).trapOn c x Cause.eccUncorrectable ea
    else match s.prepare c x false with
    | (s', some i) =>
      if s'.readsState i what then (s'.eccRecord c (s.stream c x).pc ea what syn).trapOn c x Cause.eccUncorrectable ea else s
    | (_, none) => s

/-- ECC_UNCORRECTABLE (R404). -/
def execEccUncorrectable (c : CoreId) (x : Option StreamId) (what : EccStruct) (s : State) : Out :=
  s.onCore c fun s => s.eccState c x what 0

end Sys2Proof.Machine
end

