-- ==== Sys2Proof/Machine/Gate.lean ====
section
/-! DEFINITION. Gates: which cores a monitoring bank covers, and stopping and restarting their clocks (spec/27 R409 to
R412). -/

namespace Sys2Proof.Machine

/-- A monitoring bank. -/
def State.bank (s : State) (b : BitVec 7) : MBank := s.banks[b.toNat]'b.isLt

/-- The state with one bank changed. -/
def State.modBank (s : State) (b : BitVec 7) (f : MBank → MBank) : State :=
  { s with banks := s.banks.set b.toNat (f (s.bank b)) b.isLt }

/-- A bank covers a core (R410): a VF's bank its partition's cores; the PF's every core, or those of PART. -/
def State.bankCore (s : State) (k : MBank) (c : CoreId) : Bool :=
  if k.owner == 0 then false
  else if k.owner == 0x7F then
    !k.bfilt.getLsbD 58 || (match cmdPart ((k.bfilt.extractLsb' 48 10).setWidth 20) with
      | some p => s.coreIn p c
      | none => false)
  else s.coreIn (s.fnPart (k.owner.setWidth 6)) c

/-- A bank's gate holds a core: one that it covers (R412), or, where a replay has diverged, one of the gang (R421). -/
def State.holdsCore (s : State) (k : MBank) (c : CoreId) : Bool :=
  k.held && (match k.only with
    | some l => l.contains c
    | none => s.bankCore k c)

/-- A bank copies a checkpoint of a core (R419). -/
def MBank.copies (k : MBank) (c : CoreId) : Bool :=
  match k.lf.copying with
  | some q => q.2.contains c
  | none => false

/-- Some bank gates a core (R412, R419). -/
def State.coreHeld (s : State) (c : CoreId) : Bool := s.banks.toList.any fun k => s.holdsCore k c || k.copies c

/-- A partition's view stops while its cores are gated, and DTOFF grows by the gated length (R409). -/
def Partition.gateTo (r : Partition) (gated : Bool) (tick : Nat) : Partition :=
  match gated, r.gatedAt with
  | true, none => { r with gatedAt := some tick }
  | false, some t => { r with gatedAt := none, dtoff := r.dtoff + (tick - t) }
  | _, _ => r

/-- A replay drives a core (R421): nothing else moves it. -/
def State.replaying (s : State) (c : CoreId) : Bool :=
  s.banks.toList.any fun k => match k.lf.resume with
    | some r => r.cores.contains c
    | none => false

/-- A core whose clocks go on meets what came about while they stood (R412): commands in progress at the translation ports that
have taken their effect, and the host's answers for pages (R363, R369). -/
def State.wake (s : State) (k : Core) : Core :=
  let gone := (s.ports.toList.filterMap fun q => q.cur.filter fun m => m.done && m.err == 0).filterMap PortCmd.removal
  s.ats.foldl (fun k e => k.priDone e.part e.pasid e.page) (gone.foldl Core.remove k)

/-- A core gated or not. -/
def State.gateCore (s : State) (k : Core) (gated : Bool) : Core :=
  { if k.gated && !gated then s.wake k else k with gated := gated }

/-- Cores and views follow the banks' gates (R409, R412); a core that a replay drives stands still for all else, while its
partition's view goes on (R421). -/
def State.gateSync (s : State) : State :=
  { s with cores := s.cores.mapFinIdx fun c k h => s.gateCore k (s.coreHeld ⟨c, h⟩ || s.replaying ⟨c, h⟩),
           parts := s.parts.mapFinIdx fun p r h => r.gateTo ((s.partCores ⟨p, h⟩).any s.coreHeld) s.tick }

/-- A bank gates the cores it covers (R412). -/
def State.gateOn (s : State) (b : BitVec 7) : State := (s.modBank b fun k => { k with held := true, only := none }).gateSync

/-- A bank's gate ends (R412): cores that no other bank holds go on. -/
def State.gateOff (s : State) (b : BitVec 7) : State :=
  if (s.bank b).held then (s.modBank b fun k => { k with held := false, only := none }).gateSync else s

/-- A bank's replay ends, or the checkpoint that it copies. -/
def MBank.stopReplay (k : MBank) : MBank := { k with lf := { k.lf with resume := none, copying := none } }

/-- A bank's replay ends, or the checkpoint that it copies, and its cores go on. -/
def State.endReplay (s : State) (b : BitVec 7) : State :=
  if (s.bank b).lf.resume.isSome || (s.bank b).lf.copying.isSome then (s.modBank b MBank.stopReplay).gateSync else s

/-- Every gate on a core ends, and every replay or checkpoint of its gang: an abandonment or a reset releases it (R412). -/
def State.ungate (s : State) (c : CoreId) : State :=
  if (s.core c).gated then
    { s with banks := s.banks.map fun (k : MBank) =>
        let k := if s.holdsCore k c then { k with held := false, only := none } else k
        if (k.lf.resume.map fun (r : Replay) => r.cores.contains c) == some true || k.copies c then k.stopReplay
        else k }.gateSync
  else s

/-- Every bank that gates a core lets go of what it gates (R412). -/
def State.releaseCore (s : State) (c : CoreId) : State :=
  ((List.range 128).map (BitVec.ofNat 7)).foldl (fun s b => if s.holdsCore (s.bank b) c then s.gateOff b else s) s

end Sys2Proof.Machine
end

