-- ==== Sys2Proof/Machine/SaveArea.lean ====
section
/-! DEFINITION. Save areas: their layout, writing a core's state into one, and reading it back (spec/20 R343 to
R346). -/

namespace Sys2Proof.Machine

/-- Bytes of an area (R343). -/
def areaSize : Nat := 0x410000

/-- The first byte of area i of a partition's save pool. -/
def Partition.area (r : Partition) (i : Nat) : Nat := r.saveBase.toNat + i * areaSize

/-- Areas of a partition's pool (R344). -/
def Partition.areas (r : Partition) : Nat := r.saveSize.toNat / areaSize

/-! ## Words of the layout -/

/-- A count word (R345). -/
def countWord (n : Count) (poison : BitVec 32) : Word := poison ++ (0 : BitVec 12) ++ bit1 n.opn ++ n.p ++ n.c

/-- The count state a count word restores. -/
def countFrom (w : Word) : Count := ⟨w.extractLsb' 0 16, w.extractLsb' 16 3, w.getLsbD 19, false, false⟩

/-- STATE (Table 20.5). -/
def stateCode : StreamState → Nat
  | .idle => 0
  | .running => 1
  | .countWait => 2
  | .otherWait => 3
  | .stopped => 4
  | .ended => 5
  | .drainStop => 6

/-- The state a restored stream resumes in (R346, Table 20.5): one saved in OTHER_WAIT executes its instruction again,
and one saved in DRAIN_STOP runs. -/
def stateFrom (n : Nat) : StreamState :=
  match n with
  | 0 => .idle
  | 2 => .countWait
  | 4 => .stopped
  | 5 => .ended
  | _ => .running

/-- Predicates as a word: bit 0 is stored as 1. -/
def predBits (p : Vector Bool 8) : Nat := (List.range 8).foldl (fun a i => a + if i == 0 || p[i]! then 2 ^ i else 0) 0

/-- A stream record (Table 20.5). -/
def streamRecord (v : Stream) (m : List (BitVec 32)) : List Byte :=
  (v.s.toList.mapIdx fun i w => leBytes 8 (if i == 0 then 0 else w.toNat)).flatten ++ leBytes 2 (predBits v.p) ++
    (v.k.toList.map fun w => leBytes 2 w.toNat).flatten ++ (m.map fun w => leBytes 4 w.toNat).flatten ++
    leBytes 8 v.pc.toNat ++ leBytes 8 (stateCode v.st) ++ leBytes 8 v.rmode.toNat ++ leBytes 8 v.loopit.toNat ++
    leBytes 8 v.jord ++ List.replicate 168 0

/-- Word i of n bytes of a region. -/
def wordAt (bs : List Byte) (n i : Nat) : Nat := field bs (n * i) n

/-- The stream a record restores; DRAINED reads zero (R133). -/
def streamFrom (bs : List Byte) : Stream :=
  { Stream.zero with
      s := Vector.ofFn fun i : Fin 32 => if i.val == 0 then 0 else BitVec.ofNat 64 (wordAt bs 8 i.val),
      p := Vector.ofFn fun i : Fin 8 => i.val != 0 && (field bs 0x100 2).testBit i.val,
      k := Vector.ofFn fun i : Fin 7 => BitVec.ofNat 16 (field bs (0x102 + 2 * i.val) 2),
      pc := BitVec.ofNat 51 (field bs 0x130 8), st := stateFrom (field bs 0x138 8),
      rmode := BitVec.ofNat 2 (field bs 0x140 8), loopit := BitVec.ofNat 64 (field bs 0x148 8),
      jord := field bs 0x150 8 }

/-- Tiles that a save keeps (R132, R342): those of the masks of streams stopped at a DPT, or all after a hard stop. -/
def Core.tmask (k : Core) : BitVec 128 :=
  let m := fun (v : Stream) => if v.at_ then v.live else 0
  if k.ctrl.hs then BitVec.allOnes 128 else m k.load ||| m k.exec ||| m k.store ||| m k.ctrl

/-- Free bytes where the spec gives a region's contents without their places (assumption log 15). -/
def freeBytes (from_ n : Nat) : List Byte := (List.range n).map fun i => Config.freeByte (from_ + i)

/-! ## Writing an area (Table 20.3) -/

/-- The header of Table 20.4. -/
def saveHeader (valid : Nat) (t : Task) (tmask : BitVec 128) (first tick : Nat) : List Byte :=
  leBytes 1 valid ++ leBytes 3 0 ++ leBytes 2 t.role ++ leBytes 2 t.gsize ++ leBytes 8 (taskidOf t.key).toNat ++
    leBytes 8 t.kernid.toNat ++ leBytes 8 tick ++ leBytes 16 tmask.toNat ++ leBytes 2 t.part.val ++ leBytes 2 first ++
    leBytes 12 0

/-- The regions of an area but for the header, with their offsets. -/
def saveRegions (k : Core) (free : Nat) : List (Nat × List Byte) :=
  [(0x40, freeBytes free 0x1C0), (0x200, freeBytes (free + 0x1C0) 0x400),
    (0x600, streamRecord k.load (List.replicate 8 0) ++ streamRecord k.exec k.m.toList ++
      streamRecord k.store (List.replicate 8 0) ++ streamRecord k.ctrl (List.replicate 8 0)),
    (0xE00, freeBytes (free + 0x5C0) 0x100),
    (0xF00, (k.accs.toList.map fun a => leBytes 8 (countWord a.cnt 0).toNat ++ leBytes 8 0 ++
      leBytes 16 a.poison.toNat).flatten),
    (0x1000, (k.tiles.toList.map fun t => leBytes 8 (countWord t.cnt t.poison).toNat).flatten),
    (0x1400, (k.sigs.toList.map fun g => leBytes 8 (countWord g.cnt 0).toNat ++ leBytes 8 g.val.toNat).flatten),
    (0x2000, (k.tags.toList.map fun w => leBytes 8 w.toNat).flatten),
    (0x3000, ((List.range 3840).map fun i => leBytes 8 ((k.cells.get? i).getD 0).toNat).flatten),
    (0x90000, (k.accs.toList.map fun a => leBytes 0x10000 a.val.toNat).flatten)] ++
  ((k.tiles.toList.zipIdx.filter fun t => k.tmask.getLsbD t.2).map fun t =>
    (0x10000 + 0x1000 * t.2, tileBytes t.1.val 0 0x1000))

/-- The bytes of a poisoned memory, each granule with its poison. -/
def State.saveMem (s : State) (p : PartId) (pa : Nat) (m : PoisonMem) (granules : Nat) : State :=
  (List.range granules).foldl (fun s g => s.writePhys p (pa + 64 * g) (m.bytes.readRange (64 * g) 64) (m.bad g)) s

/-- Write a role's area, VALID last (R343). -/
def State.saveRole (s : State) (t : Task) (k : Core) (first valid : Nat) : State :=
  let pa := (s.part t.part).area (first + t.role)
  let s := s.writePhys t.part pa [0] false
  let s := (saveRegions k s.fresh).foldl (fun s r => s.writePhys t.part (pa + r.1) r.2 false) s
  let s := s.saveMem t.part (pa + 0x110000) k.wbuf 0x4000
  let s := s.saveMem t.part (pa + 0x210000) k.cistern 0x8000
  let h := saveHeader valid t k.tmask first s.tick
  let s := s.writePhys t.part (pa + 1) (h.drop 1) false
  { s.writePhys t.part pa (h.take 1) false with fresh := s.fresh + 0x6C0 }

/-- VALID of a role's area is written as 0x00 (R343, R346, R349). -/
def State.invalidate (s : State) (p : PartId) (area : Nat) : State := s.writePhys p ((s.part p).area area) [0] false

/-- VALID of every area of a node is written as 0x00. -/
def State.invalidateAll (s : State) (n : Node) : State :=
  match n.first with
  | none => s
  | some f => (List.range n.gsize).foldl (fun s i => s.invalidate n.part (f + i)) s

/-! ## Reading an area back (R346) -/

/-- A poisoned memory read back. -/
def State.restoreMem (s : State) (p : PartId) (pa granules : Nat) : PoisonMem :=
  (List.range granules).foldl (fun m g => m.store (64 * g) (s.readPhys p (pa + 64 * g) 64) (s.physBad (pa + 64 * g) 64))
    PoisonMem.empty

/-- A restored stream under the debugger that controlled it (R280): its breakpoints and its stop go with the task, which the
spec does not say (assumption log 29). -/
def Stream.debugged (v old : Stream) : Stream := { v with brk := old.brk, dbg := old.dbg }

/-- A PWLD of the task before it was saved: what its streams wrote to counted registers still carries their order, and what they
released on cells no longer does, since the cells may be others (R346, assumption log 28). -/
def Landed.restored (l : Landed) : Landed := { l with via := l.via.filter fun h => match h with
  | .reg _ _ => true
  | .cell _ _ => false }

/-- The core a role's area restores; what the spec gives no place in it comes from the core as saved (assumption log
15). Fetch sees the cistern as it is restored, which neither R276 nor R346 says (assumption log 10). -/
def State.restoreCore (s : State) (t : Task) (old k : Core) (first : Nat) : Core :=
  let pa := (s.part t.part).area (first + t.role)
  let rd := fun (off n : Nat) => s.readPhys t.part (pa + off) n
  let tmask : BitVec 128 := BitVec.ofNat 128 (leNat (rd 0x20 16))
  let tw := rd 0x1000 0x400
  let aw := rd 0xF00 0x100
  let gw := rd 0x1400 0x200
  let rec_ := fun (i : Nat) => rd (0x600 + 0x200 * i) 0x200
  let exec := rec_ 1
  let tags := rd 0x2000 0x1000
  let cells := rd 0x3000 0x7800
  { k with
      load := (streamFrom (rec_ 0)).debugged old.load, exec := (streamFrom exec).debugged old.exec,
      store := (streamFrom (rec_ 2)).debugged old.store, ctrl := (streamFrom (rec_ 3)).debugged old.ctrl,
      m := Vector.ofFn fun i : Fin 8 => BitVec.ofNat 32 (field exec (0x110 + 4 * i.val) 4),
      tiles := Vector.ofFn fun i : Fin 128 =>
        let w : Word := BitVec.ofNat 64 (wordAt tw 8 i.val)
        ⟨if tmask.getLsbD i.val then BitVec.ofNat 32768 (leNat (rd (0x10000 + 0x1000 * i.val) 0x1000)) else 0,
          countFrom w, w.extractLsb' 32 32⟩,
      accs := Vector.ofFn fun i : Fin 8 =>
        ⟨BitVec.ofNat 524288 (leNat (rd (0x90000 + 0x10000 * i.val) 0x10000)),
          countFrom (BitVec.ofNat 64 (field aw (0x20 * i.val) 8)), BitVec.ofNat 128 (field aw (0x20 * i.val + 16) 16)⟩,
      sigs := Vector.ofFn fun i : Fin 32 =>
        ⟨BitVec.ofNat 64 (field gw (16 * i.val + 8) 8), countFrom (BitVec.ofNat 64 (field gw (16 * i.val) 8))⟩,
      cistern := s.restoreMem t.part (pa + 0x210000) 0x8000, wbuf := s.restoreMem t.part (pa + 0x110000) 0x4000,
      codeView := some (s.restoreMem t.part (pa + 0x210000) 0x8000),
      tags := Vector.ofFn fun i : Fin 512 => BitVec.ofNat 64 (wordAt tags 8 i.val),
      cells := ((List.range 3840).filterMap fun i =>
          let v := wordAt cells 8 i
          if v == 0 then none else some (i, BitVec.ofNat 64 v)) ++ k.cells.filter (fun e => decide (3840 ≤ e.1)),
      gmode := old.gmode, pqlim := old.pqlim, uhvec := old.uhvec, udeleg0 := old.udeleg0, udeleg1 := old.udeleg1,
      shvec := old.shvec, hl := old.hl, entry1 := old.entry1, entry2 := old.entry2, bank1 := old.bank1,
      bank2 := old.bank2, trap1 := old.trap1, trap2 := old.trap2, held := old.held, escal := old.escal,
      ctrlEsc := old.ctrlEsc, posted := old.posted, forked := old.forked, barOrd := old.barOrd, barArr := old.barArr,
      landed := old.landed.map Landed.restored, nestSet := old.nestSet, npck := old.npck, ngrp := old.ngrp, nfault := old.nfault, gstat := old.gstat,
      task := some t, lastPart := some t.part, zeroing := false }

end Sys2Proof.Machine
end

