-- ==== Sys2Proof/Machine/Context.lean ====
section
/-! DEFINITION. Drain, hard stop, save, restore, zeroing, abandonment, and the host's answers to escalations (spec/20
R339 to R349, spec/25 R397, spec/23 R376). -/

namespace Sys2Proof.Machine

/-! ## Slice end and drain (R340, R341, R344, R397) -/

/-- Area i of a partition's pool is reserved by some node (R344). -/
def State.areaUsed (s : State) (p : PartId) (i : Nat) : Bool :=
  s.nodes.any fun n => n.part == p && (match n.first with
    | some f => decide (f ≤ i) && decide (i < f + n.gsize)
    | none => false)

/-- The lowest run of free areas that a gang needs (R344). -/
def State.freeRun (s : State) (p : PartId) (g : Nat) : Option Nat :=
  let n := (s.part p).areas
  (List.range (n + 1 - g)).find? fun f => (List.range g).all fun i => !s.areaUsed p (f + i)

/-- DRAIN reaches a core (R340). HS left by a hard stop of a drain that was withdrawn is cleared (assumption log 16). -/
def Core.drainOn (k : Core) (view : Nat) : Core :=
  let on := fun (v : Stream) => { v with dr := true, hs := false }
  { k with load := on k.load, exec := on k.exec, store := on k.store, ctrl := on k.ctrl, drainSince := some view }

/-- DRAIN to a gang that has a run of save areas; one that has none, or that the pool could never hold, is left to
retire (R344, R397). -/
def State.drainNode (s : State) (n : Node) : State :=
  if (s.part n.part).saveSize.toNat < n.gsize * areaSize then s
  else match s.freeRun n.part n.gsize with
    | none => s
    | some f =>
      let s := n.cores.foldl (fun s c => s.modCore c fun k => k.drainOn (s.viewOf n.part)) s
      s.modNode n.key fun m => { m with draining := true, first := some f }

/-- Queue number, then node index (R344). -/
def drainBefore (a b : Node) : Bool :=
  keyBefore (a.key.queue.toNat, a.key.node.toNat, a.key.seq.toNat) (b.key.queue.toNat, b.key.node.toNat, b.key.seq.toNat) ||
    a.key == b.key

/-- A DISPATCHING node gives its cores back and is READY again, in its place (R340, Table 25.2). -/
def State.undispatch (s : State) (p : PartId) : State :=
  s.mapNodes (fun n => n.part == p && n.st == .dispatching) fun n =>
    { n with st := if n.first.isSome then .preempted else .ready, cores := [], since := s.viewOf n.part }

/-- The successor of the holder of a group (R397). -/
def State.successor (s : State) (g : BitVec 4) (p : PartId) : Option PartId :=
  let ok := fun (q : PartId) =>
    let r := s.part q
    q != p && r.en && r.shared && r.group == g && s.nodes.any fun n => n.part == q && s.inWell n
  let order := (List.finRange 64).filter (fun q => decide (p.val < q.val)) ++
    (List.finRange 64).filter fun q => decide (q.val < p.val)
  order.find? ok

/-- Some core of a partition is gated: slice ends and drains wait (R412). -/
def State.partGated (s : State) (p : PartId) : Bool := (s.partCores p).any fun c => (s.core c).gated

/-- SLICE_END (R340, R397, Table 25.2): the slice is renewed, or the holder drains or finishes; a node DISPATCHING is READY
again. -/
def execSliceEnd (grp : BitVec 4) (s : State) : Out :=
  let g := s.groups[grp.toNat]'grp.isLt
  .next (match g.holder, g.start with
    | some p, some t =>
      if g.ending || s.viewOf p < t + 1024 * (s.part p).slice.toNat || s.partGated p then s
      else match s.successor grp p with
        | none => s.modGroup grp fun g => { g with start := some (s.viewOf p) }
        | some q =>
          let s' := (s.modGroup grp fun g => { g with ending := true, next := some q, sent := false, saved := false }).undispatch p
          if (s.part p).retire then s'
          else
            let s' := ((s'.nodes.filter fun n => n.part == p && n.st == .running).mergeSort drainBefore).foldl State.drainNode s'
            s'.modGroup grp fun g => { g with sent := s'.nodes.any fun n => n.part == p && n.draining }
    | _, _ => s)

/-- A stream after the withdrawal of a drain (R341): one that stands at a DPT goes on, and an instruction that a hard stop
abandoned in OTHER_WAIT is executed again (R337). -/
def Stream.undrain (v : Stream) : Stream :=
  { v with dr := false, cl := false, at_ := false,
           st := if v.st == .drainStop || (v.st == .otherWait && v.pend == .none) then .running else v.st }

/-- A core after the withdrawal of a drain (R341). -/
def Core.undrain (k : Core) : Core :=
  { k with load := k.load.undrain, exec := k.exec.undrain, store := k.store.undrain, ctrl := k.ctrl.undrain,
           drainSince := none }

/-- The drain of a node is to be withdrawn (R341, Table 25.2): the successor has no READY node left, and no save of a role of its
partition has begun since the slice ended. Where every gang that DRAIN was sent to has retired and another runs on, it is withdrawn
from none, and the slice is renewed. -/
def State.withdrawable (s : State) (n : Node) : Bool :=
  let g := s.groupOf n.part
  (n.draining || (n.st == .running && g.ending && g.sent)) && !g.saved && !(match g.next with
    | some q => s.nodes.any fun m => m.part == q && s.inWell m
    | none => false)

/-- DRAIN_WITHDRAW (R341, Table 25.2): before any save has begun, a drain whose successor has no READY node left is
withdrawn from every gang of the partition, and the slice is renewed. The turn does so as soon as that comes about (assumption
log 6). -/
def execDrainWithdraw (k : NodeKey) (s : State) : Out :=
  .next (match s.node k with
    | none => s
    | some n =>
      let all := s.nodes.filter fun m => m.part == n.part && m.draining
      let cores := all.flatMap (·.cores)
      if !s.withdrawable n || s.partGated n.part then s
      else
        let s := cores.foldl (fun s c => s.modCore c Core.undrain) s
        let s := s.mapNodes (fun m => m.part == n.part && m.draining) fun m => { m with draining := false, first := none }
        let s := s.modGroup (s.part n.part).group fun g =>
          { g with ending := false, next := none, sent := false, start := some (s.viewOf n.part) }
        s.owe fun p _ => p == n.part)

/-! ## The end of a core's drain, and the hard stop (R340, R342) -/

/-- A pump runs or holds a queued command; a parked one does not count (R340). -/
def Core.pumpsLive (k : Core) : Bool := !k.pumpq.isEmpty || k.pump0.busy || k.pump1.busy

/-- Nothing the streams issued is still on its way. -/
def Core.quiet (k : Core) : Bool :=
  !k.pumpsLive && k.aq.isEmpty && k.geom.isEmpty && k.vwrites.isEmpty && k.interval == .none && k.loads.isEmpty &&
    coreStreams.all fun x => (k.stream x).stores.isEmpty

/-- No write to a counted register is reserved. -/
def Core.unreserved (k : Core) : Bool :=
  (k.tiles.toList.all fun t => !t.cnt.rsv) && (k.accs.toList.all fun t => !t.cnt.rsv) &&
    k.sigs.toList.all fun t => !t.cnt.rsv

/-- A stream is where drain wants it (R340): at a DPT, ENDED, IDLE, or at END with only parked pumps to wait for. -/
def Core.atRest (k : Core) (x : StreamId) : Bool :=
  let v := k.stream x
  v.st == .drainStop || v.st == .ended || v.st == .idle || v.pend == .finish

/-- The core's drain is complete (R340, R427). -/
def Core.drainDone (k : Core) : Bool :=
  coreStreams.all k.atRest && k.hl == 0 && k.held.isEmpty && k.quiet && k.unreserved

/-- After the hard stop: what had passed its waits has completed (R342). -/
def Core.stopDone (k : Core) : Bool :=
  k.quiet && coreStreams.all fun x => (k.stream x).hs && (match (k.stream x).pend with
    | .lds _ => false
    | .sem _ => false
    | _ => true)

/-- The hard stop reaches a stream (R342): a waiting instruction is abandoned with nothing performed, one that has
passed its waits goes on. -/
def Core.hardStopOn (k : Core) (x : StreamId) : Core :=
  let k' := match (k.stream x).pend with
    | .lds _ => k
    | .sem _ => k
    | _ => k.abandonWait x
  k'.modStream x fun v => { v with hs := true, ibuf := none }

/-- A command ends ABANDONED at unit u with some readers (R222, R225): the bytes of that unit are unpredictable. -/
def State.abandonCmd (s : State) (c : CoreId) (m : PumpCmd) (rdr : BitVec 3) (u : Nat) : State :=
  (s.scramble c m u).modCore c fun k => (k.completeWrite (.sig m.g) rdr (.sig (completionWord 0x02 u))).land m

/-- Queued pump commands end ABANDONED, in order (R222, R342). -/
def State.abandonQueue (s : State) (c : CoreId) : State :=
  (s.core c).pumpq.foldl (fun s m => s.abandonCmd c m m.rdr m.start) (s.modCore c fun k => { k with pumpq := [] })

/-- A running pump command ends ABANDONED (R222, R342). -/
def State.abandonPump (s : State) (c : CoreId) (second : Bool) : State :=
  match (s.core c).pump second with
  | .running m u sent => (s.dropSent sent).pumpEnd c second m 0x02 u
  | _ => s

/-- Pump commands under the hard stop (R342). -/
def State.abandonPumps (s : State) (c : CoreId) : State :=
  ((s.abandonPump c false).abandonPump c true).abandonQueue c

/-- Packets that a stream's semaphore wait has outstanding are no longer its. -/
def State.dropSemPacket (s : State) (c : CoreId) (x : StreamId) : State :=
  match (s.stream c x).pend with
  | .semwt w => (s.semDone w.target w.seq).dropWatch c x
  | _ => s

/-- HARD_STOP (R306, R342): 120,000 ticks after DRAIN; the turn takes it at that tick (assumption log 6). -/
def execHardStop (c : CoreId) (s : State) : Out :=
  s.onCore c fun s =>
    let k := s.core c
    match k.drainSince with
    | none => s
    | some t =>
      if s.view c < t + 120000 || k.saving || k.ctrl.hard || k.drainDone then s
      else
        let s := coreStreams.foldl (fun s x => (s.dropSemPacket c x).modCore c fun k => k.hardStopOn x) s
        s.abandonPumps c

/-- Parked commands are ended before a save as PCANCEL with no readers would end them (R225, R343). -/
def State.cancelParked (s : State) (c : CoreId) (second : Bool) : State :=
  match (s.core c).pump second with
  | .parked m u _ _ _ => (s.abandonCmd c m 0 u).modCore c fun k => k.setPump second .idle
  | _ => s

/-- The save of a role as it stands (R343): VALID stays 0x00 until the gang's save is complete. -/
def State.saveCore (s : State) (c : CoreId) (first valid : Nat) : State :=
  match (s.core c).task with
  | some t => s.saveRole t (s.core c) first valid
  | none => s

/-- A core at rest: END is executed again after the restore. -/
def Core.settle (k : Core) : Core :=
  let f := fun (v : Stream) => if v.pend == .finish then { v with pend := .none } else v
  { k with load := f k.load, exec := f k.exec, store := f k.store, ctrl := f k.ctrl }

/-- The node of a core's task. -/
def State.nodeOf (s : State) (c : CoreId) : Option Node :=
  match (s.core c).task with
  | some t => s.node t.key
  | none => none

/-- DRAIN_COMPLETE (R340, R342, R343): the core's save begins, unless the drain is to be withdrawn (Table 25.2). -/
def execDrainComplete (c : CoreId) (s : State) : Out :=
  s.onCore c fun s =>
    let k := s.core c
    match s.nodeOf c with
    | none => s
    | some n =>
      match n.first with
      | none => s
      | some f =>
        if !n.draining || k.saving || !(k.drainDone || k.stopDone) || s.withdrawable n then s
        else
          let s := s.modGroup (s.part n.part).group fun g => { g with saved := true }
          (((s.cancelParked c false).cancelParked c true).modCore c fun k =>
            { k.settle with saving := true, drainSince := none }).saveCore c f 0

/-! ## Save, restore and zeroing (R343 to R347) -/

/-- VALID of a role as it will be written (Table 20.4). -/
def Core.validByte (k : Core) : Nat := if k.ctrl.hs then 2 else 1

/-- SAVE_COMPLETE (R343): every role's area is valid, the cores are zeroed, and the node is PREEMPTED and re-enters
the well in its old place (R331, R346). A member of a co-resident set that is saved alone counts its time as READY from here, and does
not compete before the others are saved too: R323 does not say (assumption log 25). -/
def execSaveComplete (k : NodeKey) (s : State) : Out :=
  .next (match s.node k with
    | none => s
    | some n =>
      match n.first with
      | none => s
      | some f =>
        if n.st != .running || n.cores.isEmpty || !(n.cores.all fun c => (s.core c).saving && !(s.core c).gated) then s
        else
          let saves := n.cores.map s.core
          let s := n.cores.foldl (fun s c => s.saveCore c f (s.core c).validByte) s
          let s := s.freeCores n true
          let s := s.modNode k fun m =>
            { m with st := .preempted, draining := false, saves := saves, since := s.viewOf n.part }
          s)

/-- ZEROING_COMPLETE (R347): the core is free for its next owner. -/
def execZeroingComplete (c : CoreId) (s : State) : Out :=
  s.onCore c fun s =>
    if !(s.core c).zeroing then s
    else
      (s.modCore c fun k => { k with zeroing := false }).oweCores [c]

/-- An escalation that was pending at the save is posted again (R339). -/
def State.repost (s : State) (c : CoreId) (e : Escal) : State :=
  s.postMail (s.recordFn c e.trap) (escalationRecord s c e.trap e.hl e.tick)

/-- The roles of one node are restored onto their cores (R346). -/
def State.restoreNode (s : State) (unit : List Node) (n : Node) : State :=
  match n.first with
  | none => s
  | some f =>
    let one := fun (s : State) (ci : CoreId × Nat) =>
      match n.saves[ci.2]? with
      | none => s
      | some old =>
        let start := match old.task with
          | some t => t.start
          | none => s.viewOf n.part
        s.modCore ci.1 fun k => s.restoreCore (n.task unit ci.2 ci.1 start) old k f
    let s := n.cores.zipIdx.foldl one s
    let s := (s.invalidateAll n).modNode n.key fun m =>
      { m with st := .running, first := none, saves := [], draining := false }
    n.cores.foldl (fun s c => ((s.core c).escal.foldl (fun s e => s.repost c e) s).deliverHeld c) s

/-- GANG_RESTORE (R298, R346): a pre-empted unit resumes in one step. -/
def execGangRestore (k : NodeKey) (s : State) : Out :=
  .next (match s.node k with
    | none => s
    | some n =>
      if n.st != .dispatching || n.first.isNone || !s.unitReady (s.unitOf n) then s
      else
        let s := s.giveDomains n
        let unit := s.nodes.filter fun m => m.sameSet n && m.st == .dispatching
        (unit.foldl (fun s m => s.restoreNode unit m) s).oweRest n.part)

/-! ## Abandonment and reset (R348, R349) -/

/-- A gang stops without a save (R348, R412): gates on it are released, its pump commands end ABANDONED and its areas
hold nothing. -/
def State.stopGang (s : State) (n : Node) : State :=
  let s := n.cores.foldl (fun s c => (s.ungate c).abandonPumps c) s
  let s := n.cores.foldl (fun s c => coreStreams.foldl (fun s x => s.dropSemPacket c x) s) s
  s.invalidateAll n

/-- An abandoned node is RETIRED, and none of its outgoing edges is taken (R348). -/
def State.abandonNode (s : State) (n : Node) : State :=
  if n.over then s else (s.stopGang n).retireNode n true true

/-- HOST_ABANDON (R348): every node of a launch that is not over is abandoned. -/
def execHostAbandon (q : BitVec 15) (seq : BitVec 32) (s : State) : Out :=
  .next ((s.nodes.filter fun n => n.key.queue == q && n.key.seq == seq).foldl (fun s n =>
    match s.node n.key with
    | some m => s.abandonNode m
    | none => s) s)

/-- A node is removed by a reset (R349). -/
def State.removeNode (s : State) (n : Node) : State :=
  let s := (s.stopGang n).freeCores n true
  { s with nodes := s.nodes.filter fun m => m.key != n.key }.idleDeficits

/-- A bank as a claim or a release leaves it (R410). -/
def MBank.cleared (owner : BitVec 7) : MBank := { MBank.zero with owner := owner }

/-- A bank passes to an owner, cleared; its gate ends (R400, R410, R412). -/
def State.giveBank (s : State) (b : BitVec 7) (owner : BitVec 7) : State :=
  ((s.gateOff b).endReplay b).modBank b fun _ => MBank.cleared owner

/-- The banks of a virtual function after its reset (R400): pool banks are released, the reserved bank is cleared. -/
def State.resetBanks (s : State) (vf : BitVec 6) : State :=
  (List.range 128).foldl (fun s i =>
    let b := BitVec.ofNat 7 i
    if (s.bank b).owner == vf.zeroExtend 7 then
      s.giveBank b (if 1 ≤ i && i ≤ 63 then vf.zeroExtend 7 else 0)
    else s) s

/-- FUNCTION_LEVEL_RESET (R349, R400): the nodes of the function's queues end, with no completion; its queues are
DISABLED. -/
def execFunctionLevelReset (vf : BitVec 6) (s : State) : Out :=
  .next (if vf == 0 then s
    else
      let mine := fun (q : Nat) => match s.queues.get? q with
        | some k => k.fn == vf
        | none => false
      let s := (s.nodes.filter fun n => mine n.key.queue.toNat).foldl State.removeNode s
      let off := fun (q : Queue) => { q with st := .disabled, halt := 0, hidx := 0, hsub := 0, hedge := false, cmd := none,
                                             req := false, wait := none, signals := [] }
      let s := { s with launches := s.launches.filter (fun l => !mine l.queue.toNat),
                        queues := s.queues.map fun (q : Nat × Queue) => if mine q.1 then (q.1, off q.2) else q }
      s.resetBanks vf)

/-! ## The host at its port (R339, R376, R279) -/

/-- The oldest pending escalation that an answer names. -/
def State.escalOf (s : State) (fn : BitVec 6) (taskid : Word) (role : BitVec 16) : Option (CoreId × Escal) :=
  (List.finRange 208).findSome? fun c =>
    match (s.core c).task with
    | none => none
    | some t =>
      if taskidOf t.key == taskid && BitVec.ofNat 16 t.role == role then
        ((s.core c).escal.find? fun e => s.recordFn c e.trap == fn).map fun e => (c, e)
      else none

/-- An answer is ignored and counted (R376); in minimal mode a virtual function's is discarded (R389). -/
def State.ignoreAnswer (s : State) (fn : BitVec 6) : State :=
  if s.boot.stage == .minimal && fn != 0 then s else s.modMbox fn fun m => { m with ignored := m.ignored + 1 }

/-- A count state is lost: Ovone answers ABANDON itself (R405). -/
def TrapRec.countLost (t : TrapRec) : Bool := t.base == Cause.eccUncorrectable && t.eaddr.extractLsb' 56 8 == 0x02

/-- The stream of an escalated trap goes on at an address (R339): CTRL at its level, at rest again if it had stopped
at a DPT under drain (R427), and still STOPPED where a debugger holds it (R280, assumption log 29). -/
def Core.resumeEscal (k : Core) (e : Escal) (pc : VAddr) : Core :=
  let k := { k with escal := k.escal.erase e }
  if e.trap.x == .ctrl || e.trap.async then
    let st := if k.ctrl.dbg == .stopped then StreamState.stopped
      else if k.hl == 0 && k.ctrl.at_ && k.ctrl.dr then .drainStop else .running
    { k with ctrlEsc := false, ctrl := { k.ctrl with st := st, pc := pc, pend := .none, walk := none, ibuf := none } }
  else if (k.stream e.trap.x).st == .stopped then k.restart e.trap.x pc
  else k

/-- RETRY and SKIP (R339): the stream goes on and held traps are delivered; an answer for a gated core is kept until its
release (R412). -/
def State.answer (s : State) (fn : BitVec 6) (taskid : Word) (role : BitVec 16) (skip : Bool) : State :=
  match s.escalOf fn taskid role with
  | none => s.ignoreAnswer fn
  | some (c, e) =>
    if (s.core c).gated then { s with answers := s.answers ++ [⟨fn, taskid, role, skip⟩] }
    else if e.trap.countLost then s.ignoreAnswer fn
    else if skip && (e.trap.base == Cause.fetchFault || e.trap.base == Cause.illegalPrefix) then s.repost c e
    else (s.modCore c fun k => k.resumeEscal e (if skip then e.trap.epc + BitVec.ofNat 51 e.trap.len else e.trap.epc)).deliverHeld c

/-- The core of an answer that was kept is no longer gated. -/
def State.answerDue (s : State) (a : HeldAnswer) : Bool :=
  match s.escalOf a.fn a.taskid a.role with
  | some (c, _) => !(s.core c).gated
  | none => true

/-- Answers that were kept for a gated core are delivered after its release (R412). -/
def State.deliverAnswers (s : State) : State :=
  let due := s.answers.filter s.answerDue
  due.foldl (fun s a => s.answer a.fn a.taskid a.role a.skip)
    { s with answers := s.answers.filter fun a => !s.answerDue a }

/-- A core whose escalation says that a count state is lost: Ovone abandons its gang itself (R405). -/
def State.lostCount (s : State) : Option Node :=
  (List.finRange 208).findSome? fun c =>
    if (s.core c).escal.any fun e => e.trap.countLost then s.nodeOf c else none

/-- ANSWER_RETRY (R339). -/
def execAnswerRetry (fn : BitVec 6) (taskid : Word) (role : BitVec 16) (s : State) : Out := .next (s.answer fn taskid role false)

/-- ANSWER_SKIP (R339). -/
def execAnswerSkip (fn : BitVec 6) (taskid : Word) (role : BitVec 16) (s : State) : Out := .next (s.answer fn taskid role true)

/-- ANSWER_ABANDON (R339, R348). -/
def execAnswerAbandon (fn : BitVec 6) (taskid : Word) (role : BitVec 16) (s : State) : Out :=
  .next (match s.escalOf fn taskid role with
    | none => s.ignoreAnswer fn
    | some (c, _) =>
      match s.nodeOf c with
      | some n => s.abandonNode n
      | none => s)

/-- Records held back are posted in order while the ring has room (R376). -/
def State.refill (s : State) (fn : BitVec 6) : Nat → State
  | 0 => s
  | n + 1 =>
    let m := s.mboxes[fn.toNat]'fn.isLt
    match m.heldBack with
    | [] => s
    | r :: rest =>
      if (m.mbwr - m.mbrd).toNat < 64 then
        ((((s.modMbox fn fun m => { m with heldBack := [] }).postMail fn r).modMbox fn fun m =>
          { m with heldBack := rest })).refill fn n
      else s

/-- MBRD_WRITE (R376). -/
def execMbrdWrite (fn : BitVec 6) (v : BitVec 32) (s : State) : Out :=
  .next (if s.boot.stage == .minimal && fn != 0 then s
    else
      let s := s.modMbox fn fun m => { m with mbrd := v }
      s.refill fn (s.mboxes[fn.toNat]'fn.isLt).heldBack.length)

/-- HOST_MEMORY_ACCESS (R279, R390, R403): the host reads n bytes, or writes some, of device or host memory, under a
partition's key. -/
def execHostMemoryAccess (p : PartId) (pa : BitVec 52) (n : Nat) (write : Option (List Byte)) (s : State) : Out :=
  let a := pa.toNat
  let ok := fun (len : Nat) => (inDram a || inHost a) && (inDram (a + len - 1) || inHost (a + len - 1)) && decide (0 < len)
  s.bar0 fun s => (match write with
    | some bs => if ok bs.length then s.writePhys p a bs false else s
    | none => if ok n then { s with hostRead := s.readPhys p a n } else s)

end Sys2Proof.Machine
end

