-- ==== Sys2Proof/Machine/Banks.lean ====
section
/-! DEFINITION. Monitoring banks: owners, registers, tick stops, samples (spec/25 R399, R400, spec/27 R409 to R418). -/

namespace Sys2Proof.Machine

/-! ## Owners (R399, R400) -/

/-- The state with one function's registers changed. -/
def State.modFn (s : State) (fn : BitVec 6) (f : FnRegs → FnRegs) : State :=
  { s with fns := s.fns.set fn.toNat (f (s.fns[fn.toNat]'fn.isLt)) fn.isLt }

/-- A bank reserved to a virtual function. -/
def reservedBank (b : BitVec 7) : Bool := decide (1 ≤ b.toNat) && decide (b.toNat ≤ 63)

/-- The owner number of a function: 0x7F is the physical one's (R399). -/
def ownerOf (fn : BitVec 6) : BitVec 7 := if fn == 0 then 0x7F else fn.zeroExtend 7

/-- A function owns a bank and, when it is virtual, reaches it through its window (R410). -/
def State.ownsBank (s : State) (fn : BitVec 6) (b : BitVec 7) : Bool :=
  (s.bank b).owner == ownerOf fn && (fn == 0 || (s.fns[fn.toNat]'fn.isLt).bsel == b)

/-- A write by an owner: another's changes nothing (R410). -/
def State.bankWrite (s : State) (fn : BitVec 6) (b : BitVec 7) (f : State → State) : Out :=
  s.bar0 fun s => if s.ownsBank fn b then f s else s

/-- The notice of a claim to the function that held the bank (R400). -/
def State.claimNotice (s : State) (b : BitVec 7) : State :=
  let o := (s.bank b).owner
  if o == 0 || o == 0x7F then s
  else s.postMail (o.setWidth 6) (recordOf (leBytes 1 5 ++ leBytes 1 b.toNat ++ leBytes 6 0 ++ leBytes 8 s.tick))

/-- The result of a claim by a virtual function: 0 granted, 1 busy, 2 not allowed. -/
def State.bclaim (s : State) (fn : BitVec 6) (b : BitVec 7) (v : BitVec 2) : State :=
  s.modFn fn fun r => { r with claim := b, bclaim := v }

/-- The physical function's claim (R400): the bank is cleared before it passes. A virtual function that claimed it in this
very tick reads busy after all, and gets no notice. -/
def State.pfClaim (s : State) (b : BitVec 7) : State :=
  let k := s.bank b
  let fn : BitVec 6 := k.owner.setWidth 6
  if k.claimed == some s.tick then
    (if (s.fns[fn.toNat]'fn.isLt).claim == b then s.bclaim fn b 1 else s).giveBank b 0x7F
  else (s.claimNotice b).giveBank b 0x7F

/-- BANKOWN_WRITE (R399, R400). -/
def execBankownWrite (b v : BitVec 7) (s : State) : Out :=
  s.bar0 fun s =>
    if reservedBank b then s
    else if v == 0x7F then s.pfClaim b
    else if v == 0 && (s.bank b).owner == 0x7F then s.giveBank b 0
    else s

/-- BCLAIM_CLAIM (R399, R400): against a claim of the physical function in the same tick it reads busy. -/
def execBclaimClaim (fn : BitVec 6) (b : BitVec 7) (pfToo : Bool) (s : State) : Out :=
  s.bar0 fun s =>
    if fn == 0 then s
    else if reservedBank b then s.bclaim fn b 2
    else
      let mine := (s.giveBank b (ownerOf fn)).modBank b fun k => { k with claimed := some s.tick }
      if (s.bank b).owner == 0 || (s.bank b).owner == ownerOf fn then
        (if pfToo then mine.pfClaim b else mine).bclaim fn b (if pfToo then 1 else 0)
      else (if pfToo then s.pfClaim b else s).bclaim fn b 1

/-- BCLAIM_RELEASE (R399): the bank is cleared. -/
def execBclaimRelease (fn : BitVec 6) (b : BitVec 7) (s : State) : Out :=
  s.bar0 fun s =>
    if fn != 0 && !reservedBank b && (s.bank b).owner == ownerOf fn then s.giveBank b 0 else s

/-! ## Registers (Table 27.1) -/

/-- BCTL_WRITE (R410, R418): a mode of 3 discards the write; TOTAL, the cells and the sample counters clear; an event
this part lacks sets ABSENT. -/
def execBctlWrite (fn : BitVec 6) (b : BitVec 7) (v : Word) (s : State) : Out :=
  s.bankWrite fn b fun s =>
    let mode : BitVec 2 := v.extractLsb' 0 2
    let ev : BitVec 8 := v.extractLsb' 8 8
    if mode == 3 then s
    else s.modBank b fun k =>
      { k with mode := mode, keyKern := v.getLsbD 2, event := ev, total := 0, cells := [], samples := [], pend := [],
               absent := k.absent || decide (0x0C ≤ ev.toNat) }

/-- BSTAT (Table 27.1). -/
def MBank.bstat (k : MBank) : Word :=
  k.tdrop ++ (0 : BitVec 25) ++ bit1 k.diverged ++ bit1 k.noroom ++ bit1 k.nock ++ bit1 k.tovf ++ bit1 k.late ++
    bit1 k.absent ++ bit1 k.sat

/-- What a function may read: the physical one any bank, a virtual one that it holds and selects (R410). -/
def State.readsBank (s : State) (fn : BitVec 6) (b : BitVec 7) : Bool := fn == 0 || s.ownsBank fn b

/-- A read that a function cannot make returns zero (R389, R410). -/
def State.bankRead (s : State) (fn : BitVec 6) (b : BitVec 7) (v : Word) (f : MBank → MBank) : State :=
  if s.boot.stage == .minimal || !s.readsBank fn b then { s with hostRead := leBytes 8 0 }
  else { s.modBank b f with hostRead := leBytes 8 v.toNat }

/-- BSTAT_READ (Table 27.1): the read clears bits [6:0]. -/
def execBstatRead (fn : BitVec 6) (b : BitVec 7) (s : State) : Out :=
  .next (s.bankRead fn b (s.bank b).bstat fun k =>
    { k with sat := false, absent := false, late := false, tovf := false, nock := false, noroom := false,
             diverged := false })

/-! ## Stops on a named tick (R411 to R413) -/

/-- The view a bank's STOPTICK is compared with (R409): that of the one partition it covers, or the tick itself where
it covers more (assumption log 23). -/
def State.bankView (s : State) (k : MBank) : Nat :=
  if k.owner == 0x7F then
    (if !k.bfilt.getLsbD 58 then s.tick
     else match cmdPart ((k.bfilt.extractLsb' 48 10).setWidth 20) with
      | some p => s.viewOf p
      | none => s.tick)
  else s.viewOf (s.fnPart (k.owner.setWidth 6))

/-- STOPTICK_ARM (R411): at or past its tick a stop is not armed, and LATE is set. -/
def execStoptickArm (fn : BitVec 6) (b : BitVec 7) (tick : Word) (arm act : Bool) (s : State) : Out :=
  s.bankWrite fn b fun s =>
    let late := decide (tick.toNat ≤ s.bankView (s.bank b))
    s.modBank b fun k => { k with stoptick := tick, act := act, arm := arm && !late, late := k.late || late }

/-- A core under TRAP (R413): TICK_STOP on CTRL, with the ticks since its task started; a role that has retired has none
(R285). -/
def State.tickStop (s : State) (k : MBank) (c : CoreId) : State :=
  match (s.core c).task with
  | none => s
  | some t => if s.bankCore k c && (s.core c).ctrl.st != .idle then s.asyncTrap c Cause.tickStop (k.stoptick - BitVec.ofNat 64 t.start) else s

/-- STOP_TICK (R411 to R413): the view has reached STOPTICK; ARM clears, and the covered cores are gated or trapped. -/
def execStopTick (b : BitVec 7) (s : State) : Out :=
  let k := s.bank b
  .next (if !k.arm || s.bankView k < k.stoptick.toNat then s
    else
      let s := s.modBank b fun k => { k with arm := false }
      if k.act then (List.finRange 208).foldl (fun s c => s.tickStop k c) s else s.gateOn b)

/-! ## Samples (R414, R415) -/

/-- A bank's address as the device writes to it: physical for the PF's, through stage 2 for a VF's (R410). A write to a page
that a MIGRATE moves is performed on its old frame, before the copy reads it (R365). -/
def State.bankAddr (s : State) (k : MBank) (a : Nat) : Option (PartId × Nat) :=
  if k.owner == 0x7F then (if inDram a || inHost a then some (0, a) else none)
  else
    let p := s.fnPart (k.owner.setWidth 6)
    match { s with ports := s.ports.map fun (q : Port) => { q with cur := none } }.stage2 p .write false a with
    | .ok t => if inDram t.pa || inHost t.pa then some (p, t.pa) else none
    | _ => none

/-- The device writes bytes that stay inside one page for a bank, with their poison. -/
def State.bankStore (s : State) (k : MBank) (a : Nat) (bs : List Byte) (poison : Bool) : State :=
  match s.bankAddr k a with
  | some (p, pa) => s.writePhys p pa bs poison
  | none => s

/-- The access of a request has been performed, or given up (R414); a PREM unit is complete with its acknowledgement, and a unit of a
command once its pump stands at another. -/
def State.reqDone (s : State) (o : ReqOwner) : Bool :=
  match o with
  | .walk c x => (s.stream c x).walk.isNone
  | .load c n => !((s.core c).loads.any fun r => r.seq == n && r.buf.isNone)
  | .store c x n => !((s.stream c x).stores.any fun r => r.seq == n)
  | .lds c x n => match (s.stream c x).pend with
    | .lds o => o.seq != n
    | _ => true
  | .unit c second n => match (s.core c).pump second with
    | .running m u _ => unitNumber m u != n
    | _ => true
  | .group c n => match (s.core c).aq with
    | .nest r :: _ => r.grp != n
    | _ => true

/-- Sampled requests that are complete now are so from this tick on (R414). -/
def State.samplesDone (s : State) : State :=
  let note := fun (q : Sampled) =>
    if q.done.isNone && s.reqDone q.owner then { q with done := some (s.view q.owner.core, s.tick) } else q
  if s.banks.toList.all fun b => b.pend.isEmpty then s
  else { s with banks := s.banks.map fun (b : MBank) => { b with pend := b.pend.map note } }

/-- A hop's ticks: none where the request did not pass it, and no more than the request took. -/
def hopTicks (passed : Bool) (lat v : Nat) : List Byte := leBytes 2 (if passed then min v lat else 0)

/-- A sample record (Table 27.2): what the request gives, LAT, and what its way to memory gives: bits [54] and [55] of its
second word and the hops, within what its path and LAT allow (assumption log 22). -/
def sampleRecord (head : BitVec 256) (rec : BitVec 384) (lat : Nat) : List Byte :=
  let host := head.getLsbD 120
  let pump := head.getLsbD 115
  let hit := rec.getLsbD 118 && !host
  let cross := rec.getLsbD 119
  let h := head ||| ((bit1 cross ++ bit1 hit).zeroExtend 256 <<< 118)
  let hop := fun (i : Nat) => (rec.extractLsb' (256 + 16 * i) 16).toNat
  leBytes 32 h.toNat ++ hopTicks (!pump) lat (hop 0) ++ hopTicks pump lat (hop 1) ++ hopTicks true lat (hop 2) ++
    hopTicks cross lat (hop 3) ++ hopTicks (!host) lat (hop 4) ++ hopTicks (!hit) lat (hop 5) ++ leBytes 4 lat ++ leBytes 16 0

/-- SAMPLE_RECORD (R414, R415): the record of the oldest sampled request that is complete is written, with the ticks it took, or
dropped when the ring is full. -/
def execSampleRecord (b : BitVec 7) (rec : BitVec 384) (s : State) : Out :=
  let k := s.bank b
  .next (match k.pend.find? fun q => q.done.isSome with
    | none => s
    | some q =>
      if k.mode != 2 then s
      else
        let lat := min ((q.done.getD (0, 0)).1 - (q.head.extractLsb' 0 64).toNat) (2 ^ 32 - 1)
        let s := s.modBank b fun k => { k with pend := dropFirst (fun q => q.done.isSome) k.pend }
        if 2 ^ k.tlog2.toNat < (k.twr + 1 - k.trd).toNat then
          s.modBank b fun k => { k with tovf := true, tdrop := k.tdrop + 1 }
        else
          (s.bankStore k (k.tbase.toNat + 64 * (k.twr.toNat % 2 ^ k.tlog2.toNat)) (sampleRecord q.head rec lat) false).modBank b
            fun k => { k with twr := k.twr + 1 })

/-- TWR_READ (R415): every record it counts has been written. -/
def execTwrRead (fn : BitVec 6) (b : BitVec 7) (s : State) : Out :=
  .next (s.bankRead fn b ((s.bank b).twr.zeroExtend 64) id)

end Sys2Proof.Machine
end

