-- ==== Sys2Proof/Machine/PortEvents.lean ====
section
/-! DEFINITION. What a translation port does with a command: invalidations, apertures, and moving a page (spec/21 R358 to
R365, spec/12 R274, R275). -/

namespace Sys2Proof.Machine

/-- A function reaches a translation port through its BAR0: the physical one all 65, a virtual one its partition's (R370, Table
23.2). -/
def State.reachesPort (s : State) (fn : BitVec 6) (port : Fin 65) : Bool :=
  fn == 0 || port.val == (s.fnPart fn).val + 1

/-- PORT_DOOR_WRITE (R361): the host writes the command words and DOOR through a function's BAR (R370). -/
def execPortDoorWrite (port : HostPort) (cmd : List Word) (s : State) : Out :=
  s.bar0 fun s =>
    if s.reachesPort port.fn port.port then
      (s.modPort port.port fun p => { p with cmd := p.cmd.mapIdx fun i w => (cmd[i]?).getD w }).portDoor port.port
    else s

/-- PSTAT_READ (R361): the read clears DROP; in minimal mode it reads zero (R389), and so does a port the function does not
reach (R370). -/
def execPstatRead (port : HostPort) (s : State) : Out :=
  .next (if s.boot.stage == .minimal || !s.reachesPort port.fn port.port then { s with hostRead := leBytes 8 0 }
    else
      let (s, v) := s.portRead port.port.val
      { s with hostRead := leBytes 8 v.toNat })

/-! ## Invalidation (R274, R358, R363) -/

/-- Every TLB of the package loses the entries a command removes; that of a core whose clocks stand does when they go on (R412),
and the command's drain waits for it. -/
def State.remove (s : State) (m : PortCmd) : State :=
  match m.removal with
  | none => s
  | some r =>
    { s with cores := s.cores.map fun k => if k.gated then k else k.remove r,
             l2 := s.l2.map fun l => l.filter fun e => !(e.part == r.part && r.tlb e) }

/-- The command of a kind at a port that has not taken its effect. -/
def State.portCmd (s : State) (port : Fin 65) (kind : Nat) : Option PortCmd :=
  (s.ports[port.val]).cur.filter fun m => m.kind == kind && m.err == 0 && !m.done

/-- The command at a port with its fields changed. -/
def State.modCmd (s : State) (port : Fin 65) (f : PortCmd → PortCmd) : State :=
  s.modPort port fun p => { p with cur := p.cur.map f }

/-- The effect of an invalidation. -/
def State.invalidateBy (s : State) (port : Fin 65) (kind : Nat) : State :=
  match s.portCmd port kind with
  | some m => (s.remove m).modCmd port fun m => { m with done := true }
  | none => s

/-- INV_VA (Table 21.5). -/
def execInvVa (port : Fin 65) (s : State) : Out := .next (s.invalidateBy port 1)

/-- INV_PASID (Table 21.5). -/
def execInvPasid (port : Fin 65) (s : State) : Out := .next (s.invalidateBy port 2)

/-- INV_IPA (Table 21.5). -/
def execInvIpa (port : Fin 65) (s : State) : Out := .next (s.invalidateBy port 3)

/-- INV_ALL (Table 21.5). -/
def execInvAll (port : Fin 65) (s : State) : Out := .next (s.invalidateBy port 4)

/-- The transform of XF (R55, R56, R362); none is the aperture turned off. -/
def xformOf (xf : Word) : Option Xform :=
  let n := (xf.extractLsb' 3 2).toNat + 1
  match (xf.extractLsb' 0 3).toNat with
  | 1 => some .identity
  | 2 => some (.trunc n)
  | 3 => some (.rn1 n)
  | 4 => some .zero
  | _ => none

/-- APERTURE (Table 21.5). -/
def execAperture (port : Fin 65) (s : State) : Out :=
  .next (match s.portCmd port 5 with
    | none => s
    | some m =>
      match m.part with
      | none => s
      | some p =>
        let a := (xformOf m.xf).map fun x => (⟨m.addr, 0x8000 * m.npg, m.newpa, x⟩ : Aperture)
        (s.modPart p fun r => { r with apert := r.apert.setIfInBounds m.apn a }).modCmd port fun m => { m with done := true })

/-! ## Moving a page (R364, R365) -/

/-- A valid level-3 leaf of a stage-1 tree (R350, R352): the physical address of its entry. -/
def State.leaf1 (s : State) (p : PartId) (va : Nat) : List Nat → Nat → Option Nat
  | [], _ => none
  | sh :: rest, table =>
    match s.stage2 p .read false (table + 8 * (va / 2 ^ sh % 4096)) with
    | .ok t =>
      match s.pte p t.pa with
      | none => none
      | some e =>
        if !pteForm sh e then none
        else if !pteL e then s.leaf1 p va rest (pteAddr e)
        else if sh == 15 && ((s.part p).s2en || mapOk p (pteSup e) (pteTier e) (pteAddr e) 0x8000) then some t.pa
        else none
    | _ => none

/-- A valid level-3 leaf of a stage-2 tree. -/
def State.leaf2 (s : State) (p : PartId) (ipa : Nat) : List Nat → Nat → Option Nat
  | [], _ => none
  | sh :: rest, table =>
    let pa := table + 8 * (ipa / 2 ^ sh % 4096)
    match s.pte p pa with
    | none => none
    | some e =>
      if !pteForm sh e then none
      else if !pteL e then s.leaf2 p ipa rest (pteAddr e)
      else if sh == 15 && mapOk p false (pteTier e) (pteAddr e) 0x8000 then some pa
      else none

/-- The leaf a MIGRATE names (R364). -/
def State.migrateLeaf (s : State) (m : PortCmd) (p : PartId) (addr : Nat) : Option Nat :=
  let q := s.part p
  if m.ipa then (if q.s2en then s.leaf2 p addr walkShifts (q.s2root.toNat / 0x8000 * 0x8000) else none)
  else if q.ptlen.toNat ≤ m.pasid.toNat then none
  else match s.pte p (q.ptab.toNat + 8 * m.pasid.toNat) with
    | none => none
    | some e => if e.getLsbD 0 && e.extractLsb' 1 14 == 0 then s.leaf1 p addr walkShifts (pteAddr e) else none

/-- The physical address of a frame a leaf names: an IPA under stage 2, unless the command names a stage-2 leaf. -/
def State.framePa (s : State) (m : PortCmd) (p : PartId) (a : Nat) : Option Nat :=
  if m.ipa then some a
  else match s.stage2 p .read false a with
    | .ok t => some t.pa
    | _ => none

/-- The leaves of a MIGRATE with their entries: one page, or the 32 of a CT range. -/
def State.migrateLeaves (s : State) (m : PortCmd) (p : PartId) : List (Option (Nat × Word)) :=
  (List.range m.npg).map fun i =>
    match s.migrateLeaf m p (m.addr + 0x8000 * i) with
    | none => none
    | some pa => (s.pte p pa).map fun e => (pa, e)

/-- The checks of a MIGRATE (R364): the old frame is memory of any kind, the new one lies in a tier. A range of 32 stage-2 leaves
needs no CT, and a guest's NEWPA under S2EN is an intermediate address translated for a read, which the rule does not say (assumption
log 31). -/
def State.migrateOk (s : State) (m : PortCmd) (p : PartId) : Bool :=
  let size := 0x8000 * m.npg
  let leaves := if m.npg == 1 || m.npg == 32 then s.migrateLeaves m p else []
  match leaves with
  | some (_, e) :: _ =>
    m.addr % size == 0 && m.newpa % size == 0 && !runsMeet (pteAddr e) size m.newpa size &&
      (leaves.mapIdx fun i l => match l with
        | some (_, f) => (m.ipa || pteCt f == (m.npg == 32)) && pteAddr f == pteAddr e + 0x8000 * i &&
            (match s.framePa m p (pteAddr f), s.framePa m p (m.newpa + 0x8000 * i) with
            | some a, some b => (inDram a || inHost a) && inDram b
            | _, _ => false)
        | none => false).all id
  | _ => false

/-- MIGRATE (R364, R365): new translations of the page are blocked and the old entries removed, or ERR is set; its checks wait
while another command moves intermediate pages of the partition, whose translations are blocked. -/
def execMigrate (port : Fin 65) (s : State) : Out :=
  .next (match s.portCmd port 6 with
    | none => s
    | some m =>
      match m.part with
      | none => s.modCmd port fun m => { m with err := 5, done := true }
      | some p =>
        if !m.ipa && s.movingIpa p then s
        else if !s.migrateOk m p then s.modCmd port fun m => { m with err := 5, done := true }
        else
          let old := match s.migrateLeaves m p with
            | some (_, e) :: _ => pteAddr e
            | _ => 0
          (s.remove m).modCmd port fun m => { m with done := true, oldPa := old })

/-! ## Completion (R274, R363, R365) -/

/-- A core's accesses under a partition's context. -/
def State.servesPart (s : State) (c : CoreId) (p : PartId) : Bool :=
  match (s.core c).task with
  | some t => t.part == p
  | none => false

/-- The units of an access that has been checked and waits: it holds the entries it used until it is performed (R358). -/
def Stream.waitingUnits (v : Stream) : List MemUnit :=
  match v.pend with
  | .src _ (.store _ _ us) => us
  | .dst _ _ _ (.load _ us) => us
  | .lds o => [o.unit]
  | _ => []

/-- A unit of an access under a PASID may hold an entry that a command removes: any entry of its partition, or one of the
PASID, or one that maps its page, alone or with the 31 around it (R353). -/
def PortCmd.holds (m : PortCmd) (pasid : BitVec 20) (u : MemUnit) : Bool :=
  let last := m.addr + 0x8000 * m.npg
  let page := m.addr / 0x8000
  match u.loc with
  | .cistern _ => false
  | _ =>
    if m.kind == 1 || (m.kind == 6 && !m.ipa) then
      m.pasid == pasid && runsMeet page ((last + 0x7FFF) / 0x8000 - page) (u.va.toNat / 0x100000 * 32) 32
    else m.kind != 2 || m.pasid == pasid

/-- Some access of a core that may hold a removed entry cannot be performed yet. -/
def Core.holdsFor (k : Core) (m : PortCmd) : Bool :=
  coreStreams.any fun x => (k.stream x).waitingUnits.any (m.holds k.pasid)

/-- Every access of a partition's cores is performed (R274). -/
def State.drainPart (s : State) (p : PartId) : State :=
  (List.finRange 208).foldl (fun s c => if s.servesPart c p then (s.captureLoads c).flushCore c else s) s

/-- A command ends: ERR in PSTAT, BUSY clear, and its add. -/
def State.portFinish (s : State) (port : Fin 65) (m : PortCmd) : State :=
  (s.modPort port fun p => { p with busy := false, err := m.err, cur := none }).addTo m.handle m.value

/-- The drain of a command may complete: no access holds an entry it removed, and no core of its context, nor one that keeps such
an entry, is gated (R412). -/
def State.drainable (s : State) (m : PortCmd) : Bool :=
  match m.part with
  | none => true
  | some p => (List.finRange 208).all fun c =>
      let k := s.core c
      !(k.gated && m.removal.any k.keeps) && (!s.servesPart c p || !(k.holdsFor m || k.gated))

/-- An INV_ALL of the context of a partition that is not enabled has drained (R391). -/
def State.keyDrained (s : State) (p : Option PartId) : State :=
  match p with
  | some p => if (s.part p).en then s else s.modPart p fun r => { r with invDrained := true }
  | none => s

/-- Lines of the instruction caches that were filled between the effect of an invalidation and its completion go with it: a
fetch that comes after the completion sees what it covers (R276). -/
def State.dropLines (s : State) (m : PortCmd) : State :=
  match m.removal with
  | none => s
  | some r => { s with cores := s.cores.map fun (k : Core) =>
      { k with icache := k.icache.filter fun l => !(l.part == r.part && r.line l) } }

/-- Once an invalidation completes, fetch sees what memory holds then, and the cistern too where it names no range of
addresses (R100, R276, assumption log 10). -/
def State.viewAfter (s : State) (m : PortCmd) : State :=
  match m.part with
  | none => s
  | some p =>
    let all := fun (s : State) (pasid : Option (BitVec 20)) =>
      { s.viewCode p pasid false 0 (2 ^ 51) with cores := s.cores.map fun (k : Core) =>
          if k.partId == p && k.task.isSome && (pasid.isNone || pasid == some k.pasid) then k.viewCistern else k }
    match m.kind with
    | 1 => s.viewCode p (some m.pasid) false m.addr (m.addr + 0x8000 * m.npg)
    | 2 => all s (some m.pasid)
    | 3 => s.viewCode p none true m.addr (m.addr + 0x8000 * m.npg)
    | 4 => all s none
    | _ => s

/-- PORT_DRAIN_COMPLETE (R363): the accesses under removed entries are performed, then the add; a MIGRATE goes on to its
copy. -/
def execPortDrainComplete (port : Fin 65) (s : State) : Out :=
  .next (match (s.ports[port.val]).cur with
    | none => s
    | some m =>
      if !m.done || m.drained || s.cellGated m.handle then s
      else if m.err != 0 then s.portFinish port m
      else if !s.drainable m then s
      else
        let s' := match m.part with
          | some p => s.drainPart p
          | none => s
        let s' := if m.kind == 4 then s'.keyDrained m.part else s'
        if m.kind == 6 then s'.modCmd port fun m => { m with drained := true }
        else ((s'.dropLines m).viewAfter m).portFinish port m)

/-- Copy one 32 KiB frame with its poison (R365); a granule whose read meets an uncorrectable error is poisoned, with its
record (R401), and so is its copy. -/
def State.copyFrame (s : State) (p : PartId) (src dst : Nat) (bad : List Nat) : State :=
  (List.range 512).foldl (fun s g =>
    let s := if bad.contains (src / 64 + g) then s.granulePoisoned (meetsNone p.val) (src + 64 * g) 0 else s
    s.writePhys p (dst + 64 * g) (s.readPhys p (src + 64 * g) 64) (s.physBad (src + 64 * g) 64)) s

/-- A leaf with a new frame: TIER by Table 21.1, other bits kept (R365). -/
def leafTo (e : Word) (addr pa : Nat) : Word :=
  e.extractLsb' 52 12 ++ BitVec.ofNat 37 (addr / 0x8000) ++ e.extractLsb' 7 8 ++ bit1 (inLpddr pa) ++ e.extractLsb' 0 6

/-- A frame moves in what fetch sees of memory too (R275, R276): the instructions of a page are the same, old or new, wherever
it lies. -/
def State.moveCode (s : State) (p : PartId) (src dst : Nat) : State :=
  { s with codeViews := s.codeViews.map fun (w : CodeView) =>
      { w with mem := ({ s with gmem := w.mem }.copyFrame p src dst []).gmem } }

/-- A MIGRATE makes its copy next: it has drained, and waits neither for a gated cell nor, for a page of virtual addresses, for
another command that moves the intermediate pages behind it (R365, R412). -/
def State.mayCopy (s : State) (m : PortCmd) : Bool :=
  m.kind == 6 && m.err == 0 && m.drained && !s.cellGated m.handle && (m.ipa || !(m.part.any s.movingIpa))

/-- MIGRATE_COPY_COMPLETE (R365): the copy, the new leaf, the release of what was blocked, and the add; a page of virtual
addresses waits while another command moves the intermediate pages behind it. A leaf that is valid no more, or whose granule is
poisoned, moves nothing, and the command ends with ERR 0 all the same, which R365 does not say (assumption log 31). -/
def execMigrateCopyComplete (port : Fin 65) (bad : List Nat) (s : State) : Out :=
  .next (match (s.ports[port.val]).cur with
    | none => s
    | some m =>
      match m.part with
      | none => s
      | some p =>
        if !s.mayCopy m then s
        else
          let leaves := s.migrateLeaves m p
          let one := fun (s : State) (x : Option (Nat × Word) × Nat) =>
            match x.1 with
            | none => s
            | some (pa, e) =>
              match s.framePa m p (m.oldPa + 0x8000 * x.2), s.framePa m p (m.newpa + 0x8000 * x.2) with
              | some a, some b =>
                ((s.moveCode p a b).copyFrame p a b bad).writePhys p pa (leBytes 8 (leafTo e (m.newpa + 0x8000 * x.2) b).toNat) false
              | _, _ => s
          (leaves.zipIdx.foldl one s).portFinish port m)

end Sys2Proof.Machine
end

