-- ==== Sys2Proof/Machine/Leapfrog.lean ====
section
/-! DEFINITION. Leapfrog: checkpoints, leaps and replay (spec/27 R419 to R421), and the release of a gate (R412). -/

namespace Sys2Proof.Machine

/-! ## Snapshots of a gang -/

/-- The state with those commands in progress at its ports that meet a test. -/
def State.withPorts (s : State) (f : PortCmd → Bool) : State :=
  { s with ports := s.ports.map fun (q : Port) => { q with cur := q.cur.filter f } }

/-- What leads to a byte of a node's addresses, for each kind of access a role may make there: an IDENTITY aperture or the page
tables, SUP pages too (R55, R56, R311, R356). A write through another aperture changes nothing, and the local window is the
core's own. -/
def State.setWalks (s : State) (n : Node) (va : Nat) : List WalkRes :=
  let kinds := [AccKind.write, .read, .fetch]
  match s.apertureAt n.part va with
  | some q => if q.xf == .identity then kinds.map fun k => s.stage2 n.part k false (q.pbase + (va - q.vbase)) else []
  | none => if windowBase ≤ va then [] else kinds.map fun k => s.walk ⟨n.part, n.pasid, true, k⟩ va

/-- Where a byte of a node's addresses lies. The device's own access holds its translation, so that a MIGRATE blocks it only
once its copy comes next (R365, assumption log 24). -/
def State.setPlace (s : State) (n : Node) (va : Nat) : Option Nat :=
  (((s.withPorts fun _ => false).setWalks n va).findSome? fun r => match r with
    | .ok t => some t.pa
    | _ => none).filter fun pa => !inPorts pa

/-- A byte of a node's addresses waits for a MIGRATE whose copy comes next (R365). -/
def State.setWaits (s : State) (n : Node) (va : Nat) : Bool :=
  let t := s.withPorts s.mayCopy
  (t.setWalks n va).contains .blocked || ((s.apertureAt n.part va).isNone && t.blockedPage n.part n.pasid va)

/-- Some byte of a node's write set waits for a MIGRATE. -/
def State.lfWaits (s : State) (n : Node) : Bool :=
  (s.ports.toList.any fun q => q.cur.any s.mayCopy) && n.writes.any fun w =>
    (List.range (w.2 / 512 + 2)).any fun i => decide (w.1 / 512 + i ≤ (w.1 + w.2) / 512) && s.setWaits n (512 * (w.1 / 512 + i))

/-- The parts of an address range of a node, granule by granule, each with its length. -/
def granuleParts (va : Nat) : Nat → Nat → List (Nat × Nat)
  | _, 0 => []
  | len, k + 1 =>
    if len == 0 then []
    else
      let m := min len (64 - va % 64)
      (va, m) :: granuleParts (va + m) (len - m) k

/-- The bytes of a node's declared write set as its partition reads them (R311, R391, R403). -/
def State.setBytes (s : State) (n : Node) : List SetBytes :=
  (n.writes.flatMap fun w => granuleParts w.1 w.2 (w.2 / 64 + 2)).filterMap fun r =>
    (s.setPlace n r.1).map fun pa => ⟨r.1, s.readPhys n.part pa r.2, s.physBad pa r.2⟩

/-- Bytes of a node's write set written for its partition, under its key (R390, R391). -/
def State.putBytes (s : State) (n : Node) (b : SetBytes) : State :=
  match s.setPlace n b.va with
  | some pa => s.writePhys n.part pa b.bytes b.bad
  | none => s

/-- A gang as it stands: its cores, the bytes of its write set, and the holds of its streams. -/
def State.snapshot (s : State) (n : Node) : Snapshot where
  tick := s.viewOf n.part
  cores := n.cores.map fun c => (c, s.core c)
  mem := s.setBytes n
  watches := s.watches.filter fun w => n.cores.contains w.c

/-- A core as it was, gated as it is now, with the breakpoints that a debugger has set (R280), and with its TLB and instruction
cache, which no save area holds (R343). -/
def Core.putBack (now old : Core) : Core :=
  coreStreams.foldl (fun k x => k.modStream x fun v => { v with brk := (now.stream x).brk })
    { old with gated := now.gated, tlb := now.tlb, icache := now.icache }

/-- A gang as it was. -/
def State.putGang (s : State) (n : Node) (p : Snapshot) : State :=
  let s := p.cores.foldl (fun s ck => s.setCore ck.1 ((s.core ck.1).putBack ck.2)) s
  { p.mem.foldl (fun s b => s.putBytes n b) s with
    watches := (s.watches.filter fun w => !n.cores.contains w.c) ++ p.watches,
    injected := s.injected.filter fun e => !n.cores.contains e.1.core }

/-- A gated partition's view stands at a tick (R420). -/
def State.viewAt (s : State) (p : PartId) (tick : Nat) : State :=
  s.modPart p fun r => { r with dtoff := s.tick - tick, gatedAt := some s.tick }

/-- A gang put back as a snapshot holds it, its partition's view at a tick and stopped there (R420). -/
def State.putBack (s : State) (n : Node) (p : Snapshot) : State := (s.putGang n p).viewAt n.part p.tick

/-! ## Recording (R419) -/

/-- The node a bank's recording follows, while it runs. -/
def State.lfNode (s : State) (k : MBank) : Option Node :=
  match k.lf.key with
  | none => none
  | some key => (s.node key).filter fun n => n.st == .running && !n.cores.isEmpty

/-- A bank records: it is on, has not stopped for want of room, and replays nothing. -/
def MBank.records (k : MBank) : Bool := k.lfctl.getLsbD 0 && !k.lf.full && k.lf.resume.isNone

/-- A stream of a gang issues an instruction: the banks that follow the gang note the view tick (R420). -/
def State.noteIssue (s : State) (c : CoreId) (x : StreamId) : State :=
  if s.banks.toList.all fun b => b.lf.key.isNone then s
  else
    { s with banks := s.banks.map fun (b : MBank) =>
        match s.lfNode b with
        | some n =>
          if b.lfctl.getLsbD 0 && n.cores.contains c then
            { b with lf := { b.lf with issues := (c, x, s.viewOf n.part) :: b.lf.issues } }
          else b
        | none => b }

/-- Bytes a checkpoint takes: an area for each role, and the write set. -/
def checkpointSize (n : Node) : Nat := n.gsize * areaSize + (n.writes.map (·.2)).sum

/-- Inputs in the log of a checkpoint. -/
def inputsOf (log : List LfStep) : Nat := (log.filter (·.input)).length

/-- A half of a bank's area holds a checkpoint and a number of logged inputs, of 64 bytes each: the spec gives the area no
layout (assumption log 24). -/
def MBank.room (k : MBank) (n : Node) (inputs : Nat) : Bool :=
  decide (checkpointSize n + 64 * inputs ≤ k.lflen.toNat / 2)

/-- Where the half of the area begins that a checkpoint takes: the two halves take turns. -/
def MBank.half (k : MBank) (i : Nat) : Nat := k.lfbase.toNat + i % 2 * (k.lflen.toNat / 2)

/-- The recording ends for want of room (R419). -/
def MBank.noRoom (k : MBank) : MBank := { k with noroom := true, lf := { k.lf with full := true } }

/-! ### The bytes of a checkpoint -/

/-- The device writes bytes of a bank from an address on, page by page. -/
def State.bankBytes (s : State) (k : MBank) (a : Nat) : Nat → List Byte → State
  | 0, _ => s
  | _, [] => s
  | fuel + 1, bs =>
    let m := 0x8000 - a % 0x8000
    (s.bankStore k a (bs.take m) false).bankBytes k (a + m) fuel (bs.drop m)

/-- The granules of a core's own memory, with their poison. -/
def State.bankMem (s : State) (k : MBank) (a : Nat) (m : PoisonMem) (granules : Nat) : State :=
  (List.range granules).foldl (fun s g => s.bankStore k (a + 64 * g) (m.bytes.readRange (64 * g) 64) (m.bad g)) s

/-- A role's state in the form of a save area, with all tiles (R343, R419). -/
def State.bankRole (s : State) (k : MBank) (a : Nat) (core : Core) : State :=
  match core.task with
  | none => s
  | some t =>
    let all := { core with ctrl := { core.ctrl with hs := true } }
    let s := (saveRegions all s.fresh).foldl (fun s r => s.bankBytes k (a + r.1) (r.2.length / 0x8000 + 2) r.2) s
    let s := (s.bankMem k (a + 0x110000) core.wbuf 0x4000).bankMem k (a + 0x210000) core.cistern 0x8000
    { s.bankBytes k a 2 (saveHeader 1 t (BitVec.allOnes 128) 0 s.tick) with fresh := s.fresh + 0x6C0 }

/-- A checkpoint in a bank's area: the roles, then the bytes of the write set (R419). -/
def State.lfStore (s : State) (k : MBank) (n : Node) : State :=
  let base := k.half k.lf.made
  let s := n.cores.zipIdx.foldl (fun s ci => s.bankRole k (base + areaSize * ci.2) (s.core ci.1)) s
  let bytes := (s.setBytes n).flatMap (·.bytes)
  s.bankBytes k (base + areaSize * n.gsize) (bytes.length / 0x8000 + 2) bytes

/-- The view tick at which the next checkpoint is due: 2^CKE after the last, or after the gang's start. -/
def State.checkDue (s : State) (k : MBank) (n : Node) : Nat :=
  let last := match k.lf.checks with
    | p :: _ => p.1.tick
    | [] => match n.cores.head?.map fun c => (s.core c).task with
      | some (some t) => t.start
      | _ => 0
  last + 2 ^ (k.lfctl.extractLsb' 8 5).toNat

/-- A checkpoint is due (R419). -/
def State.checkReady (s : State) (b : BitVec 7) : Bool :=
  let k := s.bank b
  match s.lfNode k with
  | none => false
  | some n => k.records && decide (s.checkDue k n ≤ s.viewOf n.part) && !(n.cores.any fun c => (s.core c).gated)

/-- A recording with one more checkpoint: the two newest are kept, and the issues since the older one (R419). -/
def Leapfrog.add (l : Leapfrog) (p : Snapshot) : Leapfrog :=
  let checks := ((p, []) :: l.checks).take 2
  let issues := match checks with
    | [_, old] => l.issues.filter fun i => decide (old.1.tick ≤ i.2.2)
    | _ => l.issues
  { l with made := l.made + 1, checks := checks, issues := issues }

/-- The copy of a checkpoint is complete: the gang is in the area, and its cores go on (R419). -/
def State.checkCopied (s : State) (b : BitVec 7) (n : Node) : State :=
  ((s.lfStore (s.bank b) n).modBank b fun k => { k with lf := k.lf.add (s.snapshot n) }).endReplay b

/-- LEAPFROG_CHECKPOINT (R419): the gang's cores are gated, and in a later tick, once the copy is complete, go on: what the copy
takes, and a MIGRATE that it waits for (R365), adds to DTOFF and not to the gang's view. An area that cannot hold the checkpoint
ends the recording with NOROOM. -/
def execLeapfrogCheckpoint (b : BitVec 7) (s : State) : Out :=
  let k := s.bank b
  .next (match s.lfNode k, k.lf.copying with
    | none, _ => s.endReplay b
    | some n, some q => if s.tick ≤ q.1 || s.lfWaits n then s else s.checkCopied b n
    | some n, none =>
      if !s.checkReady b then s
      else if !k.room n 0 then s.modBank b MBank.noRoom
      else (s.modBank b fun k => { k with lf := { k.lf with copying := some (s.tick, n.cores) } }).gateSync)

/-- A core's state but for its gate. -/
def Core.ungated (k : Core) : Core := { k with gated := false }

/-- A core's state but for its gate, a debugger's breakpoints, its TLB and its instruction cache. -/
def Core.unmarked (k : Core) : Core :=
  coreStreams.foldl (fun k x => k.modStream x fun v => { v with brk := [] }) { k.ungated with tlb := [], icache := [] }

/-- What of a gang a move may change but for memory. -/
def Snapshot.state (p : Snapshot) : List Core × List Watch := (p.cores.map (·.2.unmarked), p.watches)

/-- What a move wrote of some bytes: those that differ, one by one, or the whole where their granule's poison does. -/
def SetBytes.wrote (old new : SetBytes) : List SetBytes :=
  if old.bad != new.bad || old.bytes.length != new.bytes.length then [new]
  else (List.range new.bytes.length).filterMap fun i =>
    let b := new.bytes.getD i 0
    if old.bytes.getD i 0 == b then none else some ⟨new.va + i, [b], new.bad⟩

/-- The bytes of a write set that a move wrote, from what it held before and after. -/
def wroteBytes (old new : List SetBytes) : List SetBytes :=
  if old.map (·.va) == new.map (·.va) then ((old.zip new).map fun q => q.1.wrote q.2).flatten else new

/-- The bytes of a log entry in the area: the view tick, and for the rest the free values of a layout that the spec does not
give (assumption log 24). -/
def logBytes (tick fresh : Nat) : List Byte :=
  leBytes 8 tick ++ (List.range 7).flatMap fun i => leBytes 8 (Config.freeWord (fresh + i)).toNat

/-- A pick that completes an access, a pump command or a nest of a core: an input of its gang that a recording logs (R419). -/
def Pick.completion (p : Pick) : Bool :=
  match p with
  | .event (.tileLoadComplete ..) => true
  | .event (.scalarLoadReturn ..) => true
  | .event (.tileStorePerformed ..) => true
  | .event (.scalarStorePerformed ..) => true
  | .event (.pumpCommandEnd ..) => true
  | .event (.nestGroupComplete ..) => true
  | .event (.nestComplete ..) => true
  | .event (.wlatchComplete ..) => true
  | _ => false

/-- The core whose own move a pick is: nothing reaches it from outside its core (R419). -/
def Pick.mover (p : Pick) : Option CoreId :=
  match p with
  | .issue c _ _ => some c
  | .pumpUnit c _ => some c
  | .event (.instructionFetch c _ _) => some c
  | .event (.countWaitResume c _) => some c
  | .event (.issueIntervalEnd c _) => some c
  | .event (.vectorWriteComplete c _) => some c
  | .event (.pageWalkComplete c _ _ _ _) => some c
  | .event (.arrayQueueRoom c _) => some c
  | .event (.wclrExecute c) => some c
  | .event (.mmaComplete c _) => some c
  | .event (.geomAccept c) => some c
  | .event (.geomComplete c _) => some c
  | .event (.pumpQueueRoom c _) => some c
  | .event (.pumpTakeCommand c _) => some c
  | .event (.pumpPark c _) => some c
  | .event (.joinComplete c) => some c
  | .event (.barComplete c) => some c
  | .event (.streamEnded c _) => some c
  | .event (.trapDelivery c) => some c
  | .event (.watchdogExpire c) => some c
  | .event (.semOpPerform (.stream c _) _) => some c
  | _ => none

/-- The cores whose accesses a pick may perform: its own core's, and those of a partition for a translation port (R274). -/
def Pick.performs (p : Pick) : List CoreId :=
  match p.mover, p with
  | some c, _ => [c]
  | _, .event (.tileLoadComplete c _ _) => [c]
  | _, .event (.scalarLoadReturn c _ _) => [c]
  | _, .event (.tileStorePerformed c _) => [c]
  | _, .event (.scalarStorePerformed c _) => [c]
  | _, .event (.pumpCommandEnd c _ _) => [c]
  | _, .event (.nestGroupComplete c) => [c]
  | _, .event (.nestComplete c _) => [c]
  | _, .event (.portDrainComplete _) => List.finRange 208
  | _, _ => []

/-- A pick completes an access, a pump command or a nest of a gang, or brings it a semaphore result (R419). -/
def Pick.inputOf (p : Pick) (cores : List CoreId) : Bool :=
  match p with
  | .event (.semOpResult c _) => cores.contains c
  | p => p.completion && p.performs.any cores.contains

/-- A move has brought PREM units from elsewhere: another core's unit, or packets of a peer device (R220, R384). -/
def State.premCame (s t : State) (p : Option Pick) : Bool :=
  s.fabric.rx != t.fabric.rx || (match p with
    | some (.pumpUnit c second) => match (s.core c).pump second with
      | .running m _ _ => m.kind == .prem
      | _ => false
    | _ => false)

/-- What a move did to a gang that a bank records is logged (R419): what became of its cores, and the bytes of the write set that
its cores or a PREM wrote. An input from outside its cores that R419 lists takes room in the area, where the log follows its
checkpoint; what others write is no input, and the device does not detect it (R421, assumption log 24). -/
def State.logFor (s : State) (p : Option Pick) (t : State) (b : BitVec 7) : State :=
  let k := t.bank b
  match t.lfNode k, k.lf.checks with
  | some n, (c, log) :: rest =>
    let before := s.snapshot n
    let after := t.snapshot n
    let done := p.any fun q => q.inputOf n.cores
    let own := done || (p.bind Pick.mover).any n.cores.contains
    let prem := !own && s.premCame t p
    let wrote := if own || prem then wroteBytes before.mem after.mem else []
    let cells := before.cores.map (·.2.cells) != after.cores.map (·.2.cells)
    let input := done || (!own && cells) || (prem && !wrote.isEmpty)
    if !k.records || (before.state == after.state && wrote.isEmpty) then t
    else if input && !k.room n (inputsOf log + 1) then t.modBank b MBank.noRoom
    else
      let t := if input then { t.bankBytes k (k.half (k.lf.made - 1) + checkpointSize n + 64 * inputsOf log) 2
        (logBytes (s.viewOf n.part) t.fresh) with fresh := t.fresh + 7 } else t
      t.modBank b fun k => { k with lf := { k.lf with
        checks := (c, ⟨{ after with tick := s.viewOf n.part, mem := wrote }, input, p.filter Pick.completion, s.fresh⟩ :: log) ::
          rest } }
  | _, _ => t

/-- What a move did is logged by every bank that records. -/
def State.logMove (s t : State) (p : Option Pick) : State :=
  if t.banks.toList.all fun b => b.lf.key.isNone || b.lf.checks.isEmpty then t
  else ((List.range 128).map (BitVec.ofNat 7)).foldl (s.logFor p) t

/-! ## Leaps, replay and release (R412, R420, R421) -/

/-- The view tick of the last instruction that a stream issued before a view tick. -/
def lastIssue (c : CoreId) (x : StreamId) (before : Nat) (issues : List (CoreId × StreamId × Nat)) : Option Nat :=
  (issues.find? fun i => i.1 == c && i.2.1 == x && decide (i.2.2 < before)).map (·.2.2)

/-- The newest checkpoint older than a tick, with the log from it on, oldest first; where the recording has stopped for want
of room, only ticks up to the last checkpoint are reached (R419, R420). -/
def Leapfrog.reach (l : Leapfrog) (t : Nat) : Option (Snapshot × List LfStep) :=
  let newest := (l.checks.head?.map fun q => q.1.tick).getD 0
  if l.full && newest < t then none
  else
    let young := l.checks.takeWhile fun q => decide (t ≤ q.1.tick)
    match l.checks.drop young.length with
    | [] => none
    | (p, log) :: _ => some (p, log.reverse ++ (young.reverse.map fun q => q.2.reverse).flatten)

/-- LEAP (R420): the replay from the newest checkpoint older than the last instruction that the stream of role 0 issued, up to
it, begins, which puts that checkpoint back first; without one, NOCK is set and nothing else changes. -/
def execLeap (fn : BitVec 6) (b : BitVec 7) (x : StreamId) (go : Bool) (s : State) : Out :=
  s.bankWrite fn b fun s =>
    let k := s.bank b
    if !go || !k.held then s
    else
      let none_ := s.modBank b fun k => { k with nock := true }
      match s.lfNode k with
      | none => none_
      | some n =>
        let now := s.viewOf n.part
        match (n.cores.head?.bind fun c => lastIssue c x now k.lf.issues).bind fun t => (k.lf.reach t).map fun q => (t, q) with
        | none => none_
        | some (t, p, todo) =>
          let r : Replay := ⟨n.cores, some p, todo, some t, (k.lf.resume.map (·.stop)).getD now⟩
          s.modBank b fun k => { k with lf := { k.lf with resume := some r, copying := none } }

/-- RELEASE (R412, R421): the gate ends; after a leap the replay goes on to the original stop, and execution is live from
there. -/
def execRelease (fn : BitVec 6) (b : BitVec 7) (s : State) : Out :=
  s.bankWrite fn b fun s => s.gateOff b

/-- A recording without the entries of its log that are still to come, and the issues from their tick on: what follows a
divergence is another run. -/
def cutLog : Nat → List (Snapshot × List LfStep) → List (Snapshot × List LfStep)
  | _, [] => []
  | left, [(p, log)] => [(p, log.drop left)]
  | left, (p, log) :: rest => if left ≤ log.length then (p, log.drop left) :: rest else cutLog (left - log.length) rest

/-- A recording cut where a replay has diverged. -/
def Leapfrog.cut (l : Leapfrog) (left tick : Nat) : Leapfrog :=
  let checks := cutLog left l.checks
  { l with checks := checks, made := l.made - (l.checks.length - checks.length),
           issues := l.issues.filter fun i => decide (i.2.2 < tick) }

/-- The view tick of the next step of a replay. -/
def Replay.next (r : Replay) : Nat :=
  match r.todo with
  | e :: _ => e.after.tick
  | [] => r.stop

/-- A gang is gated by a bank (R420, R421): a bank whose gate holds already goes on holding what it holds. -/
def MBank.gateGang (k : MBank) (cores : List CoreId) : MBank :=
  { k with held := true, only := if k.held then k.only else some cores }

/-- An input of a replay differs from its log (R421): DIVERGED is set, the replay ends, and the gang is gated at that tick; a leap
has taken no time, and its view stands there too. -/
def State.diverge (s : State) (b : BitVec 7) : State :=
  match (s.bank b).lf.resume, s.lfNode (s.bank b) with
  | some r, some n =>
    let tick := if r.leapTo.isSome then r.next else s.viewOf n.part
    let stop := fun (k : MBank) => { k.gateGang r.cores with diverged := true, lf := k.lf.cut r.todo.length tick }
    let s := (s.modBank b fun k => (stop k).stopReplay).gateSync
    if r.leapTo.isSome then s.viewAt n.part tick else s
  | some r, none => (s.modBank b fun k => { (k.gateGang r.cores).stopReplay with diverged := true }).gateSync
  | none, _ => s

/-- REPLAY_DIVERGE (R421): an input of a replay, which the device takes from outside, differs from its log. -/
def execReplayDiverge (b : BitVec 7) (s : State) : Out :=
  .next (s.diverge b)

end Sys2Proof.Machine
end

