-- ==== Sys2Proof/Machine/Boot.lean ====
section
/-! DEFINITION. The start, minimal mode and attestation (spec/24). -/

namespace Sys2Proof.Machine

/-! ## The start (R385 to R388) -/

/-- An extend: the measure of the old value and a hash (R386, R392). -/
def extendMeas (m h : BitVec 256) : BitVec 256 := Config.sm3 (leBytes 32 m.toNat ++ leBytes 32 h.toNat)

/-- A measurement register extended. -/
def Boot.extend (b : Boot) (i : Fin 8) (h : BitVec 256) : Boot := { b with mreg := b.mreg.set i.val (extendMeas b.mreg[i.val] h) }

/-! The configuration record (Table 24.2). -/

/-- The bytes of a record that its signature is over: all but SIG. -/
def recordSigned (r : List Byte) : List Byte := r.take 0x30 ++ r.drop 0x70
/-- SVN. -/
def recordSvn (r : List Byte) : BitVec 32 := BitVec.ofNat 32 (field r 0x04 4)
/-- EN0. -/
def recordEn0 (r : List Byte) : BitVec 128 := BitVec.ofNat 128 (field r 0x08 16)
/-- EN1. -/
def recordEn1 (r : List Byte) : BitVec 128 := BitVec.ofNat 128 (field r 0x18 16)
/-- The trim block: the bytes from TRIMOFF on (R2). -/
def recordTrims (r : List Byte) : List Byte := r.drop (field r 0x28 8)
/-- SIG. -/
def recordSig (r : List Byte) : BitVec 512 := BitVec.ofNat 512 (field r 0x30 64)

/-- The signature of an item verifies over its SM3 hash (R385). -/
def FlashItem.ok (i : FlashItem) : Bool := Config.vendorVerifies (Config.sm3 i.bytes) i.sig

/-- A record that can be accepted at a version floor (R387): the form of Table 24.2, the signature, the version, and 104
cores on each die. -/
def recordOk (r : List Byte) (floor : BitVec 32) : Bool :=
  r.take 4 == [0x43, 0x46, 0x47, 0x31] && decide (0x70 ≤ r.length) && decide (1 ≤ (recordSvn r).toNat) &&
    Config.vendorVerifies (Config.sm3 (recordSigned r)) (recordSig r) && decide (floor.toNat ≤ (recordSvn r).toNat) &&
    onesBelow (recordEn0 r) 128 == 104 && onesBelow (recordEn1 r) 128 == 104

/-- The flash a start reads: with a staged image, what its blocks leave (R389). -/
def Boot.install (b : Boot) : Boot :=
  if b.staged.isEmpty then b
  else
    let item := fun (n : Nat) (i : FlashItem) =>
      (⟨Config.installed n b.staged i.bytes, Config.installedSig n b.staged i.sig⟩ : FlashItem)
    { b with flash := ⟨item 0 b.flash.monitor, Config.installed 1 b.staged b.flash.record, item 2 b.flash.ovone⟩, staged := [] }

/-- Stages 1 to 4 (Table 24.1): the monitor's state and the failure reason, 0 when all have run. An item that fails
its verification is not measured. The unit enables and trims come from the record (R2). -/
def Boot.stages (b : Boot) (inp : BootInput) : Boot × BitVec 8 :=
  let f := b.flash
  if !f.monitor.ok then (b, 0x01)
  else
    let b := b.extend 0 (Config.sm3 f.monitor.bytes)
    if !recordOk f.record b.svnFloor then (b, 0x02)
    else
      let b := { b.extend 1 (Config.sm3 (recordSigned f.record)) with svn := recordSvn f.record, svnFloor := recordSvn f.record }
      if !f.ovone.ok then (b, 0x03)
      else
        let b := b.extend 2 (Config.sm3 f.ovone.bytes)
        if !inp.training then (b, 0x04)
        else ({ b with en0 := recordEn0 f.record, en1 := recordEn1 f.record, trims := recordTrims f.record }, 0)

/-- The state a reset of the module leaves: that after reset, but for what lasts. The measurement registers last
through a start that begins by itself (R386), the flash region always (R387 to R389), and so do the memories' stored
form with its keys, the tick, the board power of the last 1 ms (R422), and the model's own fields; ticks before it are divided among
nobody (R398). -/
def State.fresh0 (s : State) : State :=
  { State.reset with
      tick := s.tick, gmem := s.gmem, nextKey := s.nextKey, nextDom := s.nextDom, sched := s.sched, cur := s.cur,
      fresh := s.fresh, ticked := Vector.replicate 2 s.tick, power := { State.reset.power with recent := s.power.recent },
      scrub := Vector.replicate 40 { ScrubRegion.zero with counted := s.tick },
      boot := { Boot.zero with mreg := s.boot.mreg, fails := s.boot.fails, svnFloor := s.boot.svnFloor,
                               powered := s.boot.powered, flash := s.boot.flash, staged := s.boot.staged,
                               items := s.boot.items } }

/-- The record of minimal mode (R389). -/
def Boot.minimalRecord (b : Boot) : BitVec 1024 :=
  BitVec.ofNat 1024 (leNat (leBytes 1 0x10 ++ leBytes 1 b.reason.toNat ++ leBytes 1 b.fails.toNat ++ leBytes 5 0 ++
    leBytes 32 b.mreg[0].toNat ++ leBytes 32 b.mreg[1].toNat ++ leBytes 32 b.mreg[2].toNat))

/-- Minimal mode begins (R388, R389). -/
def State.minimal (s : State) (reason : BitVec 8) : State :=
  let b := { s.boot with stage := .minimal, reason := reason }
  { s with boot := { b with record := b.minimalRecord } }

/-- The failed-start count rises, saturating at 255 (R388). -/
def Boot.countUp (b : Boot) : Boot := { b with fails := if b.fails == 255 then 255 else b.fails + 1 }

/-- Starts, one after another while they fail with a count below 3 (R388). -/
def State.start (s : State) (inp : BootInput) : Nat → State
  | 0 => s
  | n + 1 =>
    let s := s.fresh0
    let (b, r) := s.boot.countUp.install.stages inp
    let s := { s with boot := { b with items := some inp } }
    if r == 0 then { s with boot := { s.boot with stage := .awaitReady } }
    else if 3 ≤ s.boot.fails.toNat then s.minimal r
    else { s with boot := { s.boot with reason := r } }.start inp n

/-- Ticks from power-on within which READY must arrive (Table 24.1): 10 s. -/
def startTicks : Nat := 20000000000

/-- POWER_ON (R385, R386, R425): power-on, where the tick starts at 0, or a module reset; the measurement registers
read zero after either. -/
def execPowerOn (inp : BootInput) (full : Bool) (s : State) : Out :=
  let tick := if full then 0 else s.tick
  let power := if full then { s.power with recent := [] } else s.power
  .next ({ s with tick := tick, power := power, boot := { s.boot with mreg := Vector.replicate 8 0, powered := tick } }.start inp 3)

/-- READY has not arrived in time (Table 24.1). -/
def State.readyLate (s : State) : Bool := s.boot.stage == .awaitReady && decide (s.boot.powered + startTicks < s.tick)

/-- OVONE_READY (R385, R388): stage 5, within 10 s of power-on; the count clears. -/
def execOvoneReady (s : State) : Out :=
  .next (if s.boot.stage == .awaitReady && !s.readyLate then { s with boot := { s.boot with stage := .up, fails := 0 } }
    else s)

/-- READY_TIMEOUT (R385, R388): READY has not arrived 2 · 10^10 ticks after power-on. -/
def execReadyTimeout (s : State) : Out :=
  .next (match s.boot.items with
    | none => s
    | some inp =>
      if !s.readyLate then s
      else if 3 ≤ s.boot.fails.toNat then s.fresh0.minimal 0x05
      else s.start inp 3)

/-! ## Minimal mode (R389) -/

/-- ANSWER_FLASH_WRITE (R389): KIND 0x20; elsewhere no answer has that form (R376). -/
def execAnswerFlashWrite (data : BitVec 512) (s : State) : Out :=
  .next (if s.boot.stage == .minimal then { s with boot := { s.boot with staged := s.boot.staged ++ [data] } }
    else s.ignoreAnswer 0)

/-- ANSWER_RESTART (R389): KIND 0x21 clears the count and starts again, as at power-on. -/
def execAnswerRestart (inp : BootInput) (s : State) : Out :=
  .next (if s.boot.stage == .minimal then { s with boot := { s.boot with fails := 0, powered := s.tick } }.start inp 3
    else s.ignoreAnswer 0)

/-! ## Attestation (R392, R393) -/

/-- A partition that has been created and not destroyed (R390, R391). -/
def Partition.exists_ (r : Partition) : Bool := r.key.isSome

/-- The partition a report is asked for, where it exists. -/
def State.attested (s : State) (p : BitVec 16) : Option Partition :=
  if h : p.toNat < 64 then
    let r := s.part ⟨p.toNat, h⟩
    if r.exists_ then some r else none
  else none

/-- ATTEST_REQUEST (R393): one snapshot of PMEAS and LCOUNT; a VF may name only its own partition, and minimal mode
takes no such answer. -/
def execAttestRequest (fn : BitVec 6) (p : BitVec 16) (nonce : BitVec 256) (s : State) : Out :=
  .next (if s.boot.stage == .minimal || (fn != 0 && p.toNat != (s.fnPart fn).val) then s.ignoreAnswer fn
    else
      let a : Attest := match s.attested p with
        | some r => ⟨fn, p, nonce, s.tick, 0, r.pmeas, r.lcount⟩
        | none => ⟨fn, p, nonce, s.tick, 1, 0, 0⟩
      { s with attests := s.attests ++ [a] })

/-- The first 0x180 bytes of a report (Table 24.3). -/
def State.reportBody (s : State) (a : Attest) : List Byte :=
  leBytes 1 a.status.toNat ++ leBytes 3 0 ++ leBytes 2 a.part.toNat ++ leBytes 2 s.fabric.devid.toNat ++
    leBytes 8 a.tick ++ leBytes 4 s.boot.svn.toNat ++ leBytes 4 a.lcount.toNat ++ leBytes 8 0 ++
    leBytes 32 a.nonce.toNat ++ leBytes 32 s.boot.mreg[0].toNat ++ leBytes 32 s.boot.mreg[1].toNat ++
    leBytes 32 s.boot.mreg[2].toNat ++ leBytes 32 a.pmeas.toNat ++ leBytes 192 Config.idcert.toNat

/-- A whole report: the signature is over the hash of the body. -/
def State.report (s : State) (a : Attest) : List Byte :=
  let b := s.reportBody a
  b ++ leBytes 64 (Config.reportSig (Config.sm3 b)).toNat

/-- ATTEST_REPORT_POST (R393): the oldest report goes to its requester's mailbox, 448 bytes as seven records. -/
def execAttestReportPost (s : State) : Out :=
  .next (match s.attests with
    | [] => s
    | a :: rest =>
      let bs := s.report a
      (List.range 7).foldl (fun s i => s.postMail a.fn (recordOf ((bs.drop (64 * i)).take 64))) { s with attests := rest })

end Sys2Proof.Machine
end

