-- ==== Sys2Proof/Machine/Partition.lean ====
section
/-! DEFINITION. Partitions and bandwidth shares (spec/25 R394 to R398). -/

namespace Sys2Proof.Machine

/-! ## Enabling (R390 to R396) -/

/-- SHARE of a partition on a die. -/
def Partition.share (r : Partition) (die : Bool) : Nat := if die then r.share1.toNat else r.share0.toNat

/-- The shares of the enabled partitions but one, on a die, as they stand at the next tick. -/
def State.shareSum (s : State) (but : PartId) (die : Bool) : Nat :=
  ((List.finRange 64).map fun q => if q != but && (s.part q).en then (s.partRecord q).share die else 0).sum

/-- The shares on both dies stay within 100 (R398). -/
def State.sharesOk (s : State) (p : PartId) (r : Partition) : Bool :=
  decide (s.shareSum p false + r.share false ≤ 100) && decide (s.shareSum p true + r.share true ≤ 100)

/-- No unit is another enabled partition's, but for the members of one slice group (R394). -/
def State.unitsFree (s : State) (p : PartId) : Bool :=
  let r := s.part p
  (List.finRange 64).all fun q =>
    let t := s.part q
    q == p || !t.en || r.units &&& t.units == 0 ||
      (r.shared && t.shared && r.group == t.group && r.units == t.units)

/-- A partition comes into being (R390, R392, R400): a fresh key, no measurement, no image, and the banks of its
functions are cleared. -/
def State.create (s : State) (p : PartId) : State :=
  let s := s.modPart p fun r => { r with key := some (s.nextKey + 1), invDrained := false, pmeas := 0, lcount := 0,
                                         images := [] }
  let s := { s with nextKey := s.nextKey + 1 }
  (List.range 64).foldl (fun s v =>
    let fn := BitVec.ofNat 6 v
    if v != 0 && s.fnPart fn == p then s.resetBanks fn else s) s

/-! ## Bandwidth (R398) -/

/-- One partition in one tick of one die: its share, depth, tokens, granules waiting, want and give. -/
structure Claimant where
  p : PartId
  share : Nat
  depth : Nat
  tok : Nat
  wait : Nat
  want : Nat
  give : Nat
deriving DecidableEq, Repr

/-- A partition with units on a die (R395, R396, R398). -/
def State.onDie (s : State) (die : Bool) (p : PartId) : Bool :=
  (if die then (s.unitsOf p).extractLsb' 13 13 else (s.unitsOf p).extractLsb' 0 13) != 0

/-- An access in progress: what it belongs to, its requests, what an engine sets out to do in it, and the address of its
instruction. -/
structure Access where
  owner : ReqOwner
  reqs : List Req
  attempts : List Attempt
  pc : VAddr
deriving DecidableEq, Repr

/-- The granules that an access injects toward memory, each with its number where it has one (R398). -/
def Access.granules (a : Access) : List (Option Nat) := a.reqs.flatMap (·.granules)

/-- The reads of a stream's page walk in progress, where the second-level TLB does not serve it (R358, R414). -/
def State.walkAccess (s : State) (c : CoreId) (x : StreamId) : List Access :=
  match (s.stream c x).walk with
  | none => []
  | some w =>
    let t := (s.core c).walkCtx x w
    if w.pri.isSome || !s.looksUp t w.va || (s.l2Of c).any (fun e => e.serves t w.va.toNat) then []
    else [⟨.walk c x, s.walkReqs t w.va false, [], (s.stream c x).pc⟩]

/-- The accesses of a stream that have not been performed: its walk, its stores, and an LDS. -/
def State.streamAccesses (s : State) (c : CoreId) (x : StreamId) : List Access :=
  let v := s.stream c x
  s.walkAccess c x ++ (v.stores.map fun r => ⟨.store c x r.seq, r.data.reqs r.units, [], r.pc⟩) ++ (match v.pend with
    | .lds o => [⟨.lds c x o.seq, [unitReq false false o.unit [(0, o.size)]], [], v.pc⟩]
    | _ => [])

/-- The access that a pump makes next (R216, assumption log 23): the next step of its command, with the unit that fails if one
does, where it does not have to wait. -/
def State.pumpAccess (s : State) (c : CoreId) (second : Bool) : List Access :=
  match (s.core c).pump second with
  | .running m u none =>
    if m.units ≤ u then []
    else
      let as := if s.premRemote m then (match s.premSend c second m u with
          | .error .wait => none
          | _ => some (s.unitAttempts c m u))
        else s.runAttempts c second (m.units - u)
      match as with
      | some as => [⟨.unit c second (unitNumber m u), s.unitReqs c m as, as, m.pc⟩]
      | none => []
  | _ => []

/-- The access that a running nest makes next: its next group, where its rows do not have to wait (R183). -/
def State.nestAccess (s : State) (c : CoreId) : List Access :=
  match (s.core c).nestHead with
  | none => []
  | some r =>
    match r.set.pair with
    | none => []
    | some (_, f, p) =>
      if r.set.groups ≤ r.grp then []
      else
        let as := s.groupAttempts c r f p
        let waits := as.any fun a => a.made.isNone && (match s.nestUnit c a.kind 128 128 a.va with
          | .error .wait => true
          | _ => false)
        if waits then [] else [⟨.group c r.grp, s.engineReqs c false as, as, r.pc⟩]

/-- Every access in progress of a core. -/
def State.accesses (s : State) (c : CoreId) : List Access :=
  ((s.core c).loads.filter fun r => r.buf.isNone).map (fun r => ⟨.load c r.seq, r.units.map (loadReq r.planed), [], r.pc⟩) ++
    coreStreams.flatMap (s.streamAccesses c) ++ s.pumpAccess c false ++ s.pumpAccess c true ++ s.nestAccess c

/-- The access is one whose requests are made as its granules are injected, or as it is performed: a walk's, or an engine's. The
requests of a stream's loads and stores are made at their issue. -/
def Access.late (a : Access) : Bool :=
  match a.owner with
  | .walk _ _ => true
  | .unit _ _ _ => true
  | .group _ _ => true
  | _ => false

/-- The requests of such an access are made (R414), and what an engine looks up fills the TLBs (R10). -/
def State.announce (s : State) (a : Access) : State :=
  if a.late then (s.requests a.owner.core a.pc a.owner a.reqs).engineFill a.owner.core a.attempts else s

/-- Granules of an access that have been injected. -/
def State.injectedOf (s : State) (o : ReqOwner) : Nat := ((s.injected.find? fun e => e.1 == o).map (·.2)).getD 0

/-- Some granule of an access has been injected. -/
def State.begun (s : State) (a : Access) : Bool := s.injected.any fun e => e.1 == a.owner

/-- The granules of an access that wait to be injected (R398). -/
def State.waits (s : State) (a : Access) : List (Option Nat) := a.granules.drop (s.injectedOf a.owner)

/-- The accesses of a core with granules that wait; a gated core injects nothing (R412), and without a task there is none. -/
def State.waitingOn (s : State) (c : CoreId) : List Access :=
  if (s.core c).gated || (s.core c).task.isNone then [] else (s.accesses c).filter fun a => !(s.waits a).isEmpty

/-- The cores of a partition on a die with a task. -/
def State.coresOn (s : State) (die : Bool) (p : PartId) : List CoreId :=
  (List.finRange 208).filter fun c => (dieOf c == 1) == die && ((s.core c).task.map fun t => t.part) == some p

/-- Granules a partition has waiting at the ports of a die. -/
def State.waiting (s : State) (die : Bool) (p : PartId) : Nat :=
  ((s.coresOn die p).map fun c => ((s.waitingOn c).map fun a => (s.waits a).length).sum).sum

/-- Some granule waits at a port of a die. -/
def State.anyWaiting (s : State) (die : Bool) : Bool :=
  (List.finRange 208).any fun c => (dieOf c == 1) == die && !(s.waitingOn c).isEmpty

/-- The partitions with units on a die, lowest number first, after their refill. -/
def State.claimants (s : State) (die : Bool) : List Claimant :=
  ((List.finRange 64).filter fun q => s.onDie die q).map fun q =>
    let r := s.part q
    let tok := if die then r.tok1 + r.share true + r.cred1 else r.tok0 + r.share false + r.cred0
    let wait := s.waiting die q
    ⟨q, r.share die, r.depth.toNat, tok, wait, min wait tok, 0⟩

/-- Descending SHARE, ties to the lower number. -/
def shareBefore (a b : Claimant) : Bool := decide (b.share < a.share) || (a.share == b.share && decide (a.p.val ≤ b.p.val))

/-- One pass that hands out single slots, in order, to those that want more; how many are left. -/
def handPass : List Claimant → Nat → List Claimant × Nat
  | [], n => ([], n)
  | c :: cs, n =>
    if 0 < n && c.give < c.want then
      let r := handPass cs (n - 1)
      ({ c with give := c.give + 1 } :: r.1, r.2)
    else
      let r := handPass cs n
      (c :: r.1, r.2)

/-- Slots handed out one at a time until none is left or wanted. -/
def handOut (cs : List Claimant) (n : Nat) : Nat → List Claimant
  | 0 => cs
  | k + 1 => let r := handPass cs n; handOut r.1 r.2 k

/-- What each is given: all it wants, or its part of 100 slots and then single slots. -/
def giveAll (cs : List Claimant) : List Claimant :=
  if (cs.map (·.want)).sum ≤ 100 then cs.map fun c => { c with give := c.want }
  else
    let total := ((cs.filter fun c => decide (0 < c.want)).map (·.share)).sum
    let first := cs.map fun c => { c with give := min c.want (100 * c.share / total) }
    let left := 100 - (first.map (·.give)).sum
    handOut (first.mergeSort shareBefore) left 100

/-- The credits one partition's spare tokens make (R398): to the others that still wait, by share, the remainder to
the lowest number. -/
def creditsOf (cs : List Claimant) (c : Claimant) : List (PartId × Nat) :=
  let spare := c.tok - c.give - c.depth
  let to_ := cs.filter fun d => d.p != c.p && decide (d.give < d.wait)
  let total := (to_.map (·.share)).sum
  let parts := to_.map fun d => (d.p, spare * d.share / total)
  let rest := spare - (parts.map (·.2)).sum
  let low := (to_.map fun d => d.p.val).min?
  parts.map fun e => (e.1, if low == some e.1.val then e.2 + rest else e.2)

/-- A bucket after a number of ticks in which nothing waits anywhere on the die: what it may not keep is credited to
nobody. -/
def idleTokens (tok cred share depth n : Nat) : Nat := if n == 0 then tok else min (tok + cred + n * share) depth

/-- Ticks of a die that no BANDWIDTH_TICK divided: no granule waited in them. -/
def State.idleTo (s : State) (die : Bool) (tick : Nat) : State :=
  let i := if die then 1 else 0
  let n := tick - (s.ticked[i]?).getD 0
  if n == 0 then s
  else
    { s with ticked := s.ticked.setIfInBounds i tick,
             parts := s.parts.mapFinIdx fun q r h =>
               if !s.onDie die ⟨q, h⟩ then r
               else if die then { r with tok1 := idleTokens r.tok1 r.cred1 (r.share true) r.depth.toNat n, cred1 := 0 }
               else { r with tok0 := idleTokens r.tok0 r.cred0 (r.share false) r.depth.toNat n, cred0 := 0 } }

/-- Granules injected toward regions of memory in this tick (R407). -/
def State.noteDemand (s : State) (gs : List (Option Nat)) : State :=
  { s with scrub := s.scrub.mapFinIdx fun i (r : ScrubRegion) h =>
      let n := (gs.filter fun g => (g.bind fun g => regionOf (64 * g)) == some ⟨i, h⟩).length
      if n == 0 then r
      else { r with demand := (s.tick, n) :: r.demand.filter fun d => decide (s.tick < d.1 + 4000) } }

/-- Granules of one access are injected, at most n: the state, and how many more may be. With the first of them its requests are
made. -/
def State.injectSome (s : State) (a : Access) (n : Nat) : State × Nat :=
  let now := (s.waits a).take n
  if now.isEmpty then (s, n)
  else
    let e := (a.owner, s.injectedOf a.owner + now.length)
    let t := if s.begun a then s else s.announce a
    ({ t with injected := e :: t.injected.filter fun e => e.1 != a.owner }.noteDemand now, n - now.length)

/-- A partition's granules are injected on a die, n of them: those of the cores named first, then by core, and on a core in the
order of its accesses, which the spec leaves open (assumption log 23). -/
def State.inject (s : State) (die : Bool) (p : PartId) (first : List CoreId) (n : Nat) : State :=
  let mine := s.coresOn die p
  let cs := (first.filter mine.contains).eraseDups ++ mine.filter fun c => !first.contains c
  ((cs.flatMap s.waitingOn).foldl (fun (a : State × Nat) acc => a.1.injectSome acc a.2) (s, n)).1

/-- One tick of one die: refill, want, give, inject, and spare tokens. -/
def State.divide (s : State) (die : Bool) (first : List CoreId) : State :=
  let cs := giveAll (s.claimants die)
  let credits := (cs.map (creditsOf cs)).flatten
  let s := cs.foldl (fun s c => s.inject die c.p first c.give) s
  cs.foldl (fun s c =>
    let tok := min (c.tok - c.give) c.depth
    let cred := ((credits.filter fun e => e.1 == c.p).map (·.2)).sum
    s.modPart c.p fun r => if die then { r with tok1 := tok, cred1 := cred } else { r with tok0 := tok, cred0 := cred }) s

/-- This tick of one die, once. -/
def State.divideTick (s : State) (die : Bool) (first : List CoreId) : State :=
  let i := if die then 1 else 0
  if s.tick < (s.ticked[i]?).getD 0 then s
  else
    let s := (s.idleTo die s.tick).divide die first
    { s with ticked := s.ticked.setIfInBounds i (s.tick + 1) }

/-- BANDWIDTH_TICK (R398): this tick of one die, once, for the granules that wait now; a tick in which granules wait and that the
schedule does not divide is divided at its end. -/
def execBandwidthTick (die : Bool) (first : List CoreId) (s : State) : Out := .next (s.divideTick die first)

/-- The end of a tick on a die where granules wait (R398). -/
def State.divideEnd (s : State) (die : Bool) : State := if s.anyWaiting die then s.divideTick die [] else s

/-! ### Accesses whose granules wait (R398) -/

/-- A state's access has been performed in a later one; what a walk waits for is State.walkWaits. -/
def State.performed (t : State) (o : ReqOwner) : Bool :=
  match o with
  | .walk _ _ => false
  | .unit c second n => match (t.core c).pump second with
    | .running m u none => unitNumber m u != n
    | _ => true
  | .group c n => match (t.core c).nestHead with
    | some r => r.grp != n
    | none => true
  | o => t.reqDone o

/-- Reads of a stream's walk wait to be injected. -/
def State.walkWaits (s : State) (c : CoreId) (x : StreamId) : Bool :=
  (s.waitingOn c).any fun a => a.owner == .walk c x

/-- The requests of the accesses that a move has performed whose granules, if any, were not injected: one that goes nowhere near
memory, or one on a core without a task. -/
def State.announceRest (s t : State) (cs : List CoreId) : State :=
  cs.foldl (fun t c => ((s.accesses c).filter fun a => a.late && !s.begun a && t.reqDone a.owner).foldl State.announce t) t

/-- A move performs an access of a core before all its granules have been injected. -/
def State.hurries (s t : State) (c : CoreId) : Bool :=
  ((t.core c).task.map fun k => k.key) == ((s.core c).task.map fun k => k.key) &&
    (s.waitingOn c).any fun a => t.performed a.owner

/-- What has been injected for accesses that are over is forgotten. -/
def State.forget (s : State) : State :=
  if s.injected.isEmpty then s
  else { s with injected := s.injected.filter fun e => (s.accesses e.1.core).any fun a => a.owner == e.1 }

/-! ## Setting and clearing EN (R390 to R396) -/

/-- EN is set (R390, R394, R396, R398, R409): refused with PARTERR, or the partition is enabled with its debug offset
and its buckets at zero; a partition without a key is made anew (R391). -/
def State.enable (s : State) (p : PartId) : State :=
  let r := s.part p
  if r.en then s
  else if r.units == 0 || !s.unitsFree p || !s.sharesOk p (s.partRecord p) then { s with parterr := true }
  else
    let s := (s.idleTo false s.tick).idleTo true s.tick
    let s := if r.key.isNone then s.create p else s
    let s := s.modPart p fun r => { r with en := true, dtoff := 0, tok0 := 0, tok1 := 0, cred0 := 0, cred1 := 0,
                                           kept := if s.hasGangs p then r.kept else 0,
                                           gatedAt := r.gatedAt.map fun _ => s.tick }
    s.owe fun q _ => q == p

/-- EN is cleared (R396): dispatch stops at once; RUNNING nodes go on and READY nodes stay in the well. The units stay the
partition's until its last gang is gone. -/
def State.disable (s : State) (p : PartId) : State :=
  if (s.part p).en then
    (s.modPart p fun r => { r with en := false, invDrained := false, kept := s.unitsOf p }).undispatch p
  else s

/-- PARTITION_ENABLE (R394). -/
def execPartitionEnable (p : PartId) (s : State) : Out := s.bar0 fun s => s.enable p

/-- PARTITION_DISABLE (R396). -/
def execPartitionDisable (p : PartId) (s : State) : Out := s.bar0 fun s => s.disable p

end Sys2Proof.Machine
end

