-- ==== Sys2Proof/Machine/Registers.lean ====
section
/-! DEFINITION. Writes of the management registers that have no row of their own, and loaded images (spec/25 Table 25.1,
spec/23, spec/21 R354, spec/27 Table 27.1, spec/24 R392). -/

namespace Sys2Proof.Machine

/-! ## Partition records (R394, R398) -/

/-- A field that EN locks (R394): a write of it to an enabled partition is discarded with PARTERR. -/
def State.lockedField (s : State) (p : PartId) (f : Partition → Partition) : State :=
  if (s.part p).en then { s with parterr := true } else s.modPart p f

/-- PCTL (Table 25.1): MODE, POLICY at the next tick, and EN with what it starts or stops; a write that EN refuses, or that
would change MODE while EN is set, changes nothing. -/
def State.pctl (s : State) (p : PartId) (v : BitVec 8) : State :=
  let r := s.part p
  let en := v.getLsbD 0
  let mode := v.getLsbD 1
  let set := fun (s : State) => (s.modPart p fun r => { r with shared := mode }).writeLater p (.retire (v.getLsbD 2))
  if r.en && mode != r.shared then { s with parterr := true }
  else if r.en then (if en then set s else set (s.disable p))
  else if en then
    let t := (set s).enable p
    if (t.part p).en then t else { s with parterr := true }
  else set s

/-- SHARE (R398): a write that would take the sum of the enabled shares of a die beyond 100 is discarded with
PARTERR. -/
def State.setShare (s : State) (p : PartId) (die : Bool) (v : BitVec 8) : State :=
  if (s.part p).en && decide (100 < s.shareSum p die + v.toNat) then { s with parterr := true }
  else s.writeLater p (.share die v)

/-! ## Tables (R380, R381) -/

/-- A routing entry goes to the inactive bank (R379, R381). -/
def State.setRoute (s : State) (bank : Bool) (dev : BitVec 16) (v : Word) : State :=
  let e := v &&& 0x3FFFFF
  if bank == s.fabric.routeBank then { s with bankerr := true }
  else if bank then { s with fabric := { s.fabric with routeB := s.fabric.routeB.set dev.toNat e } }
  else { s with fabric := { s.fabric with routeA := s.fabric.routeA.set dev.toNat e } }

/-- A partition-key entry goes to the inactive bank (R380, R381). -/
def State.setKey (s : State) (bank : Bool) (key : BitVec 16) (v : BitVec 32) : State :=
  let e := v &&& 0x800003FF
  if bank == s.fabric.keyBank then { s with bankerr := true }
  else if bank then { s with fabric := { s.fabric with keyB := s.fabric.keyB.set key.toNat e } }
  else { s with fabric := { s.fabric with keyA := s.fabric.keyA.set key.toNat e } }

/-- An export record of a partition (R380), or its removal. -/
def Partition.setExport (r : Partition) (valid : Bool) (e : ExportRec) : Partition :=
  let rest := r.exports.filter fun x => x.idx != e.idx
  { r with exports := if valid then e :: rest else rest }

/-- VFPART (R370, R400): a function that passes to another partition gives up its banks. -/
def State.setVfpart (s : State) (fn : BitVec 6) (p : PartId) : State :=
  if fn == 0 || s.fnPart fn == p then s else (s.resetBanks fn).modFn fn fun r => { r with part := p }

/-- Records held back enter a ring in order while it has room (R376). -/
def Mailbox.refill (m : Mailbox) : Nat → Mailbox
  | 0 => m
  | n + 1 =>
    match m.heldBack with
    | [] => m
    | r :: rest =>
      if (m.mbwr - m.mbrd).toNat < 64 then
        let t := { m with heldBack := [] }.post r
        { t with heldBack := rest }.refill n
      else m

/-! ## Registers of a bank (Table 27.1) -/

/-- A register of a bank, written by a function that owns it and, where it is virtual, has selected it (R410). -/
def State.bankReg (s : State) (fn : BitVec 6) (b : BitVec 7) (f : MBank → MBank) : State :=
  if s.ownsBank fn b then s.modBank b f else s

/-- The part of an address that lies above its alignment: TBASE, LFBASE and LFLEN keep no lower bits (Table 27.1,
assumption log 30). -/
def alignedTo (n : Nat) (v : Word) : Word := BitVec.ofNat 64 (v.toNat / n * n)

/-- The bits of BFILT an owner can write: a VF's bank has its own PART. -/
def bfiltMask (owner : BitVec 7) : Word := if owner == 0x7F then 0x07FF0001FFFFFFFF else 0x00000001FFFFFFFF

/-- The effect of a write of one management register. -/
def State.mgmtWrite (s : State) (r : MgmtReg) : State :=
  match r with
  | .pctl p v => s.pctl p v
  | .group p v => s.lockedField p fun r => { r with group := v }
  | .units p v => s.lockedField p fun r => { r with units := v }
  | .slice p v => s.writeLater p (.slice v)
  | .saveBase p v => s.lockedField p fun r => { r with saveBase := v }
  | .saveSize p v => s.lockedField p fun r => { r with saveSize := v }
  | .share p die v => s.setShare p die v
  | .depth p v => s.writeLater p (.depth v)
  | .udeleg0 p v => s.writeLater p (.udeleg0 v)
  | .udeleg1 p v => s.writeLater p (.udeleg1 v)
  | .shvec p v => s.writeLater p (.shvec v)
  | .pkey p v => s.writeLater p (.pkey v)
  | .vfpart fn p => s.setVfpart fn p
  | .ptab p v => s.modPart p fun r => { r with ptab := v }
  | .ptlen p v => s.modPart p fun r => { r with ptlen := v }
  | .s2 p en root => s.modPart p fun r => { r with s2en := en, s2root := root }
  | .exportRec p i valid key pasid vbase vsize queue node =>
    s.modPart p fun r => r.setExport valid ⟨i, key, pasid, vbase, vsize, queue, node⟩
  | .devid v => if v == 0xFFFF then s else { s with fabric := { s.fabric with devid := v } }
  | .routing bank dev v => s.setRoute bank dev v
  | .keyTab bank key v => s.setKey bank key v
  | .remapEn v => { s with remapEn := v }
  | .remap fn vec addr data valid => { s with remap := s.remap.set (2048 * fn.toNat + vec.toNat) ⟨addr, data, valid⟩ }
  | .errRd v => { s with errs := { s.errs with rd := v } }
  | .qirq q v => if (s.queue q).qmap.getLsbD 31 then s.modQueue q fun k => { k with qirq := v &&& 0x307FF } else s
  | .bfilt fn b v => s.bankReg fn b fun k => { k with bfilt := v &&& bfiltMask k.owner }
  | .srate fn b v => if v == 0 then s else s.bankReg fn b fun k => { k with srate := v }
  | .tbase fn b v => s.bankReg fn b fun k => { k with tbase := alignedTo 64 v }
  | .tlog2 fn b v => if 6 ≤ v.toNat && v.toNat ≤ 20 then s.bankReg fn b fun k => { k with tlog2 := v } else s
  | .trd fn b v => s.bankReg fn b fun k => { k with trd := v }
  | .lfctl fn b v =>
    (if v.getLsbD 0 && s.ownsBank fn b then s.endReplay b else s).bankReg fn b fun k =>
      { k with lfctl := v &&& 0x1F01, lf := if v.getLsbD 0 then Leapfrog.zero else k.lf }
  | .lfbase fn b v => s.bankReg fn b fun k => { k with lfbase := alignedTo 0x8000 v }
  | .lflen fn b v => s.bankReg fn b fun k => { k with lflen := alignedTo 0x8000 v }
  | .bsel fn b => if fn == 0 then s else s.modFn fn fun r => { r with bsel := b }
  | .fmMbrd v =>
    let m := { s.fmbox with mbrd := v }
    { s with fmbox := m.refill m.heldBack.length }

/-- REGISTER_WRITE (R394, R398, R410): minimal mode discards it (R389). -/
def execRegisterWrite (r : MgmtReg) (s : State) : Out := s.bar0 fun s => s.mgmtWrite r

/-! ## Images (R392) -/

/-- IMAGE_LOADED (R294, R392): the measurement is extended by the SM3 of the image's section bytes before patching, the
load counted, and launches may name the image; the code load is complete, so fetch sees what memory holds (R100, R276). It does not
complete while a core with lines of the partition in its instruction cache is gated (R412). -/
def execImageLoaded (p : PartId) (img : Image) (sections : List Byte) (s : State) : Out :=
  .next (if (s.part p).key.isNone || (s.cores.toList.any fun k => k.gated && k.icache.any fun l => l.part == p) then s
    else
      let s := { s with cores := s.cores.map fun (k : Core) => { k with icache := k.icache.filter fun l => l.part != p } }
      (s.viewCode p none false 0 (2 ^ 51)).modPart p fun r =>
        { r with pmeas := extendMeas r.pmeas (Config.sm3 sections), lcount := r.lcount + 1,
                 images := img :: r.images.filter fun m => m.handle != img.handle })

end Sys2Proof.Machine
end

