-- ==== Sys2Proof/Machine/Reliability.lean ====
section
/-! DEFINITION. Errors of memories and on-chip state, scrubbing, cores taken offline, sensors, power and clocks (spec/26,
spec/28). -/

namespace Sys2Proof.Machine

/-! ## Records of corrected errors (R408) -/

/-- COUNT of a record, one higher. -/
def countRecord (r : BitVec 512) : BitVec 512 := r + (1 <<< 48)

/-- The record at a place of the sequence is still in the ring and has room in its COUNT. -/
def ErrRing.mergeable (e : ErrRing) (i : BitVec 32) : Bool :=
  (e.wr - i).toNat != 0 && decide ((e.wr - i).toNat ≤ (e.wr - e.rd).toNat) && (match e.recs.get? (i.toNat % 4096) with
    | some r => (r.extractLsb' 48 16).toNat != 0xFFFF
    | none => false)

/-- A corrected error of a region or structure (R408): it joins the record of one that came within 2^21 ticks, or
makes its own. -/
def State.correctedRecord (s : State) (key : Nat) (post : State → State) : State :=
  match s.errs.merge.find? fun m => m.key == key && decide (s.tick ≤ m.tick + 2 ^ 21) && s.errs.mergeable m.index with
  | some m =>
    let i := m.index.toNat % 4096
    let r := countRecord ((s.errs.recs.get? i).getD 0)
    { s with errs := { s.errs with recs := s.errs.recs.set i r } }
  | none =>
    let s' := post s
    if s'.errs.wr == s.errs.wr then s'
    else { s' with errs := { s'.errs with merge := ⟨key, s.errs.wr, s.tick⟩ :: s.errs.merge.filter fun m => m.key != key } }

/-! ## Scrub regions (R406) -/

/-- The state with one region changed. -/
def State.modRegion (s : State) (r : Fin 40) (f : ScrubRegion → ScrubRegion) : State :=
  { s with scrub := s.scrub.set r.val (f s.scrub[r.val]) }

/-- A corrected error of a granule: its record, and its mark in the region's history. -/
def State.granuleCorrected (s : State) (r : Fin 40) (m : Meets) (pa syn : Nat) : State :=
  (s.correctedRecord r.val fun s => s.errorRecord 1 2 (regionUnit r) m.part 1 pa m.id m.pc.toNat syn).modRegion r fun g =>
    { g with corrected := s.tick :: g.corrected }

/-! ## Errors by structure (Table 26.1) -/

/-- A number for each structure of each core, beyond those of the regions. -/
def structKey (c : CoreId) (n : Nat) : Nat := 40 + 256 * c.val + n

/-- A corrected error on a core. -/
def State.coreCorrected (s : State) (c : CoreId) (n addr : Nat) (syn : BitVec 32) : State :=
  s.correctedRecord (structKey c n) fun s => s.coreRecord 5 c addr 0 syn.toNat

/-- An uncorrectable error on a core, with what it does. -/
def State.coreError (s : State) (c : CoreId) (addr : Nat) (syn : BitVec 32) (f : Core → Core) : State :=
  (s.modCore c f).coreRecord 6 c addr 0 syn.toNat

/-- STRUCT of a failing state (R404); a number of the model's for a save-area header, to which the rule gives none. -/
def eccCode : EccStruct → Nat
  | .sreg _ | .preg _ | .kreg _ => 1
  | .count _ => 2
  | .cell _ => 3
  | .tag _ => 4
  | .csr _ => 5
  | .header => 6

/-- The bytes of the instruction that a stream fetches next, as far as its header gives them (R98). -/
def State.fetchSize (s : State) (c : CoreId) (x : StreamId) : Nat :=
  match s.fetchAt c x (s.stream c x).pc with
  | .ok f => f.len
  | .badPrefix _ len => len
  | .poison _ _ len => max 2 len
  | _ => 2

/-- A stream's fetch of its next instruction, which no line of the instruction cache holds, reads a granule. -/
def State.fetchesAt (s : State) (c : CoreId) (x : StreamId) (g : Nat) : Bool :=
  let k := s.core c
  let v := s.stream c x
  k.canIssue x && !v.breaks && v.ibuf.isNone && (k.cached x v.pc).isNone && (List.range (s.fetchSize c x)).any fun i =>
    let va := v.pc.toNat + i
    decide (va < windowBase) && (match s.translateNow c (k.ctx x .fetch) va with
      | .ok pa => pa / 64 == g
      | _ => false)

/-- The access of a core in progress that meets an error of a granule: the first that injects it, or a stream's fetch of it. -/
def State.coreMeets (s : State) (c : CoreId) (g : Nat) : Option Meets :=
  if (s.core c).task.isNone then none
  else match (s.accesses c).find? fun a => a.granules.contains (some g) with
    | some a => some (s.meets c a.pc)
    | none => (coreStreams.find? fun x => s.fetchesAt c x g).map fun x => s.meets c (s.stream c x).pc

/-- The access in progress that meets an error of a granule, as its record names it (Table 26.4): the first, by core, or none. -/
def State.meetsAt (s : State) (g : Nat) : Meets :=
  match (List.finRange 208).findSome? fun c => s.coreMeets c g with
  | some m => m
  | none => meetsNone 0xFFFF

/-- MEMORY_ERROR (R401): a corrected error changes no value; an uncorrectable one poisons its granule or row, is lost
with its cache line, or raises on CTRL, where no instruction reads the state. A completion of host memory that PCI Express
marks poisoned is read as a poisoned granule. A stream whose clocks stand reads nothing (R412). -/
def execMemoryError (what : MemStruct) (uncorrectable : Bool) (syndrome : BitVec 32) (s : State) : Out :=
  .next (match what with
    | .global g =>
      let pa := 64 * g.toNat
      match regionOf pa with
      | none => if inHost pa && uncorrectable then s.granulePoisoned (s.meetsAt g.toNat) pa syndrome.toNat else s
      | some r =>
        if uncorrectable then s.granulePoisoned (s.meetsAt g.toNat) pa syndrome.toNat
        else s.granuleCorrected r (s.meetsAt g.toNat) pa syndrome.toNat
    | .cistern c g =>
      if uncorrectable then s.coreError c 0 syndrome fun k => k.spoilCistern g.toNat
      else s.coreCorrected c 8 0 syndrome
    | .wbuf c g =>
      if uncorrectable then s.coreError c 0 syndrome fun k => { k with wbuf := k.wbuf.mark g.toNat true }
      else s.coreCorrected c 9 0 syndrome
    | .tile c r row =>
      if uncorrectable then s.coreError c 0 syndrome fun k =>
        k.putData (.tile r) (.tile 0 0 (BitVec.allOnes 32) (1 <<< row.toNat))
      else s.coreCorrected c 10 0 syndrome
    | .acc c r row =>
      if uncorrectable then s.coreError c 0 syndrome fun k =>
        k.putData (.acc r) (.acc 0 0 (BitVec.allOnes 128) (1 <<< row.toNat))
      else s.coreCorrected c 11 0 syndrome
    | .state c x =>
      if uncorrectable then s.eccState c none x syndrome.toNat
      else (s.coreCorrected c (eccCode x) (eccEaddr (Config.freeWord s.fresh) x).toNat syndrome).useFresh
    | .icache c =>
      let s := s.modCore c fun k => { k with icache := [] }
      if uncorrectable then s.coreRecord 6 c 0 0 syndrome.toNat else s.coreCorrected c 12 0 syndrome)

/-! ## Cores taken offline (R405) -/

/-- CORE_OFFLINE (R405): once its gang has retired or been saved, a worn core serves no gang until the next start. -/
def execCoreOffline (c : CoreId) (s : State) : Out :=
  let k := s.core c
  .next (if k.offline || !k.worn || k.task.isSome || (s.heldBy c).isSome then s
    else
      let part := match (List.finRange 64).find? fun p => (s.part p).en && s.coreIn p c with
        | some p => p.val
        | none => 0xFFFF
      (s.modCore c fun k => { k with offline := true }).errorRecord 7 (dieOf c) c.val part 1 0 0 0 0)

/-! ## Scrubbing (R406, R407) -/

/-- The cost of one granule, in the unit in which a region's lag is counted (assumption log 19): its rate is size · M bytes in
86,400 s of 2 · 10^9 ticks, and M is held in sixteenths. -/
def granuleCost : Nat := 64 * 86400 * 2000000000 * 16

/-- A region's lag at a tick: each tick adds what its rate reads in one (R406). -/
def ScrubRegion.lagAt (g : ScrubRegion) (size tick : Nat) : Nat := g.lag + (tick - g.counted) * size * g.mult16

/-- The lag counted up to a tick, before the rate changes. -/
def ScrubRegion.countTo (g : ScrubRegion) (size tick : Nat) : ScrubRegion :=
  { g with lag := g.lagAt size tick, counted := tick }

/-- Bytes that a region delivers in 2,000 ticks at its peak, times the number of its kind: 26.2 TB/s in eight stacks, 1.69 TB/s in
32 channels (Table 0.1). -/
def peakBytes (r : Fin 40) : Nat × Nat := if r.val < 8 then (26200000, 8) else (1690000, 32)

/-- The demand on a region in the 2,000 ticks up to a tick exceeded 85 % of its peak (R407). -/
def ScrubRegion.crowded (g : ScrubRegion) (r : Fin 40) (tick : Nat) : Bool :=
  let n := ((g.demand.filter fun d => decide (d.1 ≤ tick) && decide (tick < d.1 + 2000)).map (·.2)).sum
  decide (85 * (peakBytes r).1 < 100 * (64 * n * (peakBytes r).2))

/-- The channel yields (R407): at some tick of the last 2,000 its demand over the 2,000 ticks before exceeded 85 % of its peak.
Demand is what the core ports inject toward it (assumption log 19); it rises only in ticks that inject. -/
def ScrubRegion.yields (g : ScrubRegion) (r : Fin 40) (tick : Nat) : Bool :=
  ((tick - 2000) :: (g.demand.map (·.1)).filter fun t => decide (tick < t + 2000) && decide (t ≤ tick)).any (g.crowded r)

/-- A scrub read is due (R406, R407): the scrub lags its position by a granule, it reads at no more than twice its rate, and
its channel does not yield. -/
def ScrubRegion.due (g : ScrubRegion) (r : Fin 40) (tick : Nat) : Bool :=
  decide (granuleCost ≤ g.lagAt (regionSize r) tick) && !g.yields r tick &&
    (match g.last with
    | some t => decide (granuleCost ≤ 2 * (tick - t) * regionSize r * g.mult16)
    | none => true)

/-- SCRUB_READ: the next granule of a region is read when it is due; a corrected error is written back, an uncorrectable one
poisons the granule; a completed pass writes its record. -/
def execScrubRead (region : Fin 40) (corrected uncorrectable : Bool) (s : State) : Out :=
  .next (if !s.scrub[region.val].due region s.tick then s
    else
      let pos := s.scrub[region.val].pos
      let pa := regionBase region + 64 * pos
      let s := if uncorrectable then s.granulePoisoned (meetsNone 0xFFFF) pa 0
        else if corrected then s.granuleCorrected region (meetsNone 0xFFFF) pa 0
        else s
      let s := s.modRegion region fun g =>
        let g := g.countTo (regionSize region) s.tick
        { g with lag := g.lag - granuleCost, last := some s.tick }
      if 64 * (pos + 1) < regionSize region then s.modRegion region fun g => { g with pos := pos + 1 }
      else (s.modRegion region fun g => { g with pos := 0, passes := g.passes + 1 }).errorRecord 8 2 (regionUnit region)
        0xFFFF 1 0 0 0 0)

/-- 16 · M of R406, from a temperature and the corrected errors of the last 10 s. -/
def scrubMult16 (temp errors : Nat) : Nat := min 4096 (2 ^ ((temp - 75) / 10) * (16 + errors))

/-! ## Sensors, power and clocks (R422 to R426) -/

/-- The hottest junction (R426). -/
def Power.junction (w : Power) : Nat := w.junctions.toList.foldl max 0

/-- The clock and its flags under the junctions' temperatures (R423): 105 °C forces 1.0 GHz until it falls below 100. -/
def Power.junctionsSeen (w : Power) (ts : Vector Nat 8) : Power :=
  let w := { w with junctions := ts }
  let tcap := if 105 ≤ w.junction then true else if w.junction < 100 then false else w.tcap
  { w with tcap := tcap, fstep := if tcap then 10 else w.fstep, pcap := w.pcap && !tcap }

/-- A sample is due: n ticks after the one before, or after the start. -/
def sampleDue (last : Option Nat) (start n tick : Nat) : Bool := decide (last.getD start + n ≤ tick)

/-- The region as a sample leaves it: its temperature, the errors of the last 10 s, and the rate from now on (R406). -/
def ScrubRegion.sampled (g : ScrubRegion) (size temp tick : Nat) : ScrubRegion :=
  let last := g.corrected.filter fun t => decide (tick < t + 20000000000)
  { g.countTo size tick with temp := temp, corrected := last, mult16 := scrubMult16 temp last.length }

/-- The readings of all sensors, taken together. -/
def State.sensed (s : State) (temps : Vector Nat 40) (js : Vector Nat 8) : State :=
  { s with scrub := s.scrub.mapFinIdx fun i g h => g.sampled (regionSize ⟨i, h⟩) temps[i] s.tick,
           power := { s.power.junctionsSeen js with sensedAt := some s.tick } }

/-- A sample of the sensors is due (R426). -/
def State.sensorDue (s : State) : Bool := sampleDue s.power.sensedAt s.boot.powered 2000000 s.tick

/-- SENSOR_SAMPLE (R406, R423, R426): every 2,000,000 ticks all sensors are read together: each region's and the eight
junctions', four on each die; the scrub rates are computed again. -/
def execSensorSample (temps : Vector Nat 40) (die0 die1 : Vector Nat 4) (s : State) : Out :=
  .next (if s.sensorDue then s.sensed temps (die0 ++ die1) else s)

/-- The most board power that R422 allows in a window of 2,000 ticks, in W: 2,640; 10 % above PLIM, or PLIM itself once the
controller has acted on a sample above it; and what the windows of the 2,000,000 ticks up to now leave of their limits, each held
against the PLIM of its time, where time without a sample counts none (assumption log 6). -/
def Power.ceiling (w : Power) (tick : Nat) : Nat :=
  let p := w.plim.toNat
  let last := w.recent.filter fun r => decide (tick < r.1 + 2000000)
  let above := match w.recent with
    | (_, n, q) :: _ => decide (q < n)
    | [] => false
  min (min 2640 (if above then p else 11 * p / 10))
    ((last.map (·.2.2)).sum + (1000 - last.length) * p - (last.map (·.2.1)).sum)

/-- One step of the power controller (R423, Table 28.1). PCAP says that PLIM holds the clock: from a sample at which it is not
raised until it reaches 2.0 GHz or heat forces it (assumption log 6). -/
def Power.sampled (w : Power) (watts : BitVec 12) (tick : Nat) : Power :=
  let p := w.plim.toNat
  let n := watts.toNat
  let step : BitVec 5 :=
    if w.tcap then 10
    else if p < n then (if 10 < w.fstep.toNat then w.fstep - 1 else w.fstep)
    else if 100 * n < 95 * p then (if w.fstep.toNat < 20 then w.fstep + 1 else w.fstep)
    else w.fstep
  { w with bpwr := watts, fstep := step,
           pcap := !w.tcap && decide (step.toNat < 20) && (w.pcap || decide (95 * p ≤ 100 * n)),
           recent := (tick, n, p) :: w.recent.take 998, sampledAt := some tick }

/-- A sample of board power is due (R423). -/
def State.powerDue (s : State) : Bool := sampleDue s.power.sampledAt s.boot.powered 2000 s.tick

/-- POWER_SAMPLE (R422 to R424): every 2,000 ticks, with a power that R422 allows; the clock follows, and no result depends
on it. -/
def execPowerSample (watts : BitVec 12) (s : State) : Out :=
  .next (if s.powerDue && decide (watts.toNat ≤ s.power.ceiling s.tick) then { s with power := s.power.sampled watts s.tick } else s)

/-! ### Samples come in their tick (R423, R426) -/

/-- The module has been started, so its controller and its sensors run. -/
def State.powered (s : State) : Bool := s.boot.stage != .off && !s.power.stopped

/-- The module must stop (R423). -/
def Power.tooHot (w : Power) : Bool := decide (115 ≤ w.junction) && !w.stopped

/-- At 115 °C the module stops, with its record, until a module reset (R423). -/
def State.heatStop (s : State) : State :=
  if s.power.tooHot then { s with power := { s.power with stopped := true } }.errorRecord 6 2 0 0xFFFF 1 0 0 0 0 else s

/-- THERMAL_STOP (R423). -/
def execThermalStop (s : State) : Out := .next s.heatStop

/-- A sample of board power that the schedule has not given is taken, with a value that is free within R422. -/
def State.powerEnd (s : State) : State :=
  if s.powerDue then
    { s with power := s.power.sampled (BitVec.ofNat 12 ((Config.freeWord s.fresh).toNat % (s.power.ceiling s.tick + 1))) s.tick }.useFresh
  else s

/-- A sample of the sensors that the schedule has not given is taken, with free readings; the module stops at once where one is of
115 °C. -/
def State.sensorEnd (s : State) : State :=
  if s.sensorDue then
    let v := fun (i : Nat) => (Config.freeWord (s.fresh + i)).toNat % 256
    { s.sensed (Vector.ofFn fun i => v i.val) (Vector.ofFn fun i => v (40 + i.val)) with fresh := s.fresh + 48 }.heatStop
  else s

/-- The end of a tick in which samples are due. -/
def State.sampleEnd (s : State) : State := if s.powered then s.powerEnd.sensorEnd else s

/-- Ticks to the next samples; one that is due is taken at the end of this tick. -/
def State.sampleTimers (s : State) : List Nat :=
  if s.powered then [max 1 (s.power.sampledAt.getD s.boot.powered + 2000 - s.tick),
    max 1 (s.power.sensedAt.getD s.boot.powered + 2000000 - s.tick)]
  else []

/-- PWRSTAT (Table 28.1). -/
def Power.stat (w : Power) : Word :=
  (0 : BitVec 36) ++ w.bpwr ++ (0 : BitVec 9) ++ bit1 w.tcap ++ bit1 w.pcap ++ w.fstep

/-- PWRCTL_WRITE (R422): a PLIM outside 600 W to 2,400 W is discarded. -/
def execPwrctlWrite (v : BitVec 12) (s : State) : Out :=
  s.bar0 fun s => if 600 ≤ v.toNat && v.toNat ≤ 2400 then { s with power := { s.power with plim := v } } else s

end Sys2Proof.Machine
end

