-- ==== Sys2Proof/Machine/Bar.lean ====
section
/-! DEFINITION. The functions' BARs as the host reads and writes them, and the answer register (spec/23 R370 to R376, spec/25
R394, R399, spec/26 R408, spec/27 R410, spec/28). -/

namespace Sys2Proof.Machine

/-! ## Registers as they read -/

/-- A partition's record (Table 25.1): 0x80 bytes, the reserved ones zero. -/
def Partition.bytes (r : Partition) : List Byte :=
  leBytes 1 ((bit1 r.retire ++ bit1 r.shared ++ bit1 r.en).toNat) ++ leBytes 1 r.group.toNat ++ leBytes 6 0 ++
    leBytes 8 r.units.toNat ++ leBytes 4 r.slice.toNat ++ leBytes 4 0 ++ leBytes 8 r.saveBase.toNat ++
    leBytes 8 r.saveSize.toNat ++ leBytes 1 r.share0.toNat ++ leBytes 1 r.share1.toNat ++ leBytes 2 r.depth.toNat ++
    leBytes 4 0 ++ leBytes 8 r.udeleg0d.toNat ++ leBytes 8 r.udeleg1d.toNat ++ leBytes 8 r.shvecd.toNat ++
    leBytes 2 r.pkey.toNat ++ leBytes 54 0

/-- BANKOWN[b] (R399). -/
def State.bankown (s : State) (b : BitVec 7) : Word := (0 : BitVec 56) ++ bit1 (reservedBank b) ++ (s.bank b).owner

/-- BFILT as it reads: a VF's bank has its own partition in PART, and PEN reads 1 (Table 27.1). -/
def State.bfiltWord (s : State) (k : MBank) : Word :=
  if k.owner == 0 || k.owner == 0x7F then k.bfilt
  else (k.bfilt &&& 0x00000001FFFFFFFF) ||| BitVec.ofNat 64 (2 ^ 58 + 2 ^ 48 * (s.fnPart (k.owner.setWidth 6)).val)

/-- A control register of a bank by its offset, as it reads (Table 27.1). -/
def State.bankWord (s : State) (k : MBank) (off : Nat) : Word :=
  match off with
  | 0x000 => (0 : BitVec 48) ++ k.event ++ (0 : BitVec 5) ++ bit1 k.keyKern ++ k.mode
  | 0x008 => s.bfiltWord k
  | 0x010 => k.total
  | 0x018 => k.bstat
  | 0x020 => k.srate.zeroExtend 64
  | 0x028 => k.tbase
  | 0x030 => k.tlog2.zeroExtend 64
  | 0x038 => k.twr.zeroExtend 64
  | 0x040 => k.trd.zeroExtend 64
  | 0x048 => k.stoptick
  | 0x050 => (0 : BitVec 61) ++ bit1 k.held ++ bit1 k.act ++ bit1 k.arm
  | 0x060 => k.lfctl.zeroExtend 64
  | 0x068 => k.lfbase
  | 0x070 => k.lflen
  | _ => 0

/-- What the host has read. -/
def State.answerRead (s : State) (bs : List Byte) : State := { s with hostRead := bs }

/-- n bytes of a run from an offset on, zero beyond it. -/
def slice (bs : List Byte) (off n : Nat) : List Byte := (List.range n).map fun i => bs.getD (off + i) 0

/-- A read of n bytes that answers a 64-bit register, as it must be read: aligned, whole (R372, R410). -/
def State.readWord (s : State) (ok : Bool) (n : Nat) (v : Word) (f : State → State) : State :=
  if ok && n == 8 then (f s).answerRead (leBytes 8 v.toNat) else s.answerRead (List.replicate n 0)

/-- A read in a bank: a register of 8 bytes, or a cell of 4; a read of BSTAT clears it (R410, R417). -/
def State.bankRegRead (s : State) (fn : BitVec 6) (b : BitVec 7) (off n : Nat) : State :=
  let k := s.bank b
  if !s.readsBank fn b then s.answerRead (List.replicate n 0)
  else if off < 0x1000 then
    s.readWord (off % 8 == 0) n (s.bankWord k off) fun s =>
      if off == 0x018 then match execBstatRead fn b s with
        | .next t => t
        | _ => s
      else s
  else if off % 4 == 0 && n == 4 then s.answerRead (leBytes 4 ((k.cells.get? ((off - 0x1000) / 4)).getD 0))
  else s.answerRead (List.replicate n 0)

/-- A read of a translation port: an aligned read of PSTAT, which clears DROP (R361). -/
def State.portRegRead (s : State) (i off n : Nat) : State :=
  s.readWord (off == 0x48) n (s.portRead i).2 fun s => (s.portRead i).1

/-- The queue that a notify page is bound to (R371); a virtual function reaches none that is enabled for another partition than
its own (R370). -/
def State.queueOfPage (s : State) (fn : BitVec 6) (page : Nat) : Option (BitVec 15) :=
  (s.queues.find? fun e => e.2.qmap.getLsbD 31 && e.2.fn == fn && (e.2.qmap.extractLsb' 8 9).toNat == page &&
    (e.2.st == .disabled || s.mayEnable e.2)).map fun e => BitVec.ofNat 15 e.1

/-- A read of a notify page (Table 23.3). -/
def State.notifyRead (s : State) (fn : BitVec 6) (off n : Nat) : State :=
  match s.queueOfPage fn (off / 0x1000) with
  | none => s.answerRead (List.replicate n 0)
  | some q =>
    let k := s.queue q
    match off % 0x1000 with
    | 0x000 => s.readWord true n (k.ridx ++ k.widx) id
    | 0x008 => s.readWord true n k.qstat id
    | 0x010 => s.readWord true n (k.qirq.zeroExtend 64) id
    | _ => s.answerRead (List.replicate n 0)

/-- A read of the physical function's BAR0, of the places the spec gives an offset; the rest reads zero here (assumption log
30). -/
def State.pfRead (s : State) (off n : Nat) : State :=
  if 0x200000 ≤ off && off < 0x202000 then
    let j := (off - 0x200000) % 0x80
    match cmdPart (BitVec.ofNat 20 ((off - 0x200000) / 0x80)) with
    | some p => s.answerRead (slice (s.partRecord p).bytes j n)
    | none => s.answerRead (List.replicate n 0)
  else if 0x300000 ≤ off && off < 0x300400 then
    s.readWord (off % 8 == 0) n (s.bankown (BitVec.ofNat 7 ((off - 0x300000) / 8))) id
  else if 0x400000 ≤ off && off < 0x440000 then
    let i := (off - 0x400000) / 64
    s.answerRead (slice (leBytes 64 ((s.errs.recs.get? i).getD 0).toNat) (off % 64) n)
  else if off == 0x440000 then s.readWord true n (s.errs.rd.zeroExtend 64) id
  else if off == 0x440008 then s.readWord true n (s.errs.wr.zeroExtend 64) id
  else if off == 0x440010 then s.readWord true n (BitVec.ofNat 64 s.errs.ovf) id
  else if 0x500000 ≤ off && off < 0x900000 then
    let j := (off - 0x500000) % 0x8000
    if j < 0x5000 then s.bankRegRead 0 (BitVec.ofNat 7 ((off - 0x500000) / 0x8000)) j n
    else s.answerRead (List.replicate n 0)
  else if off == 0x900000 then s.readWord true n (s.power.plim.zeroExtend 64) id
  else if off == 0x900008 then s.readWord true n s.power.stat id
  else if 0x1000000 ≤ off then s.portRegRead ((off - 0x1000000) / 0x8000) (off % 0x8000) n
  else s.answerRead (List.replicate n 0)

/-- A read of a virtual function's BAR0 (Table 23.2, R399, R410): its mailbox's 64 records of 64 bytes fill 0x8000 to 0x8FFF; the
spec gives its indexes no place (assumption log 30). -/
def State.vfRead (s : State) (fn : BitVec 6) (off n : Nat) : State :=
  let r := s.fns[fn.toNat]'fn.isLt
  if off < 0x8000 then s.portRegRead ((s.fnPart fn).val + 1) off n
  else if off < 0x9000 then
    s.answerRead (slice (leBytes 64 (((s.mboxes[fn.toNat]'fn.isLt).ring.toList.getD ((off - 0x8000) / 64) 0).toNat)) (off % 64) n)
  else if off == 0x9000 then s.readWord true n (r.bclaim.zeroExtend 64) id
  else if off == 0x9008 then s.readWord true n (r.bsel.zeroExtend 64) id
  else if 0xA000 ≤ off && off < 0xF000 then s.bankRegRead fn r.bsel (off - 0xA000) n
  else s.answerRead (List.replicate n 0)

/-- A read of n bytes of a BAR by the host; in minimal mode it reads zero (R389). -/
def State.barRead (s : State) (fn : BitVec 6) (bar2 : Bool) (off n : Nat) : State :=
  if s.boot.stage == .minimal then s.answerRead (List.replicate n 0)
  else if bar2 then s.notifyRead fn off n
  else if fn == 0 then s.pfRead off n
  else s.vfRead fn off n

/-- MGMTSTAT: the three flags, in the places the model gives them (assumption log 30). -/
def State.mgmtstat (s : State) : Word := (0 : BitVec 61) ++ bit1 s.bankerr ++ bit1 s.binderr ++ bit1 s.parterr

/-- FTSWAP (R381): the active banks and the swaps in progress. -/
def State.ftswap (s : State) : Word :=
  (0 : BitVec 60) ++ bit1 s.fabric.keySwap ++ bit1 s.fabric.routeSwap ++ bit1 s.fabric.keyBank ++ bit1 s.fabric.routeBank

/-- The bytes a register without an offset reads; a virtual function has its mailbox alone (R370), and in minimal mode the
PF mailbox holds its one record (R389). -/
def State.regBytes (s : State) (fn : BitVec 6) (r : HostReg) : List Byte :=
  let m := s.mboxes[fn.toNat]'fn.isLt
  let minimal := s.boot.stage == .minimal
  let pf := fun (bs : List Byte) => if fn == 0 && !minimal then bs else List.replicate bs.length 0
  match r with
  | .mbrd => leBytes 4 (if minimal && fn != 0 then 0 else m.mbrd.toNat)
  | .mbwr => leBytes 4 (if minimal then (if fn == 0 then 1 else 0) else m.mbwr.toNat)
  | .record i =>
    if minimal then (if fn == 0 then leBytes 64 (s.boot.record.toNat / 2 ^ (512 * i.toNat)) else leBytes 64 0)
    else leBytes 64 (m.ring[i.toNat]'i.isLt).toNat
  | .fmMbrd => pf (leBytes 4 s.fmbox.mbrd.toNat)
  | .fmMbwr => pf (leBytes 4 s.fmbox.mbwr.toNat)
  | .fmRecord i => pf (leBytes 64 (s.fmbox.ring[i.toNat]'i.isLt).toNat)
  | .mgmtstat => pf (leBytes 8 s.mgmtstat.toNat)
  | .ftswap => pf (leBytes 8 s.ftswap.toNat)
  | .remapEn => pf (leBytes 4 (if s.remapEn then 1 else 0))
  | .devid => pf (leBytes 2 s.fabric.devid.toNat)
  | .ndrop v => pf (leBytes 8 (s.fns[v.toNat]'v.isLt).ndrop)
  | .vfpart v => pf (leBytes 2 (s.fnPart v).val)
  | .qmap q => pf (leBytes 4 (s.queue q).qmap.toNat)
  | .descriptor q => pf (leBytes 64 (s.queue q).desc.toNat)
  | .remap v i => pf (match s.remap.get? (2048 * v.toNat + i.toNat) with
    | some e => leBytes 8 e.addr.toNat ++ leBytes 4 e.data.toNat ++ leBytes 1 (if e.valid then 1 else 0) ++ leBytes 3 0
    | none => leBytes 16 0)
  | .routing b d => pf (leBytes 8 ((((if b then s.fabric.routeB else s.fabric.routeA).get? d.toNat).getD 0).toNat))
  | .keyTab b d => pf (leBytes 4 ((((if b then s.fabric.keyB else s.fabric.keyA).get? d.toNat).getD 0).toNat))

/-- The host reads a register without an offset. -/
def State.regRead (s : State) (fn : BitVec 6) (r : HostReg) : State := s.answerRead (s.regBytes fn r)

/-! ## Writes -/

/-- The bytes of a record with some of them written. -/
def overlay (old : List Byte) (off : Nat) (bs : List Byte) : List Byte :=
  old.mapIdx fun i b => if off ≤ i then bs.getD (i - off) b else b

/-- The fields of a partition's record: place, size, and what a write of the value does (Table 25.1). -/
def recordFields (p : PartId) : List (Nat × Nat × (Nat → MgmtReg)) :=
  [(0x00, 1, fun v => .pctl p (BitVec.ofNat 8 v)), (0x01, 1, fun v => .group p (BitVec.ofNat 4 v)),
    (0x08, 8, fun v => .units p (BitVec.ofNat 26 v)), (0x10, 4, fun v => .slice p (BitVec.ofNat 32 v)),
    (0x18, 8, fun v => .saveBase p (BitVec.ofNat 64 v)), (0x20, 8, fun v => .saveSize p (BitVec.ofNat 64 v)),
    (0x28, 1, fun v => .share p false (BitVec.ofNat 8 v)), (0x29, 1, fun v => .share p true (BitVec.ofNat 8 v)),
    (0x2A, 2, fun v => .depth p (BitVec.ofNat 16 v)), (0x30, 8, fun v => .udeleg0 p (BitVec.ofNat 64 v)),
    (0x38, 8, fun v => .udeleg1 p (BitVec.ofNat 64 v)), (0x40, 8, fun v => .shvec p (BitVec.ofNat 64 v)),
    (0x48, 2, fun v => .pkey p (BitVec.ofNat 16 v))]

/-- A write of bytes of a partition's record: every field it touches is written; reserved bytes ignore it (R394). -/
def State.recordWrite (s : State) (p : PartId) (off : Nat) (bs : List Byte) : State :=
  let new := overlay (s.partRecord p).bytes off bs
  (recordFields p).foldl (fun s f =>
    if f.1 < off + bs.length && off < f.1 + f.2.1 then s.mgmtWrite (f.2.2 (field new f.1 f.2.1)) else s) s

/-- The state an event leaves, where it goes on. -/
def State.after (s : State) (o : Out) : State :=
  match o with
  | .next t => t
  | _ => s

/-- A write of a control register of a bank (Table 27.1). -/
def State.bankRegWrite (s : State) (fn : BitVec 6) (b : BitVec 7) (off : Nat) (v : Word) : State :=
  let k := s.bank b
  match off with
  | 0x000 => s.after (execBctlWrite fn b v s)
  | 0x008 => s.mgmtWrite (.bfilt fn b v)
  | 0x020 => s.mgmtWrite (.srate fn b (v.setWidth 24))
  | 0x028 => s.mgmtWrite (.tbase fn b v)
  | 0x030 => s.mgmtWrite (.tlog2 fn b (v.setWidth 5))
  | 0x040 => s.mgmtWrite (.trd fn b (v.setWidth 32))
  | 0x048 => s.after (execStoptickArm fn b v k.arm k.act s)
  | 0x050 => s.after (execStoptickArm fn b k.stoptick (v.getLsbD 0) (v.getLsbD 1) s)
  | 0x058 => s.after (execRelease fn b s)
  | 0x060 => s.mgmtWrite (.lfctl fn b (v.setWidth 13))
  | 0x068 => s.mgmtWrite (.lfbase fn b v)
  | 0x070 => s.mgmtWrite (.lflen fn b v)
  | 0x078 => s.after (execLeap fn b (match (v.extractLsb' 0 2).toNat with
      | 0 => .load
      | 1 => .exec
      | 2 => .store
      | _ => .ctrl) (v.getLsbD 2) s)
  | _ => s

/-- A write of a notify page (Table 23.3, R372, R373). -/
def State.notifyWrite (s : State) (fn : BitVec 6) (off : Nat) (pasid : Option (BitVec 20)) (bs : List Byte) : State :=
  match s.queueOfPage fn (off / 0x1000) with
  | none => s
  | some q =>
    if off % 0x1000 == 0x040 && bs.length == 64 then s.after (execRequestPacket q pasid (recordOf bs) s)
    else if bs.length != 8 then s
    else if off % 0x1000 == 0x000 then s.after (execNotifyWidxWrite q pasid (BitVec.ofNat 32 (leNat bs)) s)
    else if off % 0x1000 == 0x010 then s.mgmtWrite (.qirq q (BitVec.ofNat 18 (leNat bs)))
    else s

/-- A write of the physical function's BAR0, of the places the spec gives an offset. -/
def State.pfWrite (s : State) (off : Nat) (bs : List Byte) : State :=
  let v := BitVec.ofNat 64 (leNat bs)
  if 0x200000 ≤ off && off < 0x202000 then
    match cmdPart (BitVec.ofNat 20 ((off - 0x200000) / 0x80)) with
    | some p => s.recordWrite p ((off - 0x200000) % 0x80) bs
    | none => s
  else if bs.length != 8 || off % 8 != 0 then s
  else if 0x300000 ≤ off && off < 0x300400 then
    if v == 0 || v == 0x7F then s.after (execBankownWrite (BitVec.ofNat 7 ((off - 0x300000) / 8)) (v.setWidth 7) s) else s
  else if off == 0x440000 then s.mgmtWrite (.errRd (v.setWidth 32))
  else if 0x500000 ≤ off && off < 0x900000 then
    s.bankRegWrite 0 (BitVec.ofNat 7 ((off - 0x500000) / 0x8000)) ((off - 0x500000) % 0x8000) v
  else if off == 0x900000 then s.after (execPwrctlWrite (v.setWidth 12) s)
  else if 0x1000000 ≤ off then s.portWrite ((off - 0x1000000) / 0x8000) (off % 0x8000) v
  else s

/-! ## The answer register (R376, R393) -/

/-- Bytes a to b of an answer are zero. -/
def zeroBytes (bs : List Byte) (a b : Nat) : Bool := ((bs.drop a).take (b + 1 - a)).all (· == 0)

/-- A 64-byte write of an answer register (R376, R389, R393): an answer that breaks the layout of its KIND is ignored and
counted. The partition of a report request stands in bytes 0x30 and 0x31, where the rule gives it no place (assumption log
17). In minimal mode the physical function's takes KINDs 0x20 and 0x21 and nothing else: the 64 bytes of a staged image are a
function of the write that the spec does not state, and the start that follows is given what the last one was (assumption log
17). -/
def State.answerWrite (s : State) (fn : BitVec 6) (bs : List Byte) : State :=
  if s.boot.stage == .minimal then
    (if fn != 0 || bs.length != 64 then s
    else match field bs 0 1, s.boot.items with
      | 0x20, _ => s.after (execAnswerFlashWrite (Config.stagedBytes (recordOf bs)) s)
      | 0x21, some inp => s.after (execAnswerRestart inp s)
      | _, _ => s.ignoreAnswer fn)
  else
  let id := BitVec.ofNat 64 (field bs 8 8)
  let role := BitVec.ofNat 16 (field bs 16 2)
  let plain := bs.length == 64 && zeroBytes bs 0x01 0x07 && zeroBytes bs 0x12 0x3F
  let report := bs.length == 64 && zeroBytes bs 0x01 0x0F && zeroBytes bs 0x32 0x3F
  match field bs 0 1 with
  | 1 => if plain then s.after (execAnswerRetry fn id role s) else s.ignoreAnswer fn
  | 2 => if plain then s.after (execAnswerSkip fn id role s) else s.ignoreAnswer fn
  | 3 => if plain then s.after (execAnswerAbandon fn id role s) else s.ignoreAnswer fn
  | 0x30 =>
    if report then s.after (execAttestRequest fn (BitVec.ofNat 16 (field bs 0x30 2)) (BitVec.ofNat 256 (field bs 0x10 32)) s)
    else s.ignoreAnswer fn
  | _ => s.ignoreAnswer fn

/-! ## Writes of a BAR -/

/-- A write of a virtual function's BAR0; a 64-byte write of its mailbox is an answer (R370, R376, assumption log 30). -/
def State.vfWrite (s : State) (fn : BitVec 6) (off : Nat) (bs : List Byte) : State :=
  let r := s.fns[fn.toNat]'fn.isLt
  let v := BitVec.ofNat 64 (leNat bs)
  if off == 0x8000 && bs.length == 64 then s.answerWrite fn bs
  else if bs.length != 8 || off % 8 != 0 then s
  else if off < 0x8000 then s.portWrite ((s.fnPart fn).val + 1) off v
  else if off == 0x9000 then
    (if v.getLsbD 63 then
      (if 128 ≤ (v.setWidth 63).toNat then s.bclaim fn r.claim 2 else s.after (execBclaimClaim fn (v.setWidth 7) false s))
    else s.after (execBclaimRelease fn (v.setWidth 7) s))
  else if off == 0x9008 then s.mgmtWrite (.bsel fn (v.setWidth 7))
  else if 0xA000 ≤ off && off < 0xF000 then s.bankRegWrite fn r.bsel (off - 0xA000) v
  else s

/-- A write of a BAR by the host, with the PASID it carries; in minimal mode it is discarded (R389). -/
def State.barWrite (s : State) (fn : BitVec 6) (bar2 : Bool) (off : Nat) (pasid : Option (BitVec 20)) (bs : List Byte) :
    State :=
  if s.boot.stage == .minimal then s
  else if bar2 then s.notifyWrite fn off pasid bs
  else if fn == 0 then s.pfWrite off bs
  else s.vfWrite fn off bs

/-- An error of the PCI Express link is reported to the physical function (R369). -/
def State.reportLink (s : State) (code : BitVec 32) : State := { s with aer := s.aer ++ [code] }

end Sys2Proof.Machine
end

