-- ==== Sys2Proof/Machine/Dispatch.lean ====
section
/-! DEFINITION. The dispatch: one arm for each constructor of Instr. -/

namespace Sys2Proof.Machine

/-- What an instruction or event does to a state. -/
def exec (i : Instr) (s : State) : Host.Outcome State Fault Refusal :=
  match i with
  | .add g d a b => Sys2Proof.Machine.execAdd g d a b s
  | .sub g d a b => Sys2Proof.Machine.execSub g d a b s
  | .mul g d a b => Sys2Proof.Machine.execMul g d a b s
  | .mulh g d a b => Sys2Proof.Machine.execMulh g d a b s
  | .mulhu g d a b => Sys2Proof.Machine.execMulhu g d a b s
  | .div g d a b => Sys2Proof.Machine.execDiv g d a b s
  | .divu g d a b => Sys2Proof.Machine.execDivu g d a b s
  | .rem g d a b => Sys2Proof.Machine.execRem g d a b s
  | .remu g d a b => Sys2Proof.Machine.execRemu g d a b s
  | .and g d a b => Sys2Proof.Machine.execAnd g d a b s
  | .or g d a b => Sys2Proof.Machine.execOr g d a b s
  | .xor g d a b => Sys2Proof.Machine.execXor g d a b s
  | .shl g d a b => Sys2Proof.Machine.execShl g d a b s
  | .shr g d a b => Sys2Proof.Machine.execShr g d a b s
  | .sar g d a b => Sys2Proof.Machine.execSar g d a b s
  | .rot g d a b => Sys2Proof.Machine.execRot g d a b s
  | .min g d a b => Sys2Proof.Machine.execMin g d a b s
  | .max g d a b => Sys2Proof.Machine.execMax g d a b s
  | .minu g d a b => Sys2Proof.Machine.execMinu g d a b s
  | .maxu g d a b => Sys2Proof.Machine.execMaxu g d a b s
  | .sel g d a b p => Sys2Proof.Machine.execSel g d a b p s
  | .mov g d a => Sys2Proof.Machine.execMov g d a s
  | .clz g d a => Sys2Proof.Machine.execClz g d a s
  | .ctz g d a => Sys2Proof.Machine.execCtz g d a s
  | .popc g d a => Sys2Proof.Machine.execPopc g d a s
  | .addi g d a imm => Sys2Proof.Machine.execAddi g d a imm s
  | .andi g d a imm => Sys2Proof.Machine.execAndi g d a imm s
  | .ori g d a imm => Sys2Proof.Machine.execOri g d a imm s
  | .xori g d a imm => Sys2Proof.Machine.execXori g d a imm s
  | .shli g d a sh => Sys2Proof.Machine.execShli g d a sh s
  | .shri g d a sh => Sys2Proof.Machine.execShri g d a sh s
  | .sari g d a sh => Sys2Proof.Machine.execSari g d a sh s
  | .li g d imm => Sys2Proof.Machine.execLi g d imm s
  | .lih g d a imm => Sys2Proof.Machine.execLih g d a imm s
  | .lea g d a imm => Sys2Proof.Machine.execLea g d a imm s
  | .cmpEq g d a b => Sys2Proof.Machine.execCmpEq g d a b s
  | .cmpNe g d a b => Sys2Proof.Machine.execCmpNe g d a b s
  | .cmpLt g d a b => Sys2Proof.Machine.execCmpLt g d a b s
  | .cmpLe g d a b => Sys2Proof.Machine.execCmpLe g d a b s
  | .cmpGt g d a b => Sys2Proof.Machine.execCmpGt g d a b s
  | .cmpGe g d a b => Sys2Proof.Machine.execCmpGe g d a b s
  | .cmpLtu g d a b => Sys2Proof.Machine.execCmpLtu g d a b s
  | .cmpLeu g d a b => Sys2Proof.Machine.execCmpLeu g d a b s
  | .cmpGtu g d a b => Sys2Proof.Machine.execCmpGtu g d a b s
  | .cmpGeu g d a b => Sys2Proof.Machine.execCmpGeu g d a b s
  | .pand g d a b => Sys2Proof.Machine.execPand g d a b s
  | .por g d a b => Sys2Proof.Machine.execPor g d a b s
  | .pnot g d a => Sys2Proof.Machine.execPnot g d a s
  | .kset g d imm => Sys2Proof.Machine.execKset g d imm s
  | .kadd g d a imm => Sys2Proof.Machine.execKadd g d a imm s
  | .kmovKS g d a => Sys2Proof.Machine.execKmovKS g d a s
  | .kmovSK g d a => Sys2Proof.Machine.execKmovSK g d a s
  | .kmovKK g d a => Sys2Proof.Machine.execKmovKK g d a s
  | .cadv g x rdr => Sys2Proof.Machine.execCadv g x rdr s
  | .crd g d x => Sys2Proof.Machine.execCrd g d x s
  | .cwait g x k off => Sys2Proof.Machine.execCwait g x k off s
  | .br g off => Sys2Proof.Machine.execBr g off s
  | .bri g a => Sys2Proof.Machine.execBri g a s
  | .call g d off => Sys2Proof.Machine.execCall g d off s
  | .ret g a => Sys2Proof.Machine.execRet g a s
  | .loop g d kmask drain off => Sys2Proof.Machine.execLoop g d kmask drain off s
  | .dpt a b => Sys2Proof.Machine.execDpt a b s
  | .fork => Sys2Proof.Machine.execFork s
  | .join => Sys2Proof.Machine.execJoin s
  | .endStream => Sys2Proof.Machine.execEndStream s
  | .post g a => Sys2Proof.Machine.execPost g a s
  | .tld g d base str off => Sys2Proof.Machine.execTld g d base str off s
  | .tldp g d n rn1 base str off => Sys2Proof.Machine.execTldp g d n rn1 base str off s
  | .tst g a base str off => Sys2Proof.Machine.execTst g a base str off s
  | .tstp g a n cm base str off => Sys2Proof.Machine.execTstp g a n cm base str off s
  | .ldsU8 g t base off => Sys2Proof.Machine.execLdsU8 g t base off s
  | .ldsU16 g t base off => Sys2Proof.Machine.execLdsU16 g t base off s
  | .ldsU32 g t base off => Sys2Proof.Machine.execLdsU32 g t base off s
  | .ldsU64 g t base off => Sys2Proof.Machine.execLdsU64 g t base off s
  | .ldsI8 g t base off => Sys2Proof.Machine.execLdsI8 g t base off s
  | .ldsI16 g t base off => Sys2Proof.Machine.execLdsI16 g t base off s
  | .ldsI32 g t base off => Sys2Proof.Machine.execLdsI32 g t base off s
  | .stsU8 g t base off => Sys2Proof.Machine.execStsU8 g t base off s
  | .stsU16 g t base off => Sys2Proof.Machine.execStsU16 g t base off s
  | .stsU32 g t base off => Sys2Proof.Machine.execStsU32 g t base off s
  | .stsU64 g t base off => Sys2Proof.Machine.execStsU64 g t base off s
  | .lookup g t base off => Sys2Proof.Machine.execLookup g t base off s
  | .tagset g t base off => Sys2Proof.Machine.execTagset g t base off s
  | .taginv g base off => Sys2Proof.Machine.execTaginv g base off s
  | .probe g t base off range => Sys2Proof.Machine.execProbe g t base off range s
  | .vadd g d a b ty rs sat mk => Sys2Proof.Machine.execVadd g d a b ty rs sat mk s
  | .vsub g d a b ty rs sat mk => Sys2Proof.Machine.execVsub g d a b ty rs sat mk s
  | .vmul g d a b ty rs sat mk => Sys2Proof.Machine.execVmul g d a b ty rs sat mk s
  | .vfma g d a b c ty rs sat mk => Sys2Proof.Machine.execVfma g d a b c ty rs sat mk s
  | .vfms g d a b c ty rs sat mk => Sys2Proof.Machine.execVfms g d a b c ty rs sat mk s
  | .vmin g d a b ty mk => Sys2Proof.Machine.execVmin g d a b ty mk s
  | .vmax g d a b ty mk => Sys2Proof.Machine.execVmax g d a b ty mk s
  | .vabs g d a ty sat mk => Sys2Proof.Machine.execVabs g d a ty sat mk s
  | .vneg g d a ty sat mk => Sys2Proof.Machine.execVneg g d a ty sat mk s
  | .vdiv g d a b ty rs sat mk => Sys2Proof.Machine.execVdiv g d a b ty rs sat mk s
  | .vsqrt g d a ty rs sat mk => Sys2Proof.Machine.execVsqrt g d a ty rs sat mk s
  | .vrcp g d a ty sat mk => Sys2Proof.Machine.execVrcp g d a ty sat mk s
  | .vrsq g d a ty sat mk => Sys2Proof.Machine.execVrsq g d a ty sat mk s
  | .vexp2 g d a ty sat mk => Sys2Proof.Machine.execVexp2 g d a ty sat mk s
  | .vlog2 g d a ty sat mk => Sys2Proof.Machine.execVlog2 g d a ty sat mk s
  | .vand g d a b ty mk => Sys2Proof.Machine.execVand g d a b ty mk s
  | .vor g d a b ty mk => Sys2Proof.Machine.execVor g d a b ty mk s
  | .vxor g d a b ty mk => Sys2Proof.Machine.execVxor g d a b ty mk s
  | .vnot g d a ty mk => Sys2Proof.Machine.execVnot g d a ty mk s
  | .vshl g d a b ty mk => Sys2Proof.Machine.execVshl g d a b ty mk s
  | .vshr g d a b ty mk => Sys2Proof.Machine.execVshr g d a b ty mk s
  | .vsar g d a b ty mk => Sys2Proof.Machine.execVsar g d a b ty mk s
  | .vcmp g d a b cond ty mk => Sys2Proof.Machine.execVcmp g d a b cond ty mk s
  | .vcmpb g d a b cond mk => Sys2Proof.Machine.execVcmpb g d a b cond mk s
  | .vsel g d a b c ty mk => Sys2Proof.Machine.execVsel g d a b c ty mk s
  | .vcvt g d a sty dty rs sat part mk => Sys2Proof.Machine.execVcvt g d a sty dty rs sat part mk s
  | .vmov g d a mk => Sys2Proof.Machine.execVmov g d a mk s
  | .vsplat g d a ty mk => Sys2Proof.Machine.execVsplat g d a ty mk s
  | .vgete g d a b ty mk => Sys2Proof.Machine.execVgete g d a b ty mk s
  | .vpute g d a b c ty mk => Sys2Proof.Machine.execVpute g d a b c ty mk s
  | .vred g d a op row ty rs sat mk => Sys2Proof.Machine.execVred g d a op row ty rs sat mk s
  | .vscan g d a op row ty rs sat mk => Sys2Proof.Machine.execVscan g d a op row ty rs sat mk s
  | .vpxor g d a tile ty mk => Sys2Proof.Machine.execVpxor g d a tile ty mk s
  | .vclmul g d a b hi mk => Sys2Proof.Machine.execVclmul g d a b hi mk s
  | .vpopc g d a ty mk => Sys2Proof.Machine.execVpopc g d a ty mk s
  | .vclz g d a ty mk => Sys2Proof.Machine.execVclz g d a ty mk s
  | .vperm g d a b ty mk => Sys2Proof.Machine.execVperm g d a b ty mk s
  | .vshuf g d a b mk => Sys2Proof.Machine.execVshuf g d a b mk s
  | .vtrn g d a ty mk => Sys2Proof.Machine.execVtrn g d a ty mk s
  | .vbcastr g d a b mk => Sys2Proof.Machine.execVbcastr g d a b mk s
  | .vcomp g d a b ty mk => Sys2Proof.Machine.execVcomp g d a b ty mk s
  | .wlatch g d a ws ss fmt np rn => Sys2Proof.Machine.execWlatch g d a ws ss fmt np rn s
  | .wclr g => Sys2Proof.Machine.execWclr g s
  | .mma g d a b c ty band ksel mk zs => Sys2Proof.Machine.execMma g d a b c ty band ksel mk zs s
  | .amovToTile g d a q j mk => Sys2Proof.Machine.execAmovToTile g d a q j mk s
  | .amovToAcc g d a q j mk => Sys2Proof.Machine.execAmovToAcc g d a q j mk s
  | .azero g d => Sys2Proof.Machine.execAzero g d s
  | .aadd g d a b ty rs sat => Sys2Proof.Machine.execAadd g d a b ty rs sat s
  | .nsetl g l a b c => Sys2Proof.Machine.execNsetl g l a b c s
  | .nsetb g f a => Sys2Proof.Machine.execNsetb g f a s
  | .nstat g d sel => Sys2Proof.Machine.execNstat g d sel s
  | .ngo g d o => Sys2Proof.Machine.execNgo g d o s
  | .orient2 g d pa pb pc => Sys2Proof.Machine.execOrient2 g d pa pb pc s
  | .orient3 g d pa pb pc pd => Sys2Proof.Machine.execOrient3 g d pa pb pc pd s
  | .incirc g d pa pb pc pd => Sys2Proof.Machine.execIncirc g d pa pb pc pd s
  | .insph g d pa pb pc pd => Sys2Proof.Machine.execInsph g d pa pb pc pd s
  | .segx g d pa pb pc pd => Sys2Proof.Machine.execSegx g d pa pb pc pd s
  | .gstat g d sel => Sys2Proof.Machine.execGstat g d sel s
  | .npack g d a mk => Sys2Proof.Machine.execNpack g d a mk s
  | .nunpk g d a mk => Sys2Proof.Machine.execNunpk g d a mk s
  | .nrnd g d a fn ty rs sat mk => Sys2Proof.Machine.execNrnd g d a fn ty rs sat mk s
  | .nmom g d a b c ty rs sat mk => Sys2Proof.Machine.execNmom g d a b c ty rs sat mk s
  | .nupd g d a b c ty k => Sys2Proof.Machine.execNupd g d a b c ty k s
  | .nupdCm g d a b c ty k => Sys2Proof.Machine.execNupdCm g d a b c ty k s
  | .pcopy g d o a b c esz => Sys2Proof.Machine.execPcopy g d o a b c esz s
  | .pgath g d o a b c e esz iw => Sys2Proof.Machine.execPgath g d o a b c e esz iw s
  | .pscat g d o a b c e esz iw => Sys2Proof.Machine.execPscat g d o a b c e esz iw s
  | .pfill g d o a b c esz => Sys2Proof.Machine.execPfill g d o a b c esz s
  | .pwld g d o a b c scl => Sys2Proof.Machine.execPwld g d o a b c scl s
  | .prem g d o a b c e esz => Sys2Proof.Machine.execPrem g d o a b c e esz s
  | .presume g d => Sys2Proof.Machine.execPresume g d s
  | .pcancel g d => Sys2Proof.Machine.execPcancel g d s
  | .pqstat g d sel => Sys2Proof.Machine.execPqstat g d sel s
  | .semadd g o d a b => Sys2Proof.Machine.execSemadd g o d a b s
  | .semswp g o d a b => Sys2Proof.Machine.execSemswp g o d a b s
  | .semcas g o d a b c => Sys2Proof.Machine.execSemcas g o d a b c s
  | .semmax g o d a b u => Sys2Proof.Machine.execSemmax g o d a b u s
  | .semld g o d a => Sys2Proof.Machine.execSemld g o d a s
  | .semwt g o d a b cond => Sys2Proof.Machine.execSemwt g o d a b cond s
  | .fence g o => Sys2Proof.Machine.execFence g o s
  | .bar g ar sc => Sys2Proof.Machine.execBar g ar sc s
  | .nop g => Sys2Proof.Machine.execNop g s
  | .trap g imm => Sys2Proof.Machine.execTrap g imm s
  | .bkpt g imm => Sys2Proof.Machine.execBkpt g imm s
  | .csrr g d c => Sys2Proof.Machine.execCsrr g d c s
  | .csrw g c a => Sys2Proof.Machine.execCsrw g c a s
  | .csrx g d c a => Sys2Proof.Machine.execCsrx g d c a s
  | .tick g d => Sys2Proof.Machine.execTick g d s
  | .eret => Sys2Proof.Machine.execEret s
  | .resumeRetry g x a => Sys2Proof.Machine.execResumeRetry g x a s
  | .resumeSkip g x => Sys2Proof.Machine.execResumeSkip g x s
  | .instructionFetch c x useCache => Sys2Proof.Machine.execInstructionFetch c x useCache s
  | .countWaitResume c x => Sys2Proof.Machine.execCountWaitResume c x s
  | .issueIntervalEnd c mismatch => Sys2Proof.Machine.execIssueIntervalEnd c mismatch s
  | .vectorWriteComplete c ix => Sys2Proof.Machine.execVectorWriteComplete c ix s
  | .tileLoadComplete c ix err => Sys2Proof.Machine.execTileLoadComplete c ix err s
  | .tileStorePerformed c x => Sys2Proof.Machine.execTileStorePerformed c x s
  | .scalarLoadReturn c x err => Sys2Proof.Machine.execScalarLoadReturn c x err s
  | .scalarStorePerformed c x => Sys2Proof.Machine.execScalarStorePerformed c x s
  | .pageWalkComplete c x useL2 wide ecc => Sys2Proof.Machine.execPageWalkComplete c x useL2 wide ecc s
  | .priResponse p pasid page ok => Sys2Proof.Machine.execPriResponse p pasid page ok s
  | .arrayQueueRoom c x => Sys2Proof.Machine.execArrayQueueRoom c x s
  | .wlatchComplete c err => Sys2Proof.Machine.execWlatchComplete c err s
  | .wclrExecute c => Sys2Proof.Machine.execWclrExecute c s
  | .mmaComplete c mismatch => Sys2Proof.Machine.execMmaComplete c mismatch s
  | .nestGroupComplete c => Sys2Proof.Machine.execNestGroupComplete c s
  | .nestComplete c err => Sys2Proof.Machine.execNestComplete c err s
  | .geomAccept c => Sys2Proof.Machine.execGeomAccept c s
  | .geomComplete c mismatch => Sys2Proof.Machine.execGeomComplete c mismatch s
  | .pumpQueueRoom c x => Sys2Proof.Machine.execPumpQueueRoom c x s
  | .pumpTakeCommand c pump => Sys2Proof.Machine.execPumpTakeCommand c pump s
  | .pumpCommandEnd c pump err => Sys2Proof.Machine.execPumpCommandEnd c pump err s
  | .pumpPark c pump => Sys2Proof.Machine.execPumpPark c pump s
  | .premUnitAck c pump => Sys2Proof.Machine.execPremUnitAck c pump s
  | .semOpPerform who mismatch => Sys2Proof.Machine.execSemOpPerform who mismatch s
  | .semOpResult c x => Sys2Proof.Machine.execSemOpResult c x s
  | .semwtHoldExpire c x => Sys2Proof.Machine.execSemwtHoldExpire c x s
  | .joinComplete c => Sys2Proof.Machine.execJoinComplete c s
  | .barComplete c => Sys2Proof.Machine.execBarComplete c s
  | .streamEnded c x => Sys2Proof.Machine.execStreamEnded c x s
  | .taskRetire c => Sys2Proof.Machine.execTaskRetire c s
  | .watchdogExpire c => Sys2Proof.Machine.execWatchdogExpire c s
  | .trapDelivery c => Sys2Proof.Machine.execTrapDelivery c s
  | .eccUncorrectable c x what => Sys2Proof.Machine.execEccUncorrectable c x what s
  | .answerRetry fn taskid role => Sys2Proof.Machine.execAnswerRetry fn taskid role s
  | .answerSkip fn taskid role => Sys2Proof.Machine.execAnswerSkip fn taskid role s
  | .answerAbandon fn taskid role => Sys2Proof.Machine.execAnswerAbandon fn taskid role s
  | .mbrdWrite fn v => Sys2Proof.Machine.execMbrdWrite fn v s
  | .notifyWidxWrite q pasid v => Sys2Proof.Machine.execNotifyWidxWrite q pasid v s
  | .requestPacket q pasid cmd => Sys2Proof.Machine.execRequestPacket q pasid cmd s
  | .queueEnable q desc => Sys2Proof.Machine.execQueueEnable q desc s
  | .queueDisable q => Sys2Proof.Machine.execQueueDisable q s
  | .commandFetch q => Sys2Proof.Machine.execCommandFetch q s
  | .cmdNop q => Sys2Proof.Machine.execCmdNop q s
  | .cmdLaunch q => Sys2Proof.Machine.execCmdLaunch q s
  | .cmdWait q => Sys2Proof.Machine.execCmdWait q s
  | .cmdSignal q => Sys2Proof.Machine.execCmdSignal q s
  | .queueUnblock q => Sys2Proof.Machine.execQueueUnblock q s
  | .signalPerform q => Sys2Proof.Machine.execSignalPerform q s
  | .launchComplete q seq => Sys2Proof.Machine.execLaunchComplete q seq s
  | .agingStep q => Sys2Proof.Machine.execAgingStep q s
  | .gangStart n => Sys2Proof.Machine.execGangStart n s
  | .gangRestore n => Sys2Proof.Machine.execGangRestore n s
  | .sliceEnd grp => Sys2Proof.Machine.execSliceEnd grp s
  | .drainWithdraw n => Sys2Proof.Machine.execDrainWithdraw n s
  | .drainComplete c => Sys2Proof.Machine.execDrainComplete c s
  | .hardStop c => Sys2Proof.Machine.execHardStop c s
  | .saveComplete n => Sys2Proof.Machine.execSaveComplete n s
  | .zeroingComplete c => Sys2Proof.Machine.execZeroingComplete c s
  | .functionLevelReset vf => Sys2Proof.Machine.execFunctionLevelReset vf s
  | .hostAbandon q seq => Sys2Proof.Machine.execHostAbandon q seq s
  | .hostMemoryAccess p pa n write => Sys2Proof.Machine.execHostMemoryAccess p pa n write s
  | .portDoorWrite port cmd => Sys2Proof.Machine.execPortDoorWrite port cmd s
  | .invVa port => Sys2Proof.Machine.execInvVa port s
  | .invPasid port => Sys2Proof.Machine.execInvPasid port s
  | .invIpa port => Sys2Proof.Machine.execInvIpa port s
  | .invAll port => Sys2Proof.Machine.execInvAll port s
  | .aperture port => Sys2Proof.Machine.execAperture port s
  | .migrate port => Sys2Proof.Machine.execMigrate port s
  | .portDrainComplete port => Sys2Proof.Machine.execPortDrainComplete port s
  | .pstatRead port => Sys2Proof.Machine.execPstatRead port s
  | .qmapWrite q v => Sys2Proof.Machine.execQmapWrite q v s
  | .linkTrain l elide => Sys2Proof.Machine.execLinkTrain l elide s
  | .flitCrcError l => Sys2Proof.Machine.execFlitCrcError l s
  | .packetReceive pkt mismatch => Sys2Proof.Machine.execPacketReceive pkt mismatch s
  | .packetAck dev seq result => Sys2Proof.Machine.execPacketAck dev seq result s
  | .linkFaultDetect l => Sys2Proof.Machine.execLinkFaultDetect l s
  | .linkResolveExpire l => Sys2Proof.Machine.execLinkResolveExpire l s
  | .linkUp l => Sys2Proof.Machine.execLinkUp l s
  | .sourceResetNotice dev => Sys2Proof.Machine.execSourceResetNotice dev s
  | .routingSwap => Sys2Proof.Machine.execRoutingSwap s
  | .keySwap => Sys2Proof.Machine.execKeySwap s
  | .swapComplete key => Sys2Proof.Machine.execSwapComplete key s
  | .powerOn inp full => Sys2Proof.Machine.execPowerOn inp full s
  | .ovoneReady => Sys2Proof.Machine.execOvoneReady s
  | .readyTimeout => Sys2Proof.Machine.execReadyTimeout s
  | .answerFlashWrite data => Sys2Proof.Machine.execAnswerFlashWrite data s
  | .answerRestart inp => Sys2Proof.Machine.execAnswerRestart inp s
  | .attestRequest fn p nonce => Sys2Proof.Machine.execAttestRequest fn p nonce s
  | .attestReportPost => Sys2Proof.Machine.execAttestReportPost s
  | .partitionEnable p => Sys2Proof.Machine.execPartitionEnable p s
  | .partitionDisable p => Sys2Proof.Machine.execPartitionDisable p s
  | .bandwidthTick die first => Sys2Proof.Machine.execBandwidthTick die first s
  | .bankownWrite b v => Sys2Proof.Machine.execBankownWrite b v s
  | .bclaimClaim fn b pfToo => Sys2Proof.Machine.execBclaimClaim fn b pfToo s
  | .bclaimRelease fn b => Sys2Proof.Machine.execBclaimRelease fn b s
  | .bctlWrite fn b v => Sys2Proof.Machine.execBctlWrite fn b v s
  | .bstatRead fn b => Sys2Proof.Machine.execBstatRead fn b s
  | .stoptickArm fn b tick arm act => Sys2Proof.Machine.execStoptickArm fn b tick arm act s
  | .stopTick b => Sys2Proof.Machine.execStopTick b s
  | .release fn b => Sys2Proof.Machine.execRelease fn b s
  | .sampleRecord b rec => Sys2Proof.Machine.execSampleRecord b rec s
  | .twrRead fn b => Sys2Proof.Machine.execTwrRead fn b s
  | .leapfrogCheckpoint b => Sys2Proof.Machine.execLeapfrogCheckpoint b s
  | .leap fn b x go => Sys2Proof.Machine.execLeap fn b x go s
  | .replayDiverge b => Sys2Proof.Machine.execReplayDiverge b s
  | .memoryError what uncorrectable syndrome => Sys2Proof.Machine.execMemoryError what uncorrectable syndrome s
  | .coreOffline c => Sys2Proof.Machine.execCoreOffline c s
  | .scrubRead region corrected uncorrectable => Sys2Proof.Machine.execScrubRead region corrected uncorrectable s
  | .sensorSample temps die0 die1 => Sys2Proof.Machine.execSensorSample temps die0 die1 s
  | .powerSample watts => Sys2Proof.Machine.execPowerSample watts s
  | .thermalStop => Sys2Proof.Machine.execThermalStop s
  | .pwrctlWrite v => Sys2Proof.Machine.execPwrctlWrite v s
  | .registerWrite r => Sys2Proof.Machine.execRegisterWrite r s
  | .imageLoaded p img sections => Sys2Proof.Machine.execImageLoaded p img sections s
  | .migrateCopyComplete port bad => Sys2Proof.Machine.execMigrateCopyComplete port bad s
  | .packetRefused dev seq => Sys2Proof.Machine.execPacketRefused dev seq s

end Sys2Proof.Machine
end

