-- ==== Sys2Proof/Machine/Moves.lean ====
section
/-! DEFINITION. What one move does, what follows it, and how ticks pass between moves (assumption logs 5 and 6). -/

namespace Sys2Proof.Machine

/-! ## Time (R5, R324, R394, R409, R425) -/

/-- The sketch counts what a core spends in ticks (Table 27.3): streams in COUNT_WAIT and OTHER_WAIT, and the matrix
array with work. -/
def State.countTicks (s : State) (c : CoreId) (dt : Nat) : State :=
  let k := s.core c
  if k.gated then s
  else
    let one := fun (s : State) (x : StreamId) =>
      let v := k.stream x
      match v.st with
      | .countWait => s.sketch 1 c v.pc dt
      | .otherWait => s.sketch 2 c v.pc dt
      | _ => s
    let s := coreStreams.foldl one s
    match k.aq with
    | [] => s
    | e :: _ => s.sketch 3 c (match e with
      | .wlatch w => w.pc
      | .wclr pc => pc
      | .mma m => m.pc
      | .nest n => n.pc) dt

/-- The end of a tick: what the ports inject in it (R398), the samples of power and temperature that are due (R423, R426), dispatch
(R324, R330), and the fields that take effect at the next one (R394). -/
def State.endTick (s : State) : State :=
  let s := (((s.divideEnd false).divideEnd true).sampleEnd).settle
  if s.later.isEmpty then s else ((s.idleTo false (s.tick + 1)).idleTo true (s.tick + 1)).takeFields

/-- Ticks pass: this one ends, queues pay for the cores they hold, banks count, and the tick advances. -/
def State.pass (s : State) (dt : Nat) : State :=
  if dt == 0 then s
  else
    let s := s.endTick.charge dt
    let s := if s.banks.toList.all fun b => b.mode != 1 then s
      else (List.finRange 208).foldl (fun s c => s.countTicks c dt) s
    { s with tick := s.tick + dt }

/-! ## What follows every move -/

/-- A core after a move: a stream that waits for a pump entry follows its register (R215), and the watchdog its condition
(R33): it counts from when the condition came to hold. -/
def Core.upkeep (k : Core) (view : Nat) : Core :=
  let k := k.reseat
  { k with wdSince := if k.wdRuns then some (k.wdSince.getD view) else none }

/-- What follows every move: packets held from peer devices are tried again (R299), every core follows its conditions, and sampled
requests that are complete take note of it (R414). -/
def State.upkeep (s : State) : State :=
  let s := if s.fabric.rx.all fun r => r.2.waiting.isEmpty then s else s.peerRunAll
  { s with cores := s.cores.mapFinIdx fun c k h => k.upkeep (s.view ⟨c, h⟩) }.samplesDone

/-! ## One move -/

/-- An event of the machine: a row that no word encodes. -/
def isEvent (i : Instr) : Bool := (encode i).isNone

/-- A stream issues its next instruction, or takes the trap its fetch or decode raises (R103). An instruction that a page walk
brings back has issued before (R192). -/
def State.issue (s : State) (c : CoreId) (x : StreamId) (useCache : Bool) : Out :=
  let again := (s.stream c x).again
  match s.prepare c x useCache with
  | (s', some i) => exec i (if again then s' else s'.noteIssue c x)
  | (s', none) => .next s'

/-! ### A debugger on a core whose clocks stand (R280, R412, R420) -/

/-- run (R280): a gate on the core ends, and every stream that a debugger has stopped goes on. -/
def State.runCore (s : State) (c : CoreId) : State := (s.releaseCore c).debugRun c

/-- The view tick of the first instruction that a stream of a core issued from a view tick on. -/
def nextIssue (c : CoreId) (x : StreamId) (now : Nat) (issues : List (CoreId × StreamId × Nat)) : Option Nat :=
  ((issues.filter fun i => i.1 == c && i.2.1 == x && decide (now ≤ i.2.2)).map (·.2.2)).min?

/-- step stream during a replay (R280, R421): it goes on past the next instruction that the stream issued. -/
def State.stepReplay (s : State) (c : CoreId) (x : StreamId) : State :=
  { s with banks := s.banks.map fun (k : MBank) => match k.lf.resume with
      | none => k
      | some r =>
        if !r.cores.contains c || r.leapTo.isSome then k
        else match nextIssue c x (s.view c) k.lf.issues with
          | none => k
          | some t => { k with lf := { k.lf with resume := some { r with leapTo := some (t + 1) } } } }

/-- A step that has to wait: the stream, if it runs, issues its next instruction, or the one it is inside, and stops (R280). -/
def Stream.stepLater (v : Stream) : Stream :=
  match v.st with
  | .running | .countWait | .otherWait | .drainStop => { v with dbg := if v.inside then .stepped else .step }
  | _ => v

/-- step stream on a gated core (R280): the stream issues one instruction, past a breakpoint on it, and all else stands; where what
it waits for stands too, it does once the core goes on. -/
def State.stepGated (s : State) (c : CoreId) (x : StreamId) : Out :=
  let t := s.modCore c fun k => { k with gated := false }
  if !(t.core c).canIssue x then .next (s.modStream c x Stream.stepLater)
  else match (t.modStream c x fun v => { v with dbg := if v.dbg == .off then .go else v.dbg }).issue c x false with
    | .next u => .next (u.modCore c fun k => { k with gated := true })
    | o => o

/-- step stream (R280): it issues one instruction. -/
def State.stepCore (s : State) (c : CoreId) (x : StreamId) : Out :=
  let s := s.debugStep c x
  if s.replaying c then .next (s.stepReplay c x)
  else if (s.core c).gated then s.stepGated c x
  else .next s

/-- What a pick does. -/
def State.move (s : State) (p : Pick) : Out :=
  match p with
  | .issue c x useCache => s.issue c x useCache
  | .event i => if isEvent i then exec i s else .next s
  | .pumpUnit c pump => .next (s.pumpUnit c pump)
  | .pipeCheck c x => .next (s.pipeCheckPick c x)
  | .barRead fn bar2 off n => .next (s.barRead fn bar2 off n)
  | .barWrite fn bar2 off pasid bytes => .next (s.barWrite fn bar2 off pasid bytes)
  | .regRead fn r => .next (s.regRead fn r)
  | .answerWrite fn bytes => .next (s.answerWrite fn bytes)
  | .debugBreak c x a => .next (s.debugBreak c x a)
  | .debugRun c => .next (s.runCore c)
  | .debugStep c x => s.stepCore c x
  | .linkError code => .next (s.reportLink code)

/-- The outcome of a move from a state, with what follows it; recordings log what it did (R419). -/
def State.finish (s : State) (p : Option Pick) (o : Out) : Out :=
  match o with
  | .next t => .next (s.logMove t.upkeep p)
  | .fault r => .fault r
  | .refused r => .refused r

/-- Nothing moves. -/
def State.rest (s : State) : Out := s.finish none (.next s)

/-- What the units of a command of a pump set out to do after the first of n, up to one that fails, injects granules. -/
def State.laterGranules (s : State) (c : CoreId) (second : Bool) : Nat → Bool
  | 0 => false
  | n + 1 =>
    match (s.core c).pump second with
    | .running m u none =>
      match s.oneUnit c second m u with
      | .error _ => false
      | .ok s' =>
        (decide (u + 1 < m.units) && (s'.unitReqs c m (s'.unitAttempts c m (u + 1))).any fun r => !r.granules.isEmpty) ||
          s'.laterGranules c second n
    | _ => false

/-- A pump that is to end or park has units to perform before, or one that fails, whose granules have not been injected. -/
def State.unitsLeft (s : State) (p : Pick) : Bool :=
  let left := fun (c : CoreId) (second : Bool) => !(s.core c).task.isNone && (match (s.core c).pump second with
    | .running m u none => !s.premRemote m && s.laterGranules c second (m.units - u)
    | _ => false)
  match p with
  | .event (.pumpCommandEnd c second .none) => left c second
  | .event (.pumpPark c second) => left c second
  | _ => false

/-- A move that would perform an access before its granules have been injected does not come about yet: it stalls, as a slow
memory would make it (R398). -/
def State.stalls (s : State) (p : Pick) (o : Out) : Bool :=
  match o, p with
  | .next _, .event (.pageWalkComplete c x _ _ _) => s.walkWaits c x
  | .next t, _ => (p.performs.any fun c => s.hurries t c) || s.unitsLeft p
  | _, _ => false

/-- What a move has done, with the requests of the accesses it has performed on some cores (R414). -/
def State.announced (s : State) (cs : List CoreId) (o : Out) : Out :=
  match o with
  | .next t => .next (s.announceRest t cs)
  | o => o

/-- A move's outcome, with what follows it: the pick, where there is one, and the cores whose accesses it may perform. -/
def State.settled (s : State) (p : Option Pick) (cs : List CoreId) (o : Out) : Out :=
  match s.finish p (s.announced cs o) with
  | .next t => .next t.forget
  | o => o

/-- A pick, with what follows it. -/
def State.make (s : State) (p : Pick) : Out :=
  let o := s.move p
  if s.stalls p o then s.rest else s.settled (some p) p.performs o

end Sys2Proof.Machine
end

