-- ==== Sys2Proof/Machine/Due.lean ====
section
/-! DEFINITION. What the machine does at a tick of its own accord, and when: stops on a named tick, replay, checkpoints,
timers (spec/27 R411 to R421, spec/20 R342, R405, spec/25 R397, spec/28 R423; assumption log 6). -/

namespace Sys2Proof.Machine

/-- A move of the machine's own. -/
abbrev Move := State → Out

/-! ## Stops on a named tick (R411) -/

/-- A bank's stop is due. -/
def State.stopDue (s : State) (k : MBank) : Bool := k.arm && decide (k.stoptick.toNat ≤ s.bankView k)

/-- The first bank that meets a test. -/
def State.bankWith (s : State) (f : MBank → Bool) : Option (BitVec 7) :=
  if s.banks.toList.any f then ((List.range 128).map (BitVec.ofNat 7)).find? fun b => f (s.bank b) else none

/-- A stop that is due: one that gates before one that traps, since nothing due at that tick has happened on a gated core
(R412). -/
def State.dueStop (s : State) : Option Move :=
  match s.bankWith fun k => s.stopDue k && !k.act with
  | some b => some (execStopTick b)
  | none => (s.bankWith s.stopDue).map execStopTick

/-! ## After a release (R412) -/

/-- An asynchronous trap that came about on a gated core is raised, where its task is still there. -/
def State.raiseLate (s : State) (t : LateTrap) : State :=
  let s := { s with lateTraps := dropFirst (· == t) s.lateTraps }
  if (s.core t.c).task.map (fun k => k.key) == t.key then s.asyncTrap t.c t.base t.eaddr t.pump else s

/-- A trap of a core that has been released. -/
def State.dueLate (s : State) : Option Move :=
  (s.lateTraps.find? fun t => !(s.core t.c).gated).map fun t s => .next (s.raiseLate t)

/-! ## Samples (R414) -/

/-- The record of a sampled request that was complete before this tick is still to be written. -/
def State.recordDue (s : State) (k : MBank) : Bool :=
  k.mode == 2 && k.pend.any fun q => match q.done with
    | some d => decide (d.2 < s.tick)
    | none => false

/-- A record is written no later than the tick after its request is complete; what the request met on its way is then free. -/
def State.dueRecord (s : State) : Option Move :=
  (s.bankWith s.recordDue).map fun b s =>
    execSampleRecord b ((Config.freeTile s.fresh).setWidth 384) s.useFresh

/-! ## Checkpoints (R419) -/

/-- A bank follows a gang that it may record. -/
def MBank.follows (k : MBank) : Bool := k.lfctl.getLsbD 0 && k.lf.key.isSome

/-- A checkpoint that is due. -/
def State.dueCheck (s : State) : Option Move :=
  if s.banks.toList.any MBank.follows then
    (((List.range 128).map (BitVec.ofNat 7)).find? s.checkReady).map execLeapfrogCheckpoint
  else none

/-! ## Replay (R420, R421) -/

/-- What a completion that a recording logged does now, from the gang's state and its view as they then were: the gang's cores
after it. -/
def State.again (s : State) (n : Node) (e : LfStep) (p : Pick) : List Core :=
  let t := n.cores.foldl (fun s c => s.modCore c Core.ungated) s
  let t := t.modPart n.part fun r => { r with dtoff := s.tick - e.after.tick, gatedAt := none }
  match { t with fresh := e.fresh }.move p with
  | .next u => n.cores.map u.upkeep.core
  | _ => []

/-- Two cores have had the same completions: where their streams stand, what is in flight, the counts and completion words, and
the traps. The data that an access has read are none of this: the device does not detect what others write (R421). -/
def Core.sameInputs (k l : Core) : Bool :=
  (coreStreams.all fun x => (k.stream x).st == (l.stream x).st && (k.stream x).pc == (l.stream x).pc &&
    ((k.stream x).stores.map (·.seq)) == ((l.stream x).stores.map (·.seq))) &&
  k.tiles.map (·.cnt) == l.tiles.map (·.cnt) && k.accs.map (·.cnt) == l.accs.map (·.cnt) && k.sigs == l.sigs &&
  k.loads.map (·.seq) == l.loads.map (·.seq) && k.aq.length == l.aq.length && k.pumpq == l.pumpq && k.pump0 == l.pump0 &&
  k.pump1 == l.pump1 && k.held == l.held && k.trap1 == l.trap1 && k.trap2 == l.trap2

/-- An input of the replay differs from its log: the completion does not come about as it did. -/
def State.differs (s : State) (n : Node) (e : LfStep) : Bool :=
  match e.own with
  | some p =>
    let now := s.again n e p
    !(now.length == e.after.cores.length && (now.zip e.after.cores).all fun q => q.1.sameInputs q.2.2)
  | none => false

/-- One entry of the log is replayed (R421): the gang and its write set become what they then became, and nothing else is
written or sent; an input that differs ends the replay with DIVERGED. -/
def State.replayEntry (s : State) (b : BitVec 7) (n : Node) (r : Replay) (e : LfStep) (rest : List LfStep) : State :=
  if s.differs n e then s.diverge b
  else (s.putGang n e.after).modBank b fun k => { k with lf := { k.lf with resume := some { r with todo := rest } } }

/-- The checkpoint of a leap is put back (R420). -/
def State.leapStart (s : State) (b : BitVec 7) (n : Node) (r : Replay) (p : Snapshot) : State :=
  (s.putBack n p).modBank b fun k => { k with lf := { k.lf with resume := some { r with start := none } } }

/-- A stream of a gang stands at a breakpoint of a debugger, and the next entry of the log issues its instruction (R280). -/
def State.breakAt (s : State) (r : Replay) (issues : List (CoreId × StreamId × Nat)) (e : LfStep) (c : CoreId) (x : StreamId) :
    Bool :=
  let v := s.stream c x
  v.brk.contains v.pc && v.dbg != .go && !v.again && v.pend == .none && r.leapTo.isNone &&
    issues.contains (c, x, e.after.tick) &&
    e.after.cores.any fun k => k.1 == c && ((k.2.stream x).pc != v.pc || (k.2.stream x).pend != v.pend)

/-- A replay comes to a breakpoint (R280): the gang is gated there, since its log lets no stream run on alone, and run or step goes
on past it (assumption log 24). -/
def State.replayBreak (s : State) (b : BitVec 7) (r : Replay) (c : CoreId) (x : StreamId) : State :=
  ((s.modStream c x fun v => { v with dbg := .stepped }).modBank b fun k => k.gateGang r.cores).gateSync

/-- A leap arrives: the gang's view stands at the tick before which nothing has issued (R420). -/
def State.leapEnd (s : State) (b : BitVec 7) (n : Node) (r : Replay) (t : Nat) : State :=
  (s.modBank b fun k => { k with lf := { k.lf with resume := some { r with leapTo := none } } }).viewAt n.part t

/-- An entry of the log after the release, unless a stream comes to a breakpoint first. -/
def State.replayLive (s : State) (b : BitVec 7) (n : Node) (r : Replay) (e : LfStep) (rest : List LfStep) : State :=
  match (n.cores.flatMap fun c => coreStreams.map fun x => (c, x)).find? fun q =>
      s.breakAt r (s.bank b).lf.issues e q.1 q.2 with
  | some q => s.replayBreak b r q.1 q.2
  | none => s.replayEntry b n r e rest

/-- The next step of a bank's replay: the checkpoint of a leap, its entries up to its tick, which take no time, and after the
release each entry at its view tick, up to the original stop. -/
def State.replayStep (s : State) (b : BitVec 7) : State :=
  let k := s.bank b
  match k.lf.resume, s.lfNode k with
  | none, _ => s
  | some _, none => s.endReplay b
  | some r, some n =>
    match r.start, r.leapTo, r.todo with
    | some p, _, _ => s.leapStart b n r p
    | none, some t, e :: rest => if e.after.tick < t then s.replayEntry b n r e rest else s.leapEnd b n r t
    | none, some t, [] => s.leapEnd b n r t
    | none, none, e :: rest => s.replayLive b n r e rest
    | none, none, [] => s.endReplay b

/-- What a replay does next writes bytes of the write set, which wait for a MIGRATE (R365). -/
def Replay.writes (r : Replay) : Bool :=
  r.start.isSome || (match r.todo with
    | e :: _ => !e.after.mem.isEmpty
    | [] => false)

/-- A bank's replay goes on now. -/
def State.replayDue (s : State) (k : MBank) : Bool :=
  match k.lf.resume, s.lfNode k with
  | none, _ => false
  | some _, none => true
  | some r, some n => (r.leapTo.isSome || (!r.cores.any s.coreHeld && decide (r.next ≤ s.viewOf n.part))) &&
      !(r.writes && s.lfWaits n)

/-- A replay that goes on now. -/
def State.dueReplay (s : State) : Option Move := (s.bankWith s.replayDue).map fun b s => .next (s.replayStep b)

/-! ## Timers of cores (R33, R231, R342, R405) -/

/-- A core has no timer running and no escalation pending. -/
def Core.calm (k : Core) : Bool := k.drainSince.isNone && k.wdSince.isNone && k.escal.isEmpty

/-- A hard stop is due: 120,000 ticks after DRAIN, unless the drain is complete. -/
def State.hardDue (s : State) (c : CoreId) : Bool :=
  let k := s.core c
  match k.drainSince with
  | none => false
  | some t => !k.gated && decide (t + 120000 ≤ s.view c) && !k.saving && !k.ctrl.hard && !k.drainDone

/-- The watchdog of a core has expired. -/
def State.watchdogDue (s : State) (c : CoreId) : Bool :=
  let k := s.core c
  match k.wdSince with
  | none => false
  | some t => !k.gated && k.wdRuns && decide (t + 2 ^ 20 ≤ s.view c)

/-- A move of some core that is due: Ovone's own ABANDON, a hard stop, the watchdog. -/
def State.dueCore (s : State) : Option Move :=
  if s.cores.toList.all Core.calm then none
  else match s.lostCount with
    | some n => if n.over then none else some fun s => .next (s.abandonNode n)
    | none =>
      match (List.finRange 208).find? s.hardDue with
      | some c => some (execHardStop c)
      | none => ((List.finRange 208).find? s.watchdogDue).map execWatchdogExpire

/-- A hold that has lasted 64 ticks. -/
def State.holdDue (s : State) (w : Watch) : Bool :=
  match w.since with
  | none => false
  | some t => !(s.core w.c).gated && !(s.core w.core).gated && decide (t + 64 ≤ s.view w.c) && (s.watchOf w.c w.x == some w) &&
      (match (s.stream w.c w.x).pend with
      | .semwt o => (match o.target with
        | .cell _ _ => true
        | .remote _ => false)
      | _ => false)

/-- A SEMWT that ends. -/
def State.dueHold (s : State) : Option Move := (s.watches.find? s.holdDue).map fun w => execSemwtHoldExpire w.c w.x

/-! ## Timers outside the cores (R323, R382, R385, R397, R412, R423) -/

/-- The end of a group's slice is due. -/
def State.sliceDue (s : State) (g : SliceGroup) : Bool :=
  match g.holder, g.start with
  | some p, some t => !g.ending && decide (t < s.viewOf p) && decide (t + 1024 * (s.part p).slice.toNat ≤ s.viewOf p) &&
      !s.partGated p
  | _, _ => false

/-- The queues whose head has aged by a level (R323). -/
def State.agedHead (s : State) (q : Nat) : Bool :=
  match s.head q with
  | some n => decide (n.aged < s.readyTicks n / 2 ^ 24)
  | none => false

/-- A move of what lies outside the cores that is due. -/
def State.dueOther (s : State) : Option Move :=
  if s.power.tooHot then some execThermalStop
  else if s.nodes.any fun n => s.withdrawable n && !s.partGated n.part then
    (s.nodes.find? fun n => s.withdrawable n && !s.partGated n.part).map fun n => execDrainWithdraw n.key
  else if s.answers.any s.answerDue then some fun s => .next s.deliverAnswers
  else if s.readyLate && s.boot.items.isSome then some execReadyTimeout
  else match (List.finRange 16).find? fun g => s.sliceDue s.groups[g.val] with
    | some g => some (execSliceEnd (BitVec.ofNat 4 g.val))
    | none =>
      match s.fabric.drops.find? fun d => d.done.isNone && decide (d.tick + 20000 ≤ s.tick) with
      | some d => some (execLinkResolveExpire d.link)
      | none => (s.queues.find? fun q => s.agedHead q.1).map fun q => execAgingStep (BitVec.ofNat 15 q.1)

/-- What is due now, before anything else: a stop on this tick first, since nothing due at it has happened (R412). -/
def State.due (s : State) : Option Move :=
  match s.dueStop with
  | some m => some m
  | none => match s.dueCheck with
    | some m => some m
    | none => match s.dueReplay with
      | some m => some m
      | none => match s.dueLate.or (s.dueRecord.or s.dueOther) with
        | some m => some m
        | none => match s.dueCore with
          | some m => some m
          | none => s.dueHold

/-! ## Deadlines -/

/-- Ticks to a bank's stop, its checkpoint and the next step of its replay; none where its view stands. -/
def State.bankTimers (s : State) (k : MBank) : List Nat :=
  let stop := if k.arm then [k.stoptick.toNat - s.bankView k] else []
  match s.lfNode k with
  | none => stop
  | some n =>
    let check := if k.records then [s.checkDue k n - s.viewOf n.part] else []
    match k.lf.resume with
    | none => stop ++ check
    | some r => stop ++ check ++ [r.next - s.viewOf n.part]

/-- Ticks to a core's hard stop and its watchdog. -/
def State.coreTimers (s : State) (c : CoreId) : List Nat :=
  let k := s.core c
  let left := fun (t : Option Nat) (n : Nat) => match t with
    | some t => [t + n - s.view c]
    | none => []
  if k.gated then [] else left k.drainSince 120000 ++ left k.wdSince (2 ^ 20)

/-- Ticks to the end of a group's slice. -/
def State.sliceTimers (s : State) (g : SliceGroup) : List Nat :=
  match g.holder, g.start with
  | some p, some t => if g.ending then [] else [t + max 1 (1024 * (s.part p).slice.toNat) - s.viewOf p]
  | _, _ => []

/-- Ticks to every event that comes by itself; what waits for the end of this tick, and gangs and fields that it may change,
let no more than one tick pass. -/
def State.timers (s : State) : List Nat :=
  let one := if !s.later.isEmpty || s.parts.toList.any (·.owed) || s.anyWaiting false || s.anyWaiting true ||
    (s.banks.toList.any fun b => b.pend.any fun q => q.done.isSome) then [1] else []
  let ready := if s.boot.stage == .awaitReady then [s.boot.powered + startTicks + 1 - s.tick] else []
  let links := (s.fabric.drops.filter (·.done.isNone)).map fun d => d.tick + 20000 - s.tick
  let holds := s.watches.filterMap fun w => w.since.map fun t => t + 64 - s.view w.c
  let ages := s.queues.filterMap fun q => (s.head q.1).map fun n => 2 ^ 24 * (n.aged + 1) - s.readyTicks n
  one ++ s.sampleTimers ++ ready ++ links ++ holds ++ ages ++ (s.banks.toList.map s.bankTimers).flatten ++
    ((List.finRange 208).map s.coreTimers).flatten ++ (s.groups.toList.map s.sliceTimers).flatten

/-- The first deadline among some ticks that are to pass, where there is one. -/
def State.deadline (s : State) (dt : Nat) : Option Nat :=
  if dt == 0 then none else (s.timers.filter fun n => decide (0 < n) && decide (n ≤ dt)).min?

end Sys2Proof.Machine
end

