-- ==== Sys2Proof/Machine/Schedule.lean ====
section
/-! DEFINITION. Who moves next, and placing a program for its first step (assumption logs 3, 5 and 6). -/

namespace Sys2Proof.Machine

/-! ## The order of moves where the schedule names none (assumption log 5) -/

/-- Moves of one core that nothing reaches from outside it, where they meet no error. -/
def coreMoves (c : CoreId) : List Pick :=
  (coreStreams.flatMap fun x =>
    [.event (.countWaitResume c x), .event (.pageWalkComplete c x false false false), .event (.arrayQueueRoom c x),
      .event (.pumpQueueRoom c x), .event (.semOpPerform (.stream c x) false), .event (.streamEnded c x), .issue c x false]) ++
  [.event (.issueIntervalEnd c false), .event (.vectorWriteComplete c 0), .event (.wclrExecute c), .event (.mmaComplete c false),
    .event (.geomAccept c), .event (.geomComplete c false), .event (.pumpTakeCommand c false),
    .event (.pumpTakeCommand c true), .pumpUnit c false, .pumpUnit c true, .event (.pumpPark c false),
    .event (.pumpPark c true), .event (.joinComplete c), .event (.barComplete c), .event (.watchdogExpire c),
    .event (.trapDelivery c)]

/-- Moves of one core that complete what goes out from it, and those of its task. -/
def coreInputs (c : CoreId) : List Pick :=
  (coreStreams.flatMap fun x =>
    [.event (.scalarLoadReturn c x false), .event (.tileStorePerformed c x), .event (.scalarStorePerformed c x),
      .event (.semOpResult c x), .event (.semwtHoldExpire c x)]) ++
  [.event (.tileLoadComplete c 0 false), .event (.wlatchComplete c .none), .event (.nestGroupComplete c),
    .event (.nestComplete c .none), .event (.premUnitAck c false), .event (.premUnitAck c true),
    .event (.pumpCommandEnd c false .none), .event (.pumpCommandEnd c true .none), .event (.taskRetire c),
    .event (.drainComplete c), .event (.hardStop c), .event (.zeroingComplete c)]

/-- Moves of one queue. -/
def queueMoves (q : BitVec 15) : List Pick :=
  [.event (.commandFetch q), .event (.cmdNop q), .event (.cmdLaunch q), .event (.cmdWait q), .event (.cmdSignal q),
    .event (.queueUnblock q), .event (.signalPerform q), .event (.agingStep q)]

/-- Moves of one node. -/
def nodeMoves (n : NodeKey) : List Pick :=
  [.event (.gangStart n), .event (.gangRestore n), .event (.drainWithdraw n), .event (.saveComplete n)]

/-- Moves of one translation port. -/
def portMoves (p : Fin 65) : List Move :=
  [execInvVa p, execInvPasid p, execInvIpa p, execInvAll p, execAperture p, execMigrate p, execPortDrainComplete p,
    execMigrateCopyComplete p []]

/-- A move of the machine's own: the pick that names it, where a recording may ask for it, and what it does. -/
abbrev OwnMove := Option Pick × Move

/-- The move of the machine's own that a pick names. -/
def Pick.own (p : Pick) : OwnMove := (some p, fun s => s.move p)

/-- Every move the machine can make of itself. -/
def State.ownMoves (s : State) : List OwnMove :=
  ((List.finRange 208).flatMap coreMoves ++ (List.finRange 208).flatMap coreInputs ++
    s.queues.flatMap (fun q => queueMoves (BitVec.ofNat 15 q.1)) ++
    s.launches.map (fun l => Pick.event (.launchComplete l.queue l.seq)) ++ s.nodes.flatMap (fun n => nodeMoves n.key)).map
    Pick.own ++
  ((List.finRange 208).map execCoreOffline ++ (List.range 16).map (fun g => execSliceEnd (BitVec.ofNat 4 g)) ++
    (List.finRange 65).flatMap portMoves ++
    [execSwapComplete false, execSwapComplete true, execReadyTimeout, execAttestReportPost, execThermalStop] ++
    (List.range 128).flatMap fun b => [execStopTick (BitVec.ofNat 7 b), execLeapfrogCheckpoint (BitVec.ofNat 7 b)]).map
    fun m => (none, m)

/-- A move of the machine's own changes the state, and performs no access whose granules wait (R398). -/
def State.changes (s : State) (m : OwnMove) : Bool :=
  let o := m.2 s
  !(m.1.any fun p => s.stalls p o) && (match o with
    | .next s' => s' != s && !((List.finRange 208).any fun c => s.hurries s' c)
    | _ => true)

/-- The first move that changes the state, from a place in the list that the tick names, so that none waits for ever;
with none, nothing. -/
def State.ownMove (s : State) : Out :=
  let ms := s.ownMoves
  let i := s.tick % (ms.length + 1)
  match (ms.drop i ++ ms.take i).find? s.changes with
  | some m => s.settled m.1 (List.finRange 208) (m.2 s)
  | none => s.rest

/-! ## One step -/

/-- A move has come, in its tick, after something that follows it in an order of one cycle (R44, R168, R215, R336, R367):
another order than the spec's. -/
def isLate (o : Out) : Bool :=
  match o with
  | .next t => t.turns.late
  | _ => false

/-- A module stopped by heat does nothing but start again (R423). -/
def State.heatTurn (s : State) : Out :=
  match s.sched with
  | (dt, .event (.powerOn inp full)) :: rest =>
    let t := { s with sched := rest }.pass dt
    t.finish none (exec (.powerOn inp full) t)
  | _ => .fault .moduleStopped

/-- The scheduled pick, once its ticks have passed; a deadline among them comes first. -/
def State.scheduled (s : State) (dt : Nat) (p : Pick) (rest : List (Nat × Pick)) : Out :=
  match s.deadline dt with
  | some n => ({ s with sched := (dt - n, p) :: rest }.pass n).rest
  | none => ({ s with sched := rest }.pass dt).make p

/-- A step with nothing scheduled: a tick passes, and the machine makes a move of its own. -/
def State.idleTurn (s : State) : Out :=
  let t := s.pass 1
  match s.deadline 1 with
  | some _ => t.rest
  | none => t.ownMove

/-- One step: what is due is done, or ticks pass and the scheduled move is made, or the machine's own where none is
scheduled. A move that would come too late in its tick is made in the next one (assumption log 5). -/
def State.turn (s : State) : Out :=
  if s.power.stopped then s.heatTurn
  else match s.due with
    | some m => s.finish none (m s)
    | none =>
      match s.sched with
      | (dt, p) :: rest =>
        let o := s.scheduled dt p rest
        if dt == 0 && isLate o then s.scheduled 1 p rest else o
      | [] => s.idleTurn

/-! ## Placing a program (assumption log 3) -/

/-- A stream of core 0 that may issue an instruction: the first the table names. -/
def firstStream (w : Word96) : StreamId := ((wordStreams w).head?).getD .load

/-- Core 0 with bytes at the start of its cistern, which the stream runs from the local window with no translation
(R41, R98). -/
def Core.withProgram (k : Core) (x : StreamId) (bs : List Byte) : Core :=
  { k with cistern := k.cistern.store 0 bs false, codeView := none }.modStream x fun v =>
    { v with st := .running, pc := BitVec.ofNat 51 windowBase, ibuf := none, pend := .none, walk := none, again := false,
             brk := [], dbg := .off }

/-- The state with bytes where the next step fetches them. -/
def State.withProgram (s : State) (bs : List Byte) : State :=
  let x := firstStream (unpack (headerOf bs) (bs.drop 2))
  { s.modCore 0 fun k => k.withProgram x bs with sched := [(0, .issue 0 x false)] }

end Sys2Proof.Machine
end

