-- ==== Sys2Proof/Machine/Step.lean ====
section
/-! DEFINITION. The step, and the state with an instruction where the step fetches it. -/

namespace Sys2Proof.Machine

/-- One step of the machine. -/
def step (s : State) : Host.Outcome State Fault Refusal := s.turn

/-- The state with the instruction of a table word stored where the step fetches its next instruction (assumption
log 3). -/
def State.withFetchWord (s : State) (nbits w : Nat) : State := s.withProgram (tableBytes (w % 2 ^ nbits))

end Sys2Proof.Machine
end

