-- ==== Sys2Proof/Safety.lean ====
section
/-! DEFINITION. What counts as a safe run, and what an instruction leaves unchanged, in the terms statements use. -/

namespace Sys2Proof.Machine

/-- The byte memories of a core are in their canonical form. -/
def Core.memWf (k : Core) : Bool := k.cistern.wf && k.wbuf.wf

/-- So are those of the cores that a recording keeps, which a leap puts back. -/
def Leapfrog.memWf (l : Leapfrog) : Bool :=
  let kept := fun (p : Snapshot) => p.cores.all fun q => q.2.memWf
  let step := fun (e : LfStep) => kept e.after
  (l.checks.all fun q => kept q.1 && q.2.all step) && (match l.resume with
    | some r => r.start.toList.all kept && r.todo.all step
    | none => true)

/-- Every byte memory of the machine is in its canonical form. -/
def State.memWf (s : State) : Bool :=
  s.gmem.mem.wf && s.cores.toList.all Core.memWf && s.banks.toList.all fun b => b.lf.memWf

/-- The watchdog of every core counts exactly while its condition holds (R33). -/
def State.watched (s : State) : Prop := ∀ c : CoreId, (s.core c).wdSince.isSome = (s.core c).wdRuns

/-- Every byte of global memory reads as before, for every partition, and so does every byte of every cistern. -/
def State.memSame (s t : State) : Prop :=
  (∀ p a, t.readByte p a = s.readByte p a) ∧
    ∀ c a, (t.core c).cistern.bytes.read a = (s.core c).cistern.bytes.read a

/-! ## Frames -/

/-- A core whose general registers in force for a stream, the stream's count bases and its program counter are blank:
two cores with equal blanks differ in nothing else. -/
def Core.blank (k : Core) (x : StreamId) : Core :=
  let k := k.modStream x fun v => { v with pc := 0, k := Vector.replicate 7 0 }
  match x with
  | .ctrl =>
    if k.hl == 1 then { k with bank1 := Bank.zero }
    else if k.hl == 2 then { k with bank2 := Bank.zero }
    else { k with ctrl := { k.ctrl with s := Vector.replicate 32 0, p := Vector.replicate 8 false } }
  | x => k.modStream x fun v => { v with s := Vector.replicate 32 0, p := Vector.replicate 8 false }

/-- The state with the general registers and the program counter of the issuing stream blank. -/
def State.blank (s : State) : State := s.modCore s.cur.1 fun k => k.blank s.cur.2

/-- The issuing stream's registers and program counter after an instruction, when nothing else of the machine changes:
no other stream, no status, control or exception register, no counted register, and no byte of memory. -/
def State.becomes (s t : State) (regs : SReg → Word) (preds : PReg → Bool) (bases : KReg → BitVec 16) (pc : VAddr) :
    Prop :=
  (∀ r, t.rs r = regs r) ∧ (∀ p, t.rp p = preds p) ∧ (∀ k, t.rk k = bases k) ∧ t.pc = pc ∧ t.blank = s.blank ∧
    s.memSame t

/-- The scalars after one has been written: s0 reads zero whatever is written to it (Table 1.2, R117). -/
def State.withS (s : State) (d : SReg) (v : Word) (r : SReg) : Word := if r = 0 then 0 else if r = d then v else s.rs r

/-- The predicates after one has been written: p0 reads true (Table 1.2, R117). -/
def State.withP (s : State) (d : PReg) (v : Bool) (r : PReg) : Bool :=
  if r = 0 then true else if r = d then v else s.rp r

/-- The count bases after one has been written. -/
def State.withK (s : State) (d : KReg) (v : BitVec 16) (r : KReg) : BitVec 16 := if r = d then v else s.rk r

/-- One scalar is written and the stream goes on to the next instruction; nothing else changes. -/
def State.scalarWritten (s t : State) (d : SReg) (v : Word) : Prop := s.becomes t (s.withS d v) s.rp s.rk s.nextPc

/-- One predicate is written and the stream goes on; nothing else changes. -/
def State.predWritten (s t : State) (d : PReg) (v : Bool) : Prop := s.becomes t s.rs (s.withP d v) s.rk s.nextPc

/-- One count base is written and the stream goes on; nothing else changes. -/
def State.baseWritten (s t : State) (d : KReg) (v : BitVec 16) : Prop := s.becomes t s.rs s.rp (s.withK d v) s.nextPc

/-- The stream goes on at an address; nothing else changes. -/
def State.continues (s t : State) (pc : VAddr) : Prop := s.becomes t s.rs s.rp s.rk pc

/-- A counted register's count state, and nothing else of the machine, changes. -/
def State.countOnly (s t : State) (c : CoreId) (x : CReg) : Prop := t = s.modCore c fun k => k.setCnt x ((t.core c).cnt x)

end Sys2Proof.Machine
end

