-- ==== Sys2Proof/Certificates/Slice0/Obligations.lean ====
section
/-! DEFINITION. The statements for the provers, family by family, over the terms of Safety.lean. -/

open Sys2Proof Sys2Proof.Machine

/-! ## Encoding, fetch, decode and the step (spec/04, spec/01 R33, spec/27 R412) -/

/-- Bytes of memory, and the instruction and length they decode to: examples the spec gives with their assembly (spec/05 to
spec/20), one of a family each. -/
def Sys2Proof.Spec.samples : List (List Byte × Instr × Nat) :=
  [([0xBF, 0x59, 0x02, 0x29, 0x80, 0xFF, 0xFF, 0xFF, 0xFF, 0xFF, 0xF8, 0x00], .addi .always 5 6 0xFFFFFFFFFFF8, 12),
   ([0x80, 0x5D, 0x03, 0x06, 0x11, 0x0A], .cmpLtu .always 2 4 5, 6),
   ([0x3F, 0x5A, 0x05, 0x90, 0xFF, 0xFF, 0xFF, 0xFF, 0xFF, 0xF0], .br (.on false 2) 0xFFFFFFFFFFF0, 10),
   ([0xC1, 0x59, 0x20, 0x14, 0x80, 0x50, 0x40, 0x00], .tld .always ⟨10, 2⟩ 5 0 0x40, 8),
   ([0xF8, 0x5D, 0x21, 0x01, 0x50, 0x82, 0x70, 0x29, 0x41, 0x31],
     .tstp .always ⟨40, .at 2 1⟩ 3 (some ⟨41, .at 2 1⟩) 7 0 0, 10),
   ([0xB2, 0x59, 0x40, 0x28, 0x85, 0x8B, 0x01, 0xC2],
     .vadd .always ⟨20, 2⟩ ⟨10, .at 0 1⟩ ⟨11, .at 0 1⟩ .nf16 .rne false none, 8),
   ([0xB3, 0x5D, 0x80, 0x02, 0x04, 0x45, 0x82, 0x20, 0xC5, 0x02],
     .mma .always ⟨2, 1⟩ ⟨10, .at 0 1⟩ (some ⟨2, .at 1 0⟩) none .nf16 1 1 none true, 10),
   ([0xFC, 0x59, 0xA0, 0x78, 0x54, 0x10, 0x2A, 0x20, 0x58, 0x42],
     .orient2 .always ⟨60, 1⟩ ⟨40, .at 1 0⟩ ⟨42, .at 1 0⟩ ⟨44, .at 1 1⟩, 10),
   ([0xE0, 0x5B, 0xC0, 0x02, 0x08, 0x4A, 0x63, 0x81], .pcopy .always ⟨4, 1⟩ (.rel .gang) 5 6 7 0, 8),
   ([0xE1, 0x5E, 0xC1, 0x05, 0x01, 0x08, 0x50, 0x25, 0x03, 0x00], .semwt .always (.acq .gang) 9 4 5 .geu, 10),
   ([0x01, 0x5C, 0xE0, 0x03, 0x01, 0x00], .resumeRetry .always .exec 0, 6)]

/-- Words written out from the spec's examples decode to the instructions they stand for, with their lengths in memory
(R80 to R97). -/
def Obligations.SampleWordsDecode : Prop := ∀ x ∈ Spec.samples, decodeBytes x.1 = some (x.2.1, x.2.2)

/-- Every well-formed instruction, with every operand at every value its encoding admits, is what its word decodes to
(R80 to R94). -/
def Obligations.DecodeEncode : Prop := ∀ (i : Instr) w, i.wf = true → encode i = some w → decodeWord w = some i

/-- The bytes of a word in memory give the word back, whatever follows them: header, present bytes from the highest, pad
byte (R95, R96, R97). -/
def Obligations.UnpackPack : Prop :=
  ∀ (w : Word96) rest, decodeBytes (pack w ++ rest) = (decodeWord w).map fun i => (i, (pack w).length)

/-- Global memory as the fetch of the instruction at an address sees it: one memory for all its bytes (R100, R276). -/
def Sys2Proof.Spec.codeSeen (s : State) (c : CoreId) (pc : VAddr) : GlobalMem :=
  s.codeMem (s.core c).partId (s.core c).pasid pc.toNat

/-- The bytes that a stream of a core fetches for the instruction at an address. -/
def Sys2Proof.Spec.codeAt (s : State) (c : CoreId) (x : StreamId) (pc : VAddr) (bs : List Byte) : Prop :=
  ∀ j (h : j < bs.length), s.fetchByte c x (Spec.codeSeen s c pc) (pc + .ofNat 51 j) = .ok bs[j]

/-- The stream has nothing fetched yet and may issue, and no debugger stops it there. -/
def Sys2Proof.Spec.ready (s : State) (c : CoreId) (x : StreamId) : Prop :=
  (s.core c).canIssue x = true ∧ (s.stream c x).ibuf = none ∧ (s.stream c x).breaks = false

/-- The state with an instruction of a stream fetched and held: the word with its length, the stream the next meaning acts
on, and the line of the instruction cache (R98; the cache is the model's, assumption log 10). -/
def Sys2Proof.Spec.holding (s : State) (c : CoreId) (x : StreamId) (bs : List Byte) : State :=
  let f : Fetched := ⟨(s.stream c x).pc, unpack (headerOf bs) (bs.drop 2), bs.length⟩
  let u := s.modCore c fun k => (k.modStream x fun v => v.hold f).fillCache x f
  { u with cur := (c, x) }

/-- The same once the instruction counts as issued: banks note the issue (R416, R420), unless it had issued before a page walk
that brings it back (R192). -/
def Sys2Proof.Spec.issued (s : State) (c : CoreId) (x : StreamId) (bs : List Byte) : State :=
  let u := Spec.holding s c x bs
  if (s.stream c x).again then u else (u.sketch 0 c (s.stream c x).pc 1).noteIssue c x

/-- What a move comes to once the requests of accesses that it performed have been counted (R414), and recordings, watchdogs and the
conditions of the cores have followed it. -/
def Sys2Proof.Spec.followed (s : State) (p : Pick) (o : Out) : Out :=
  match s.finish (some p) (s.announced p.performs o) with
  | .next t => .next t.forget
  | r => r

/-- A step at which nothing is due, and no deadline falls among the ticks that are to pass, lets those pass; a scheduled stream
that finds bytes at its program counter that decode to an instruction it may issue then runs exactly that instruction, and a
scheduled event runs as itself (R98, R103); where it would perform an access whose granules still wait, it stalls (R398), and
where it would come too late in an order of one cycle, it comes in the next tick (R44, R168, R215, R336, R367). What is due at
the tick comes before (R411, R412), and ticks pass only to the next deadline (the schedule is the model's, assumption logs 5
and 6). -/
def Obligations.StepRunsDecoded : Prop :=
  ∀ (s : State) dt p rest, s.sched = (dt, p) :: rest → s.power.stopped = false →
    let u := { s with sched := rest }.pass dt
    (∀ m, s.due = some m → step s = s.finish none (m s)) ∧
    (s.due = none →
      (∀ n, s.deadline dt = some n → step s = ({ s with sched := (dt - n, p) :: rest }.pass n).rest) ∧
      (s.deadline dt = none →
        (∀ o, ((∃ c x bs i, p = .issue c x false ∧ Spec.ready u c x ∧ Spec.codeAt u c x (u.stream c x).pc bs ∧
            decodeBytes bs = some (i, bs.length) ∧ x ∈ wordStreams (unpack (headerOf bs) (bs.drop 2)) ∧
            o = exec i (Spec.issued u c x bs)) ∨ ∃ i, p = .event i ∧ encode i = none ∧ o = exec i u) →
          let r := if u.stalls p o then u.rest else Spec.followed u p o
          ((dt ≠ 0 ∨ isLate r = false) → step s = r) ∧
          (dt = 0 → isLate r = true → step s = s.scheduled 1 p rest))))

/-- A fetched instruction that does not decode raises the first fault of Table 4.10 on its stream, with the instruction's
address in EADDR and nothing of it performed: ILLEGAL_PREFIX with the header in EWORD0, once every byte has been fetched,
ILLEGAL_OPCODE, WRONG_STREAM, RESERVED_FIELD; and a byte that cannot be fetched raises FETCH_FAULT with its own address and the
cause behind it (R98, R103). -/
def Obligations.DecodeFaults : Prop :=
  ∀ (s : State) c x bs, Spec.ready s c x → Spec.codeAt s c x (s.stream c x).pc bs →
    let pc := (s.stream c x).pc
    let h := headerOf bs
    let w := unpack h (bs.drop 2)
    let ea : Word := .ofNat 64 pc.toNat
    let bad : State → BitVec 7 → Word → Word → Nat → State := fun u base ea ew n =>
      u.raise c { base := base, x := x, async := false, epc := pc, eaddr := ea, eword0 := ew, eword1 := 0, len := n }
    let u : State := { s with cur := (c, x) }
    let pair := opRow (Head.ofWord w).maj (Head.ofWord w).min
    (2 ≤ bs.length → bs.length = roundedLen h →
      ((prefixOk h = false ∨ padOk h (bs.drop 2) = false) →
        s.move (.issue c x false) = .next (bad u 0x04 ea (.ofNat 64 h.toNat) (roundedLen h))) ∧
      (prefixOk h = true → padOk h (bs.drop 2) = true →
        (pair = none → s.move (.issue c x false) = .next ((Spec.holding s c x bs).trap 0x01 ea)) ∧
        (∀ r, pair = some r → x ∉ r.streams →
          s.move (.issue c x false) = .next ((Spec.holding s c x bs).trap 0x03 ea)) ∧
        (∀ r, pair = some r → x ∈ r.streams → r.decode w = none →
          s.move (.issue c x false) = .next ((Spec.holding s c x bs).trap 0x02 ea)))) ∧
    (∀ cause, (bs.length < 2 ∨ bs.length < roundedLen h) →
      s.fetchByte c x (Spec.codeSeen s c pc) (pc + .ofNat 51 bs.length) = .fault cause →
      s.move (.issue c x false) = .next (bad (u.dropAnswers c cause) 0x05
        (.ofNat 64 (cause.toNat * 2 ^ 56 + (pc + BitVec.ofNat 51 bs.length).toNat)) 0 0))

/-- Every instruction and every event answers a next state, whatever the state and its operands: none ends in a fault or a
refusal. So does every step of a module that heat has not stopped; a stopped one does nothing but start again (R423). -/
def Obligations.EveryMoveAnswers : Prop :=
  (∀ i s, ∃ t, exec i s = .next t) ∧
    ∀ s : State, (s.power.stopped = false → ∃ t, step s = .next t) ∧
      (s.power.stopped = true → (∀ dt a b rest, s.sched ≠ (dt, .event (.powerOn a b)) :: rest) →
        step s = .fault .moduleStopped)

/-- The condition under which the watchdog of a core counts (R33): a task, no trap handler, no engine command in flight (a parked
pump command is not), every stream in COUNT_WAIT or ENDED and at least one in COUNT_WAIT. -/
def Sys2Proof.Spec.deadlocked (k : Core) : Prop :=
  k.task.isSome = true ∧ k.hl = 0 ∧ k.pumpq = [] ∧ (∀ m u r, k.pump0 ≠ .running m u r ∧ k.pump1 ≠ .running m u r) ∧
    k.geom = [] ∧ k.aq = [] ∧ (∀ x, (k.stream x).st = .countWait ∨ (k.stream x).st = .ended) ∧
    ∃ x, (k.stream x).st = .countWait

/-- After every step the watchdog of every core counts exactly while the condition of R33 holds; what follows a move keeps the
tick from which a count goes on running, starts one at the partition's view of the tick, and ends it when the condition fails
(R33). -/
def Obligations.WatchdogInvariant : Prop :=
  (∀ (s t : State), step s = .next t → ∀ c, (t.core c).wdSince.isSome = true ↔ Spec.deadlocked (t.core c)) ∧
    ∀ (k : Core) view, let u := k.upkeep view
      (Spec.deadlocked u → (∀ n, k.wdSince = some n → u.wdSince = some n) ∧ (k.wdSince = none → u.wdSince = some view)) ∧
      (¬ Spec.deadlocked u → u.wdSince = none)

/-- Every step keeps every byte memory of the machine in its canonical form: addresses strictly rising, and no entry equal to
what an unlisted address reads as (the model's own form of memory, assumption log 2). -/
def Obligations.MemoryStaysCanonical : Prop := ∀ (s t : State), s.memWf = true → step s = .next t → t.memWf = true

/-- The state after power is applied: the tick is 0, every measurement register, queue and node is empty or zero, bank v
stands for VF v, memory lists nothing, and no core holds a task (R425, R386, R314, R399); registers without a reset value are
zero (assumption log 1). -/
def Obligations.ResetValues : Prop :=
  State.reset.tick = 0 ∧ State.reset.memWf = true ∧ State.reset.watched ∧ State.reset.gmem.mem = PoisonMem.empty ∧
    State.reset.boot.mreg = Vector.replicate 8 0 ∧ State.reset.queues = [] ∧ State.reset.nodes = [] ∧ State.reset.launches = [] ∧
    (∀ c, State.reset.core c = Core.zero ∧ (State.reset.core c).task = none) ∧
    (∀ b : Fin 128, (State.reset.banks[b]).owner = if 1 ≤ b.val ∧ b.val ≤ 63 then .ofNat 7 b.val else 0)

/-- A core that a tick stop has gated stands still: no stream of it issues, its pumps move nothing, and nothing comes about in
it, until the release (R412). -/
def Obligations.GatedCoreStandsStill : Prop :=
  ∀ (s : State) c, (s.core c).gated = true →
    (∀ x uc, s.move (.issue c x uc) = .next s) ∧ (∀ b, s.move (.pumpUnit c b) = .next s) ∧
    (∀ x y a b d i e m w, ∀ v ∈ [Instr.instructionFetch c x a, .countWaitResume c x, .issueIntervalEnd c a,
      .vectorWriteComplete c i, .tileLoadComplete c i a, .tileStorePerformed c x, .scalarLoadReturn c x a,
      .scalarStorePerformed c x, .pageWalkComplete c x a b d, .arrayQueueRoom c x, .wlatchComplete c e, .wclrExecute c,
      .mmaComplete c a, .nestGroupComplete c, .nestComplete c e, .geomAccept c, .geomComplete c a, .pumpQueueRoom c x,
      .pumpTakeCommand c a, .pumpCommandEnd c a e, .pumpPark c a, .premUnitAck c a, .semOpPerform (.stream c x) m,
      .semOpResult c x, .semwtHoldExpire c x, .joinComplete c, .barComplete c, .streamEnded c x, .taskRetire c, .watchdogExpire c,
      .trapDelivery c, .eccUncorrectable c y w, .hardStop c, .drainComplete c, .zeroingComplete c],
      exec v s = .next s)
/-! ## Scalar instructions (spec/06) -/

/-- What the scalar instructions write, in integers: guard, destination and value (Tables 6.1, 6.2, 6.6, R140). -/
def Sys2Proof.Spec.scalar (s : State) : Instr → Option (Guard × SReg × Word)
  | .add g d a b => some (g, d, .ofNat 64 ((s.rs a).toNat + (s.rs b).toNat))
  | .sub g d a b => some (g, d, .ofInt 64 ((s.rs a).toInt - (s.rs b).toInt))
  | .mul g d a b => some (g, d, .ofInt 64 ((s.rs a).toInt * (s.rs b).toInt))
  | .mulh g d a b => some (g, d, .ofInt 64 ((s.rs a).toInt * (s.rs b).toInt / 2 ^ 64))
  | .mulhu g d a b => some (g, d, .ofNat 64 ((s.rs a).toNat * (s.rs b).toNat / 2 ^ 64))
  | .and g d a b => some (g, d, s.rs a &&& s.rs b)
  | .or g d a b => some (g, d, s.rs a ||| s.rs b)
  | .xor g d a b => some (g, d, s.rs a ^^^ s.rs b)
  | .shl g d a b => some (g, d, .ofNat 64 ((s.rs a).toNat * 2 ^ ((s.rs b).toNat % 64)))
  | .shr g d a b => some (g, d, .ofNat 64 ((s.rs a).toNat / 2 ^ ((s.rs b).toNat % 64)))
  | .sar g d a b => some (g, d, .ofInt 64 ((s.rs a).toInt / 2 ^ ((s.rs b).toNat % 64)))
  | .rot g d a b =>
    let n := (s.rs b).toNat % 64
    some (g, d, .ofNat 64 ((s.rs a).toNat * 2 ^ n + (s.rs a).toNat / 2 ^ (64 - n)))
  | .min g d a b => some (g, d, if (s.rs a).toInt ≤ (s.rs b).toInt then s.rs a else s.rs b)
  | .max g d a b => some (g, d, if (s.rs a).toInt ≤ (s.rs b).toInt then s.rs b else s.rs a)
  | .minu g d a b => some (g, d, if (s.rs a).toNat ≤ (s.rs b).toNat then s.rs a else s.rs b)
  | .maxu g d a b => some (g, d, if (s.rs a).toNat ≤ (s.rs b).toNat then s.rs b else s.rs a)
  | .sel g d a b p => some (g, d, if s.rp p then s.rs a else s.rs b)
  | .mov g d a => some (g, d, s.rs a)
  | .clz g d a => some (g, d, if s.rs a = 0 then 64 else .ofNat 64 (63 - Nat.log2 (s.rs a).toNat))
  | .ctz g d a => some (g, d, .ofNat 64 (((List.range 64).find? fun i => (s.rs a).getLsbD i).getD 64))
  | .popc g d a => some (g, d, .ofNat 64 ((List.range 64).countP fun i => (s.rs a).getLsbD i))
  | .addi g d a imm => some (g, d, .ofInt 64 ((s.rs a).toInt + imm.toInt))
  | .andi g d a imm => some (g, d, s.rs a &&& .ofInt 64 imm.toInt)
  | .ori g d a imm => some (g, d, s.rs a ||| .ofInt 64 imm.toInt)
  | .xori g d a imm => some (g, d, s.rs a ^^^ .ofInt 64 imm.toInt)
  | .shli g d a sh => some (g, d, .ofNat 64 ((s.rs a).toNat * 2 ^ sh.toNat))
  | .shri g d a sh => some (g, d, .ofNat 64 ((s.rs a).toNat / 2 ^ sh.toNat))
  | .sari g d a sh => some (g, d, .ofInt 64 ((s.rs a).toInt / 2 ^ sh.toNat))
  | .li g d imm => some (g, d, .ofInt 64 imm.toInt)
  | .lih g d a imm => some (g, d, .ofNat 64 (imm.toNat * 2 ^ 48 + (s.rs a).toNat % 2 ^ 48))
  | .lea g d a imm => some (g, d, .ofInt 64 (((s.rs a).toInt + imm.toInt) % 2 ^ 51))
  | .kmovSK g d a => some (g, d, .ofNat 64 (s.rk a).toNat)
  | .tick g d => some (g, d, .ofNat 64 (s.view s.cur.1))
  | _ => none

/-- ADD to POPC, ADDI to LEA, KMOV to a scalar and TICK, guarded true, complete with the value their table gives, written
to s[D] and nowhere else; s0 stays zero (R117, R119, R121, R123, R140). -/
def Obligations.ScalarResult : Prop :=
  ∀ (s : State) i g d v, Spec.scalar s i = some (g, d, v) → s.guard g = true →
    ∃ t, exec i s = .next t ∧ s.scalarWritten t d v

/-- The divisions: guard, destination, dividend, divisor and the result for a divisor that is not zero: quotient
truncated toward zero, remainder with the sign of the dividend (Table 6.1, R120). -/
def Sys2Proof.Spec.division (s : State) : Instr → Option (Guard × SReg × Word × Word)
  | .div g d a b => some (g, d, s.rs b, .ofInt 64 ((s.rs a).toInt.tdiv (s.rs b).toInt))
  | .divu g d a b => some (g, d, s.rs b, .ofNat 64 ((s.rs a).toNat / (s.rs b).toNat))
  | .rem g d a b => some (g, d, s.rs b, .ofInt 64 ((s.rs a).toInt.tmod (s.rs b).toInt))
  | .remu g d a b => some (g, d, s.rs b, .ofNat 64 ((s.rs a).toNat % (s.rs b).toNat))
  | _ => none

/-- DIV, DIVU, REM and REMU complete with the quotient or the remainder when the divisor is not zero, −2^63 by −1
included (R120). -/
def Sys2Proof.Spec.DivisionResult : Prop :=
  ∀ (s : State) i g d b v, Spec.division s i = some (g, d, b, v) → s.guard g = true → b ≠ 0 →
    ∃ t, exec i s = .next t ∧ s.scalarWritten t d v

/-- A division by zero raises INT_DIV_ZERO (0x40) precisely on the issuing stream, with EADDR 0, and no scalar of any stream or
handler level changes (R120). -/
def Sys2Proof.Spec.DivisionByZeroTraps : Prop :=
  ∀ (s : State) i g d v, Spec.division s i = some (g, d, 0, v) → s.guard g = true →
    let c := s.cur.1
    let t := s.trapOn c s.cur.2 0x40 0
    exec i s = .next t ∧ (∀ x, (t.stream c x).s = (s.stream c x).s) ∧ (t.core c).bank1.s = (s.core c).bank1.s ∧
      (t.core c).bank2.s = (s.core c).bank2.s

/-- The divisions, for every divisor (R120). -/
def Obligations.Divisions : Prop := Spec.DivisionResult ∧ Spec.DivisionByZeroTraps

/-- What the compares and the predicate instructions write (Table 6.4). -/
def Sys2Proof.Spec.predicate (s : State) : Instr → Option (Guard × PReg × Bool)
  | .cmpEq g d a b => some (g, d, decide ((s.rs a).toInt = (s.rs b).toInt))
  | .cmpNe g d a b => some (g, d, decide ((s.rs a).toInt ≠ (s.rs b).toInt))
  | .cmpLt g d a b => some (g, d, decide ((s.rs a).toInt < (s.rs b).toInt))
  | .cmpLe g d a b => some (g, d, decide ((s.rs a).toInt ≤ (s.rs b).toInt))
  | .cmpGt g d a b => some (g, d, decide ((s.rs b).toInt < (s.rs a).toInt))
  | .cmpGe g d a b => some (g, d, decide ((s.rs b).toInt ≤ (s.rs a).toInt))
  | .cmpLtu g d a b => some (g, d, decide ((s.rs a).toNat < (s.rs b).toNat))
  | .cmpLeu g d a b => some (g, d, decide ((s.rs a).toNat ≤ (s.rs b).toNat))
  | .cmpGtu g d a b => some (g, d, decide ((s.rs b).toNat < (s.rs a).toNat))
  | .cmpGeu g d a b => some (g, d, decide ((s.rs b).toNat ≤ (s.rs a).toNat))
  | .pand g d a b => some (g, d, s.rp a && s.rp b)
  | .por g d a b => some (g, d, s.rp a || s.rp b)
  | .pnot g d a => some (g, d, !s.rp a)
  | _ => none

/-- CMP in its ten forms, PAND, POR and PNOT, guarded true, complete with the predicate of Table 6.4 written to p[D] and
nowhere else; p0 stays true (R117, R122). -/
def Sys2Proof.Spec.PredicateResult : Prop :=
  ∀ (s : State) i g d v, Spec.predicate s i = some (g, d, v) → s.guard g = true →
    ∃ t, exec i s = .next t ∧ s.predWritten t d v

/-- What the count-base instructions write to a count base (Table 6.6). -/
def Sys2Proof.Spec.base (s : State) : Instr → Option (Guard × KReg × BitVec 16)
  | .kset g d imm => some (g, d, imm)
  | .kadd g d a imm => some (g, d, .ofNat 16 ((s.rk a).toNat + imm.toNat))
  | .kmovKS g d a => some (g, d, .ofNat 16 (s.rs a).toNat)
  | .kmovKK g d a => some (g, d, s.rk a)
  | _ => none

/-- KSET, KADD and KMOV to a count base, guarded true, complete with the value of Table 6.6 written to k[D] and nowhere
else (R123). -/
def Sys2Proof.Spec.CountBaseResult : Prop :=
  ∀ (s : State) i g d v, Spec.base s i = some (g, d, v) → s.guard g = true →
    ∃ t, exec i s = .next t ∧ s.baseWritten t d v

/-- Comparisons, predicate logic and count bases (R117, R122, R123). -/
def Obligations.PredicateAndBase : Prop := Spec.PredicateResult ∧ Spec.CountBaseResult

/-- The guard of an instruction that a false guard turns into nothing at all: every guarded instruction of the streams
but those with a counted destination, which then make the write of R29, and CADV (R81, R118). -/
def Sys2Proof.Spec.plainGuard : Instr → Option Guard
  | .add g .. | .sub g .. | .mul g .. | .mulh g .. | .mulhu g .. | .div g .. | .divu g .. | .rem g .. | .remu g ..
  | .and g .. | .or g .. | .xor g .. | .shl g .. | .shr g .. | .sar g .. | .rot g .. | .min g .. | .max g ..
  | .minu g .. | .maxu g .. | .sel g .. | .mov g .. | .clz g .. | .ctz g .. | .popc g .. | .addi g .. | .andi g ..
  | .ori g .. | .xori g .. | .shli g .. | .shri g .. | .sari g .. | .li g .. | .lih g .. | .lea g ..
  | .cmpEq g .. | .cmpNe g .. | .cmpLt g .. | .cmpLe g .. | .cmpGt g .. | .cmpGe g .. | .cmpLtu g .. | .cmpLeu g ..
  | .cmpGtu g .. | .cmpGeu g .. | .pand g .. | .por g .. | .pnot g .. | .kset g .. | .kadd g .. | .kmovKS g ..
  | .kmovSK g .. | .kmovKK g .. | .crd g .. | .cwait g .. | .br g .. | .bri g .. | .call g .. | .ret g ..
  | .loop g .. | .post g .. | .tst g .. | .tstp g .. | .ldsU8 g .. | .ldsU16 g .. | .ldsU32 g .. | .ldsU64 g ..
  | .ldsI8 g .. | .ldsI16 g .. | .ldsI32 g .. | .stsU8 g .. | .stsU16 g .. | .stsU32 g .. | .stsU64 g ..
  | .lookup g .. | .tagset g .. | .taginv g .. | .probe g .. | .wclr g | .nsetl g .. | .nsetb g .. | .nstat g ..
  | .gstat g .. | .pqstat g .. | .semadd g .. | .semswp g .. | .semcas g .. | .semmax g .. | .semld g ..
  | .semwt g .. | .fence g .. | .bar g .. | .nop g | .trap g .. | .bkpt g .. | .csrr g .. | .csrw g .. | .csrx g ..
  | .tick g .. | .resumeRetry g .. | .resumeSkip g .. => some g
  | _ => none

/-- An instruction without a counted destination whose guard is false changes nothing, raises nothing, and the stream
goes on to the next instruction (R81, R118). -/
def Obligations.GuardFalseDoesNothing : Prop :=
  ∀ (s : State) i g, Spec.plainGuard i = some g → s.guard g = false → ∃ t, exec i s = .next t ∧ s.continues t s.nextPc

/-! ## Counts (spec/01, spec/06 R124 to R127) -/

/-- The handle of a count fault (Table 1.9): register number, class code, and the expected count above them. -/
def Sys2Proof.Spec.countEaddr (x : CReg) (e : BitVec 16) : Word :=
  .ofNat 64 (e.toNat * 2 ^ 10 + (match x with
    | .tile r => r.toNat
    | .acc r => 2 ^ 7 + r.toNat
    | .sig r => 2 ^ 8 + r.toNat))

/-- Nothing the stream has issued to memory is still to be performed: no store, and for LOAD no tile load that has not read. -/
def Sys2Proof.Spec.quietOn (s : State) (c : CoreId) (x : StreamId) : Prop :=
  (s.stream c x).stores = [] ∧ (x = .load → ∀ r ∈ (s.core c).loads, r.buf.isSome = true)

/-- The same of the issuing stream. -/
def Sys2Proof.Spec.quiet (s : State) : Prop := Spec.quietOn s s.cur.1 s.cur.2

/-- An instruction of the issuing stream makes the write of R29 on a register: once the stream's accesses before it have been
performed (R37), a register that may be written advances its count and declares its readers, with neither value nor poison
changed, and the stream goes on; on one that may not be written yet the stream waits in COUNT_WAIT (R20). The write carries on
what the stream is ordered after, which the model notes of a PWLD that has ended (R37, R48). -/
def Sys2Proof.Spec.emptyWrite (s : State) (i : Instr) (x : CReg) (rdr : BitVec 3) : Prop :=
  Spec.quiet s →
    let n := s.curCore.cnt x
    n.bad = false →
    ((n.p = 0 ∨ n.opn = true) ∧ n.rsv = false →
      exec i s = .next ((s.modCore s.cur.1 fun k => (k.handOn s.cur.2 [x]).setCnt x
        ⟨n.c + 1, if rdr = 7 then 0 else rdr, decide (rdr = 7), false, false⟩).finishOn s.cur.1 s.cur.2)) ∧
    (¬ ((n.p = 0 ∨ n.opn = true) ∧ n.rsv = false) →
      exec i s = .next (s.waitOn s.cur.1 s.cur.2 .countWait (.dst x rdr [] .count)))

/-- CADV on a register that may be written advances its count and declares its readers, whatever the guard; on one that
may not it waits. The stream's accesses before it are performed first, and neither value nor poison changes (R124,
R125). -/
def Sys2Proof.Spec.CadvResult : Prop := ∀ (s : State) g x rdr, Spec.emptyWrite s (.cadv g x rdr) x rdr

/-- CRD writes the count state in the layout of R127 without waiting and without a debit. -/
def Sys2Proof.Spec.CrdResult : Prop :=
  ∀ (s : State) g d x, s.guard g = true →
    let n := s.curCore.cnt x
    n.bad = false →
    ∃ t, exec (.crd g d x) s = .next t ∧
      s.scalarWritten t d (.ofNat 64 (n.c.toNat + n.p.toNat * 2 ^ 16 + n.opn.toNat * 2 ^ 19 + n.rsv.toNat * 2 ^ 20))

/-- CWAIT is a counted read without data of the count k_b + off: it debits one reader and goes on, waits while the write
is still to come, and raises STALE_READ or READER_OVERRUN with the register and the expected count in EADDR (R23, R24,
R126; the counter of free values is the model's own, assumption log 7, and so is the note that a read of a PWLD's completion
orders it, log 28). -/
def Sys2Proof.Spec.CwaitResult : Prop :=
  ∀ (s : State) g x b off, s.guard g = true →
    let n := s.curCore.cnt x
    let e := s.rk b + off.signExtend 16
    n.bad = false →
    (n.c = e → n.opn = true →
      exec (.cwait g x b off) s = .next ({ s with fresh := s.fresh + 1 }.finishOn s.cur.1 s.cur.2)) ∧
    (n.c = e → n.opn = false → n.p ≠ 0 →
      exec (.cwait g x b off) s = .next (({ s with fresh := s.fresh + 1 }.modCore s.cur.1 fun k =>
        (k.setCnt x { n with p := n.p - 1 }).orderReads s.cur.2 [⟨x, some e⟩]).finishOn s.cur.1 s.cur.2)) ∧
    (n.c = e → n.opn = false → n.p = 0 →
      exec (.cwait g x b off) s = .next (s.trapOn s.cur.1 s.cur.2 0x11 (Spec.countEaddr x e))) ∧
    (0 < (n.c - e).toNat → (n.c - e).toNat < 0x8000 →
      exec (.cwait g x b off) s = .next (s.trapOn s.cur.1 s.cur.2 0x10 (Spec.countEaddr x e))) ∧
    (0x8000 ≤ (n.c - e).toNat →
      exec (.cwait g x b off) s = .next (s.waitOn s.cur.1 s.cur.2 .countWait (.src [⟨x, some e⟩] .cwait)))

/-- The instructions on counts themselves: CADV, CRD and CWAIT (R124 to R127). -/
def Obligations.CountInstructions : Prop := Spec.CadvResult ∧ Spec.CrdResult ∧ Spec.CwaitResult

/-! ## Branches and loops (spec/06 R128 to R131) -/

/-- The branches: guard, link register (s0 for none) and target (Table 6.7, R90). -/
def Sys2Proof.Spec.branch (s : State) : Instr → Option (Guard × SReg × VAddr)
  | .br g off => some (g, 0, .ofInt 51 (s.pc.toNat + 2 * off.toInt))
  | .bri g a => some (g, 0, .ofNat 51 (s.rs a).toNat)
  | .call g d off => some (g, d, .ofInt 51 (s.pc.toNat + 2 * off.toInt))
  | .ret g a => some (g, 0, .ofNat 51 (s.rs a).toNat)
  | _ => none

/-- The instruction takes its target from a scalar. -/
def Sys2Proof.Spec.indirect : Instr → Bool
  | .bri .. | .ret .. => true
  | _ => false

/-- BR, BRI, CALL and RET, guarded true, go to their target, and CALL leaves the address of the next instruction in s[D];
nothing else changes. BRI and RET to an odd address raise MISALIGNED with that address (R128, R90, R99). -/
def Sys2Proof.Spec.BranchResult : Prop :=
  ∀ (s : State) i g d a, Spec.branch s i = some (g, d, a) → s.guard g = true →
    (¬ (Spec.indirect i = true ∧ a.toNat % 2 = 1) →
      ∃ t, exec i s = .next t ∧ s.becomes t (s.withS d (.ofNat 64 s.nextPc.toNat)) s.rp s.rk a) ∧
    (Spec.indirect i = true → a.toNat % 2 = 1 →
      exec i s = .next (s.trapOn s.cur.1 s.cur.2 0x23 (.ofNat 64 a.toNat)))

/-- LOOP, guarded true, does what its pseudocode says (R129): the trip register is decremented but not below zero, the
listed count bases are stepped on every pass, a drainable LOOP under drain with fewer than 2^63 passes left falls through
and records them in LOOPIT once, and the branch is taken while passes remain. Nothing else changes. -/
def Sys2Proof.Spec.LoopResult : Prop :=
  ∀ (s : State) g d kmask dr off, d ≠ 0 → s.guard g = true →
    let left := (s.rs d).toNat - 1
    let clamp := dr = true ∧ s.curStream.dr = true ∧ left < 2 ^ 63
    let n := if clamp then 0 else left
    ∃ t, exec (.loop g d kmask dr off) s = .next t ∧
      (∀ r, t.rs r = s.withS d (.ofNat 64 n) r) ∧
      (∀ p, t.rp p = s.rp p) ∧
      (∀ k, t.rk k = if kmask.getLsbD k.val then s.rk k + 1 else s.rk k) ∧
      t.pc = (if n ≠ 0 then .ofInt 51 (s.pc.toNat + 2 * off.toInt) else s.nextPc) ∧
      t.curStream.loopit = (if clamp ∧ left ≠ 0 ∧ s.curStream.loopit.toNat < 2 ^ 63 then .ofNat 64 (2 ^ 63 + left)
        else s.curStream.loopit) ∧
      t.curStream.cl = (s.curStream.cl || decide (clamp ∧ left ≠ 0)) ∧
      (t.modStream s.cur.1 s.cur.2 fun v => { v with loopit := s.curStream.loopit, cl := s.curStream.cl }).blank = s.blank ∧
      s.memSame t

/-- Branches, calls, returns and the hardware loop (R128, R129). -/
def Obligations.BranchesAndLoop : Prop := Spec.BranchResult ∧ Spec.LoopResult

/-! ## Drain points and task control (spec/06 R132, R134; spec/01 R15 to R18) -/

/-- CTRL is inside a handler, where DPT, FORK, JOIN and END raise CONTROL_STATE with sub-code 4 (Table 6.14). -/
def Sys2Proof.Spec.inHandler (s : State) : Prop := s.cur.2 = .ctrl ∧ s.curCore.hl ≠ 0

/-- Outside a handler DPT does nothing while drain is not in force; while it is, the stream stops at the next instruction
with DRAINED.AT set and the live masks of its two scalars kept (R132). -/
def Sys2Proof.Spec.DptResult : Prop :=
  ∀ (s : State) a b, ¬ Spec.inHandler s →
    (s.curStream.dr = false → ∃ t, exec (.dpt a b) s = .next t ∧ s.continues t s.nextPc) ∧
    (s.curStream.dr = true → exec (.dpt a b) s = .next (s.modStream s.cur.1 s.cur.2 fun v =>
      { v with st := .drainStop, at_ := true, live := s.rs b ++ s.rs a, pc := s.nextPc }))

/-- FORK takes LOAD, EXEC and STORE out of IDLE at the entries of their sections, once a task, after what CTRL did
before it has been performed; the three are ordered after what CTRL was (R48); a second FORK raises CONTROL_STATE with sub-code 1 (Table 6.10, R14). -/
def Sys2Proof.Spec.ForkResult : Prop :=
  ∀ (s : State) task, s.cur.2 = .ctrl → s.curCore.hl = 0 → s.curCore.task = some task → s.curStream.stores = [] →
    (s.curCore.forked = true → exec .fork s = .next (s.trapOn s.cur.1 .ctrl 0x06 1)) ∧
    (s.curCore.forked = false → s.curCore.load.st = .idle → s.curCore.exec.st = .idle → s.curCore.store.st = .idle →
      exec .fork s = .next (s.modCore s.cur.1 fun k =>
        { k.handTo [.ctrl] [.load, .exec, .store] with
                 forked := true,
                 load := { k.load with st := .running, pc := task.entryLoad },
                 exec := { k.exec with st := .running, pc := task.entryExec },
                 store := { k.store with st := .running, pc := task.entryStore },
                 ctrl := { k.ctrl with pc := s.nextPc } }))

/-- JOIN and END hold their stream, in OTHER_WAIT and in RUNNING, once its stores have been performed; each raises
CONTROL_STATE with sub-code 4 in a handler, as DPT and FORK do (Table 6.10, R15, Table 6.14). -/
def Sys2Proof.Spec.JoinEndHold : Prop :=
  ∀ (s : State),
    (Spec.inHandler s → ∀ i ∈ [Instr.join, .endStream, .fork], exec i s = .next (s.trapOn s.cur.1 .ctrl 0x06 4)) ∧
    (Spec.inHandler s → ∀ a b, exec (.dpt a b) s = .next (s.trapOn s.cur.1 .ctrl 0x06 4)) ∧
    (¬ Spec.inHandler s → Spec.quiet s →
      exec .join s = .next (s.modStream s.cur.1 s.cur.2 fun v => { v with st := .otherWait, pend := .join }) ∧
      exec .endStream s = .next (s.modStream s.cur.1 s.cur.2 fun v => { v with st := .running, pend := .finish }))

/-- POST records s[A] as the word this role posted last, and nothing else changes but the program counter (R18). -/
def Sys2Proof.Spec.PostResult : Prop :=
  ∀ (s : State) g a, s.guard g = true →
    exec (.post g a) s = .next ((s.modCore s.cur.1 fun k => { k with posted := s.rs a }).modStream s.cur.1 s.cur.2
      fun v => { v with pc := s.nextPc })

/-- DPT, FORK, JOIN, END and POST (R132, R134, R14, R15, R18). -/
def Obligations.TaskControl : Prop := Spec.DptResult ∧ Spec.ForkResult ∧ Spec.JoinEndHold ∧ Spec.PostResult

/-- JOIN_COMPLETE: when the four streams have arrived at the join of one ordinal, or are ENDED, those that wait go on past
it, and each counts one more join (R15). -/
def Sys2Proof.Spec.JoinCompletes : Prop :=
  ∀ (s : State) c j, (s.core c).gated = false →
    (∀ x, ((s.core c).stream x).st = .ended ∧ ((s.core c).stream x).pend = .none ∨
      ((s.core c).stream x).pend = .join ∧ ((s.core c).stream x).jord = j) →
    (∃ x, ((s.core c).stream x).pend = .join) →
    ∃ t, exec (.joinComplete c) s = .next t ∧ ∀ x,
      (t.core c).stream x =
        if ((s.core c).stream x).pend = .join then { (s.core c).stream x with
          st := .running, pend := .none, pc := ((s.core c).stream x).pc + .ofNat 51 ((s.core c).stream x).len, jord := j + 1 }
        else (s.core c).stream x

/-- STREAM_ENDED: a stream that waits at END becomes ENDED once everything it issued has completed: stores, tile loads,
vector writes, geometry, entries of the array queue and pump commands (R134). -/
def Sys2Proof.Spec.StreamEnds : Prop :=
  ∀ (s : State) c x, (s.core c).gated = false → (s.stream c x).pend = .finish → (s.stream c x).stores = [] →
    (s.core c).loads = [] → (s.core c).vwrites = [] → (s.core c).geom = [] → (s.core c).aq = [] →
    (s.core c).pumpq = [] → (s.core c).pump0 = .idle → (s.core c).pump1 = .idle →
    exec (.streamEnded c x) s = .next (s.modStream c x fun v => { v with st := .ended, pend := .none })

/-- What JOIN and END wait for, and what ends them (R15, R16, R134). -/
def Obligations.StreamsEnd : Prop := Spec.JoinCompletes ∧ Spec.StreamEnds

/-! ## Taking an exception (spec/20 R332 to R338) -/

/-- A precise trap as its handler reads it (R332, R334): base cause and stream in CAUSE, the address of the trapped
instruction in EPC, its word in EWORD0 and EWORD1. -/
def Sys2Proof.Spec.precise (v : Stream) (code : Nat) (base : BitVec 7) (ea : Word) (retpc : VAddr) : TrapSet where
  cause := .ofNat 10 (base.toNat * 4 + code)
  epc := v.pc
  eaddr := ea
  eword0 := .ofNat 64 v.word.toNat
  eword1 := .ofNat 64 (v.word.toNat / 2 ^ 64)
  retpc := retpc
  len := v.len

/-- Stream codes (Table 1.1). -/
def Sys2Proof.Spec.code : StreamId → Nat
  | .load => 0
  | .exec => 1
  | .store => 2
  | .ctrl => 3

/-- UDELEG0 and UDELEG1 delegate a base cause (R335). -/
def Sys2Proof.Spec.delegates (k : Core) (base : BitVec 7) : Bool :=
  if base.toNat < 64 then k.udeleg0.getLsbD base.toNat else k.udeleg1.getLsbD (base.toNat - 64)

/-- The trap is one of those that no handler of the partition ever takes (R336). -/
def Sys2Proof.Spec.neverDelivered (base : BitVec 7) (ea : Word) : Prop :=
  base = 0x22 ∨ base = 0x05 ∧ ea.extractLsb' 56 7 = 0x22

/-- A precise trap of LOAD, EXEC or STORE, with no handler running and a vector set, stops its stream with its registers
as they were and diverts CTRL: to UHVEC at level 1 where the cause is delegated and UHVEC is set, else to SHVEC at level 2.
The set of that level holds CAUSE, EPC, EADDR, EWORD0 and EWORD1 of the trap and the address CTRL would have gone on at in
RETPC; the other set, the other streams and every byte of memory stay (R332, R334, R335, R336). No debugger holds CTRL (R280). -/
def Obligations.TrapReachesHandler : Prop :=
  ∀ (s : State) c x base ea, x ≠ .ctrl → ¬ Spec.neverDelivered base ea →
    let k := s.core c
    let user := Spec.delegates k base = true ∧ k.uhvec ≠ 0
    k.hl = 0 → k.ctrlEsc = false → k.ctrlBusy = false → k.ctrl.dbg ≠ .stopped → (user ∨ k.shvec ≠ 0) →
    let t := (s.trapOn c x base ea).core c
    let set := Spec.precise (k.stream x) (Spec.code x) base ea k.ctrl.pc
    (t.stream x).st = .stopped ∧ (t.stream x).pend = .none ∧ (t.stream x).pc = (k.stream x).pc ∧
      (t.stream x).s = (k.stream x).s ∧ (t.stream x).p = (k.stream x).p ∧ (t.stream x).k = (k.stream x).k ∧
      (∀ y, y ≠ x → y ≠ .ctrl → t.stream y = k.stream y) ∧
      t.ctrl.st = .running ∧ t.ctrl.pc = (if user then k.uhvec else k.shvec) ∧
      t.hl = (if user then 1 else 2) ∧
      t.trap1 = (if user then set else k.trap1) ∧ t.trap2 = (if user then k.trap2 else set) ∧
      t.entry1 = (if user then 0 else k.entry1) ∧ t.entry2 = (if user then k.entry2 else 0) ∧
      t.bank1 = k.bank1 ∧ t.bank2 = k.bank2 ∧ t.ctrl.s = k.ctrl.s ∧ t.ctrl.p = k.ctrl.p ∧
      s.memSame (s.trapOn c x base ea)

/-- A precise trap of LOAD, EXEC or STORE while a handler runs, or while CTRL awaits the answer to an escalation, stops its
stream and is held; CTRL goes on (R336). -/
def Sys2Proof.Spec.TrapHeldWhileHandlerRuns : Prop :=
  ∀ (s : State) c x base ea, x ≠ .ctrl → ¬ Spec.neverDelivered base ea →
    ((s.core c).hl ≠ 0 ∨ (s.core c).ctrlEsc = true) →
    let t := (s.trapOn c x base ea).core c
    (t.stream x).st = .stopped ∧ t.ctrl = (s.core c).ctrl ∧ t.hl = (s.core c).hl ∧
      t.held.length = (s.core c).held.length + 1 ∧
      (∀ r ∈ t.held.getLast?, r.base = base ∧ r.x = x ∧ r.epc = (s.stream c x).pc ∧ r.eaddr = ea)

/-- A trap that CTRL raises itself goes to level 1 or 2 from level 0, to level 2 from the user handler, and is escalated from
the supervisor handler or where no vector is set, with CTRL stopped; in a handler RETPC is the address of the trapped
instruction itself (R336, R339). -/
def Sys2Proof.Spec.OwnTrapNests : Prop :=
  ∀ (s : State) c base ea, ¬ Spec.neverDelivered base ea →
    let k := s.core c
    let user := k.hl = 0 ∧ Spec.delegates k base = true ∧ k.uhvec ≠ 0
    let t := (s.trapOn c .ctrl base ea).core c
    let set := Spec.precise k.ctrl 3 base ea k.ctrl.pc
    k.ctrlEsc = false → k.ctrl.dbg ≠ .stopped → k.hl ≤ 2 →
    (user → t.hl = 1 ∧ t.trap1 = set ∧ t.entry1 = 0 ∧ t.ctrl.pc = k.uhvec ∧ t.ctrl.st = .running) ∧
    (¬ user → k.hl ≠ 2 → k.shvec ≠ 0 →
      t.hl = 2 ∧ t.trap2 = set ∧ t.entry2 = k.hl ∧ t.ctrl.pc = k.shvec ∧ t.ctrl.st = .running ∧ t.trap1 = k.trap1) ∧
    (¬ user → (k.hl = 2 ∨ k.shvec = 0) →
      t.hl = k.hl ∧ t.ctrl.st = .stopped ∧ t.ctrl.pc = k.ctrl.pc ∧ t.ctrlEsc = true ∧
        t.escal.length = k.escal.length + 1)

/-- Traps met while a handler runs (R336). -/
def Obligations.TrapNesting : Prop := Spec.TrapHeldWhileHandlerRuns ∧ Spec.OwnTrapNests

/-- ERET in a handler, with no trap held, leaves the level for the one it was entered from and continues at that set's RETPC;
CTRL that had stopped at a DPT takes up DRAIN_STOP again while drain is in force. Outside a handler it raises CONTROL_STATE
with sub-code 2 (R136, R338, R427). -/
def Sys2Proof.Spec.EretReturns : Prop :=
  ∀ (s : State), s.cur.2 = .ctrl → s.curStream.stores = [] →
    let k := s.curCore
    let set := if k.hl = 1 then k.trap1 else k.trap2
    let level := if k.hl = 1 then k.entry1 else k.entry2
    (k.hl = 0 → exec .eret s = .next (s.trapOn s.cur.1 .ctrl 0x06 2)) ∧
    (k.hl ≠ 0 → k.held = [] → exec .eret s = .next (s.modCore s.cur.1 fun k =>
      { k with hl := level,
               ctrl := { k.ctrl with
                 pc := set.retpc,
                 st := if level = 0 ∧ k.ctrl.at_ = true ∧ k.ctrl.dr = true then .drainStop else .running,
                 pend := .none, walk := none, ibuf := none } }))

/-- What stops a RESUME of a stream, with its sub-code (R137, Table 6.14): no handler, a stream that has not trapped, or
skipping an instruction whose length is not known. -/
def Sys2Proof.Spec.resumeBar (k : Core) (x : StreamId) (skip : Bool) : Option Word :=
  let cause := (if k.hl = 1 then k.trap1 else k.trap2).cause.toNat
  if k.hl = 0 then some 2
  else if x = .ctrl ∧ cause % 4 ≠ 3 ∨ x ≠ .ctrl ∧ (k.stream x).st ≠ .stopped then some 3
  else if skip = true ∧ (cause / 4 % 128 = 0x05 ∨ cause / 4 % 128 = 0x04) then some 5
  else none

/-- RESUME, guarded true, ends the stop of LOAD, EXEC or STORE at EPC, at s[A], or after the trapped instruction, at once; for
CTRL it sets RETPC, which takes effect at ERET. It raises CONTROL_STATE where R137 says, and MISALIGNED for an odd s[A]. -/
def Sys2Proof.Spec.ResumeResult : Prop :=
  ∀ (s : State) g x a, s.cur.2 = .ctrl → s.curStream.stores = [] → s.guard g = true →
    let k := s.curCore
    let set := if k.hl = 1 then k.trap1 else k.trap2
    let goes := fun (pc : VAddr) => (s.modStream s.cur.1 .ctrl fun v => { v with pc := s.nextPc }).modCore s.cur.1 fun k =>
      if x = .ctrl then
        if k.hl = 1 then { k with trap1 := { k.trap1 with retpc := pc } } else { k with trap2 := { k.trap2 with retpc := pc } }
      else k.setStream x { k.stream x with
        st := .running, pc := pc, pend := .none, walk := none, ibuf := none,
        dbg := if (k.stream x).dbg = .stopped then .off else (k.stream x).dbg }
    (∀ sub, Spec.resumeBar k x false = some sub →
      exec (.resumeRetry g x a) s = .next (s.trapOn s.cur.1 .ctrl 0x06 sub)) ∧
    (∀ sub, Spec.resumeBar k x true = some sub →
      exec (.resumeSkip g x) s = .next (s.trapOn s.cur.1 .ctrl 0x06 sub)) ∧
    (Spec.resumeBar k x false = none →
      exec (.resumeRetry g x 0) s = .next (goes set.epc) ∧
      (a ≠ 0 → (s.rs a).toNat % 2 = 0 → exec (.resumeRetry g x a) s = .next (goes (.ofNat 51 (s.rs a).toNat))) ∧
      (a ≠ 0 → (s.rs a).toNat % 2 = 1 →
        exec (.resumeRetry g x a) s = .next (s.trapOn s.cur.1 .ctrl 0x23 (.ofNat 64 ((s.rs a).toNat % 2 ^ 51))))) ∧
    (Spec.resumeBar k x true = none → exec (.resumeSkip g x) s = .next (goes (set.epc + .ofNat 51 set.len)))

/-- ERET and RESUME (R136, R137, R338, R427). -/
def Obligations.HandlerReturns : Prop := Spec.EretReturns ∧ Spec.ResumeResult

/-! ## NOP, TRAP, BKPT and the control registers (spec/06 R135, R138, R139) -/

/-- NOP does nothing; TRAP and BKPT, guarded true, raise SOFTWARE_TRAP (0x07) and BKPT (0x7C) precisely, with the immediate in
EADDR (R135). -/
def Obligations.NopTrapBkpt : Prop :=
  ∀ (s : State) g imm,
    (∃ t, exec (.nop g) s = .next t ∧ s.continues t s.nextPc) ∧
    (s.guard g = true →
      exec (.trap g imm) s = .next (s.trapOn s.cur.1 s.cur.2 0x07 (.ofNat 64 imm.toNat)) ∧
      exec (.bkpt g imm) s = .next (s.trapOn s.cur.1 s.cur.2 0x7C (.ofNat 64 imm.toNat)))

/-- CTRL runs a handler of at least a level. -/
def Sys2Proof.Spec.level (s : State) (l : Nat) : Bool := s.cur.2 == .ctrl && decide (l ≤ s.curCore.hl)

/-- The Access column of Table 6.12 for a read. -/
def Sys2Proof.Spec.csrReads (s : State) : Csr → Bool
  | .cause | .epc | .eaddr | .eword0 | .eword1 | .retpc | .dlwait0 | .dlwait1 | .dlwait2 | .dlwait3 => Spec.level s 1
  | .shvec => Spec.level s 2
  | _ => true

/-- The Access column of Table 6.12 for a write. -/
def Sys2Proof.Spec.csrWrites (s : State) : Csr → Bool
  | .rmode | .loopit | .gmode | .pqdepth | .uhvec => true
  | .retpc => Spec.level s 1
  | .udeleg0 | .udeleg1 | .shvec => Spec.level s 2
  | _ => false

/-- The number of a CSR (Table 6.12). -/
def Sys2Proof.Spec.csrNumber : Csr → Nat
  | .status => 0x000 | .rmode => 0x001 | .loopit => 0x002 | .drained => 0x003
  | .role => 0x010 | .gsize => 0x011 | .taskid => 0x012 | .kernid => 0x013 | .member => 0x014
  | .gmode => 0x020 | .pqdepth => 0x021
  | .cause => 0x030 | .epc => 0x031 | .eaddr => 0x032 | .eword0 => 0x033 | .eword1 => 0x034 | .retpc => 0x035
  | .dlwait0 => 0x038 | .dlwait1 => 0x039 | .dlwait2 => 0x03A | .dlwait3 => 0x03B
  | .uhvec => 0x040 | .udeleg0 => 0x041 | .udeleg1 => 0x042 | .shvec => 0x080

/-- What a CSR reads as, by the layout its row of Table 6.12 names; the trap CSRs are those of CTRL's level (R131, R133, R138,
R139, R214, R332, R334, R335). -/
def Sys2Proof.Spec.csrValue (s : State) : Csr → Nat :=
  let k := s.curCore
  let v := s.curStream
  let set := if k.hl = 1 then k.trap1 else k.trap2
  let ofTask := fun (f : Task → Nat) => (k.task.map f).getD 0
  let busy := fun (p : Pump) => match p with
    | .running _ _ _ => 1
    | _ => 0
  fun
  | .status => Spec.code s.cur.2 + (if s.cur.2 = .ctrl then k.hl % 4 * 4 else 0) + v.dr.toNat * 16
  | .rmode => v.rmode.toNat
  | .loopit => v.loopit.toNat
  | .drained => v.dr.toNat + v.cl.toNat * 2 + v.at_.toNat * 4 + v.hs.toNat * 8
  | .role => ofTask fun t => t.role
  | .gsize => ofTask fun t => t.gsize
  | .taskid => ofTask fun t => t.key.seq.toNat * 2 ^ 32 + t.key.queue.toNat * 2 ^ 12 + t.key.node.toNat
  | .kernid => ofTask fun t => t.tag.toNat * 2 ^ 32 + t.image.toNat
  | .member => ofTask fun t => t.member.toNat
  | .gmode => k.gmode.toNat
  | .pqdepth => k.pqlim.toNat + (k.pumpq.length + busy k.pump0 + busy k.pump1) % 32 * 2 ^ 8
  | .cause => set.cause.toNat
  | .epc => set.epc.toNat
  | .eaddr => set.eaddr.toNat
  | .eword0 => set.eword0.toNat
  | .eword1 => set.eword1.toNat
  | .retpc => set.retpc.toNat
  | .dlwait0 => k.dlwait[0].toNat
  | .dlwait1 => k.dlwait[1].toNat
  | .dlwait2 => k.dlwait[2].toNat
  | .dlwait3 => k.dlwait[3].toNat
  | .uhvec => k.uhvec.toNat
  | .udeleg0 => k.udeleg0.toNat
  | .udeleg1 => k.udeleg1.toNat
  | .shvec => k.shvec.toNat

/-- A value that would set a reserved bit of a CSR, or that its page refuses: RMODE and GMODE above 3, a queue limit above 16,
an odd or out-of-range handler or return address (R75, R138, R214, R241, R335). -/
def Sys2Proof.Spec.csrRefuses (c : Csr) (v : Nat) : Bool :=
  match c with
  | .rmode | .gmode => decide (4 ≤ v)
  | .pqdepth => decide (16 < v % 32) || decide (v / 32 % 8 ≠ 0) || decide (2 ^ 13 ≤ v)
  | .retpc | .uhvec | .shvec => decide (v % 2 = 1) || decide (2 ^ 51 ≤ v)
  | _ => false

/-- The state once an allowed write of a CSR is done: bits that do not exist ignore it (R335). -/
def Sys2Proof.Spec.csrSet (s : State) (c : Csr) (v : Word) : State :=
  match c with
  | .rmode => s.modStream s.cur.1 s.cur.2 fun t => { t with rmode := .ofNat 2 v.toNat }
  | .loopit => s.modStream s.cur.1 s.cur.2 fun t => { t with loopit := v }
  | .gmode => s.modCore s.cur.1 fun k => { k with gmode := .ofNat 2 v.toNat }
  | .pqdepth => s.modCore s.cur.1 fun k => { k with pqlim := .ofNat 5 v.toNat }
  | .retpc => s.modCore s.cur.1 fun k =>
    if k.hl = 1 then { k with trap1 := { k.trap1 with retpc := .ofNat 51 v.toNat } }
    else { k with trap2 := { k.trap2 with retpc := .ofNat 51 v.toNat } }
  | .uhvec => s.modCore s.cur.1 fun k => { k with uhvec := .ofNat 51 v.toNat }
  | .shvec => s.modCore s.cur.1 fun k => { k with shvec := .ofNat 51 v.toNat }
  | .udeleg0 => s.modCore s.cur.1 fun k => { k with udeleg0 := v &&& 0xFFFFFFFBFFFFFFFF }
  | .udeleg1 => s.modCore s.cur.1 fun k => { k with udeleg1 := v &&& 0xF000FFFFFFFFFFFF }
  | _ => s

/-- CSRR, CSRW and CSRX, guarded true, read and write the CSR where the Access column allows it and no reserved bit would be
set, CSRX giving s[D] the old value; else they raise PRIVILEGE with the CSR's number, or RESERVED_FIELD, and change nothing
(R138, Table 6.12). -/
def Obligations.CsrResult : Prop :=
  ∀ (s : State) g d a c, s.guard g = true →
    let old : Word := .ofNat 64 (Spec.csrValue s c)
    let new := s.rs a
    let privilege := s.trapOn s.cur.1 s.cur.2 0x78 (.ofNat 64 (Spec.csrNumber c))
    let reserved := s.trapOn s.cur.1 s.cur.2 0x02 (.ofNat 64 s.pc.toNat)
    (exec (.csrr g d c) s = .next (if Spec.csrReads s c then (s.ws d old).goto s.nextPc else privilege)) ∧
    (exec (.csrw g c a) s = .next (
      if !Spec.csrWrites s c then privilege
      else if Spec.csrRefuses c new.toNat then reserved
      else (Spec.csrSet s c new).goto s.nextPc)) ∧
    (exec (.csrx g d c a) s = .next (
      if !(Spec.csrReads s c && Spec.csrWrites s c) then privilege
      else if Spec.csrRefuses c new.toNat then reserved
      else ((Spec.csrSet s c new).ws d old).goto s.nextPc))

/-! ## Loads, stores and tags (spec/02 R41 to R58, spec/09 R190 to R206) -/

/-- (s[BASE] + sext(OFF)) mod 2^51 (R190). -/
def Sys2Proof.Spec.ea (s : State) (base : SReg) (off : BitVec 24) : VAddr := .ofInt 51 ((s.rs base).toInt + off.toInt)

/-- Unit u of a tile instruction: EA + u times the stride, mod 2^51; stride register 0 means the dense stride (R190). -/
def Sys2Proof.Spec.unitVa (s : State) (base str : SReg) (off : BitVec 24) (dense u : Nat) : VAddr :=
  .ofInt 51 ((s.rs base).toInt + off.toInt + (if str = 0 then (dense : Int) else (s.rs str).toInt) * u)

/-- What one access of a stream needs: size, alignment, read or write, planed or not. -/
def Sys2Proof.Spec.access (s : State) (kind : AccKind) (size : Nat) (planed u64 : Bool) : UnitAcc :=
  { c := s.cur.1, x := ⟨s.curCore.partId, s.curCore.pasid, s.cur.2 == .ctrl && s.curCore.hl == 2, kind⟩, size := size,
    align := size, planed := planed, engine := false, u64 := u64 }

/-- The lowest-numbered aperture of a partition whose range holds a virtual byte (R55). -/
def Sys2Proof.Spec.governs (s : State) (p : PartId) (va : Nat) : Option (Fin 64) :=
  (List.finRange 64).find? fun i => match (s.part p).apert[i] with
    | some q => decide (q.vbase ≤ va ∧ va < q.vbase + q.vsize)
    | none => false

/-- The checks of one access in the order of Table 9.2: alignment first; then the local window, which is never translated, and
LOCAL_RANGE beyond the cistern; then the apertures: APERTURE_VIOLATION where one boundary is crossed, and for a write or a planed
access through a PLANES aperture, and an access that an aperture governs goes to its buffer, past the page tables and the TLB;
then, outside every aperture, the TLB, whose entry gives a place in the device's own memory and whose miss starts a page walk
(R41, R42, R52, R55 to R58, R192). -/
def Obligations.AddressCheckOrder : Prop :=
  ∀ (s : State) (a : UnitAcc) (va : VAddr), 0 < a.size → a.size ≤ 512 → a.engine = false → 0 < a.align →
    (va.toNat % a.align ≠ 0 → s.checkUnit a va = .fault 0x23 va) ∧
    (va.toNat % a.align = 0 → 0x7FFFFFC000000 ≤ va.toNat → va.toNat + a.size ≤ 0x7FFFFFC200000 →
      s.checkUnit a va = .ok (.cistern (va.toNat - 0x7FFFFFC000000))) ∧
    (va.toNat % a.align = 0 → 0x7FFFFFC200000 ≤ va.toNat → s.checkUnit a va = .fault 0x26 va) ∧
    (va.toNat % a.align = 0 → va.toNat < 0x7FFFFFC000000 →
      let gov := Spec.governs s a.x.part
      (gov va.toNat ≠ gov (va.toNat + a.size - 1) → s.checkUnit a va = .fault 0x24 va) ∧
      (∀ i q, gov va.toNat = some i → gov (va.toNat + a.size - 1) = some i → (s.part a.x.part).apert[i] = some q →
        let x := va.toNat - q.vbase
        (q.xf = .zero → s.checkUnit a va = .ok .zero) ∧
        (q.xf = .identity → ∀ t, s.stage2 a.x.part a.x.kind false (q.pbase + x) = .ok t → inDram t.pa = true →
          s.checkUnit a va = .ok (.phys t.pa)) ∧
        (∀ n rn1, q.xf = (if rn1 then .rn1 n else .trunc n) →
          (a.x.kind = .write ∨ a.planed = true → s.checkUnit a va = .fault 0x24 va) ∧
          (a.x.kind ≠ .write → a.planed = false → 0 < n → ∀ f : Nat → Nat,
            (∀ b, x / n / 128 ≤ b → b ≤ (x + a.size - 1) / n / 128 → inDram (f b) = true ∧
              ∃ t, s.stage2 a.x.part a.x.kind false (q.pbase + 512 * b) = .ok t ∧ t.pa = f b) →
            ∃ blocks, s.checkUnit a va = .ok (.planes x n rn1 blocks) ∧
              ∀ b pa, (b, pa) ∈ blocks ↔ x / n / 128 ≤ b ∧ b ≤ (x + a.size - 1) / n / 128 ∧ pa = f b)))) ∧
    (va.toNat % a.align = 0 → va.toNat < 0x7FFFFFC000000 →
      (∀ q, some q ∈ (s.part a.x.part).apert.toList → va.toNat + a.size ≤ q.vbase ∨ q.vbase + q.vsize ≤ va.toNat) →
      (∀ pa, (s.core a.c).tlbFind a.x va.toNat = some pa → inDram pa = true → s.checkUnit a va = .ok (.phys pa)) ∧
      ((s.core a.c).tlbFind a.x va.toNat = none → s.checkUnit a va = .miss va))

/-- The scalar loads: guard, target, base, offset, bytes, signed (Table 9.1). -/
def Sys2Proof.Spec.scalarLoad : Instr → Option (Guard × SReg × SReg × BitVec 24 × Nat × Bool)
  | .ldsU8 g t b o => some (g, t, b, o, 1, false)
  | .ldsU16 g t b o => some (g, t, b, o, 2, false)
  | .ldsU32 g t b o => some (g, t, b, o, 4, false)
  | .ldsU64 g t b o => some (g, t, b, o, 8, false)
  | .ldsI8 g t b o => some (g, t, b, o, 1, true)
  | .ldsI16 g t b o => some (g, t, b, o, 2, true)
  | .ldsI32 g t b o => some (g, t, b, o, 4, true)
  | _ => none

/-- The scalar stores: guard, source, base, offset, bytes (Table 9.1). -/
def Sys2Proof.Spec.scalarStore : Instr → Option (Guard × SReg × SReg × BitVec 24 × Nat)
  | .stsU8 g t b o => some (g, t, b, o, 1)
  | .stsU16 g t b o => some (g, t, b, o, 2)
  | .stsU32 g t b o => some (g, t, b, o, 4)
  | .stsU64 g t b o => some (g, t, b, o, 8)
  | _ => none

/-- LDS in its seven forms, guarded true, with its address checked, waits for its data and changes nothing else; STS in its four
forms enters the low bytes of its scalar, little-endian, in its stream's store queue and goes on; no byte of memory changes at
issue. Either raises the cause its address check finds, with the failing address, or POISON_CONSUMED where the walk met poison,
with its record; it starts a page walk on a miss, and waits for a page of host memory that is still to be asked for (R192, R201,
R202, R369, R408). Monitoring banks see the request (R414). -/
def Sys2Proof.Spec.ScalarAccessIssues : Prop :=
  ∀ s : State,
    let c := s.cur.1
    let x := s.cur.2
    let seq := s.curCore.seq
    let turnedAway := fun (i : Instr) (va : VAddr) (write : Bool) (r : UnitRes) =>
      (∀ cause ea, r = .fault cause ea →
        exec i s = .next ((s.dropAnswers c cause).trapOn c x cause (.ofNat 64 ea.toNat))) ∧
      (∀ ea pa, r = .poison ea pa →
        exec i s = .next ((s.coreRecord 3 c pa s.pc 0).trapOn c x 0x71 (.ofNat 64 ea.toNat))) ∧
      (r = .miss va → exec i s = .next
        ((s.modStream c x fun v => { v with walk := some ⟨va, write, none⟩, again := true }).sketch 6 c s.pc 1)) ∧
      (∀ page, r = .pri page → exec i s = .next
        (s.modStream c x fun v => { v with walk := some ⟨va, write, some page⟩, again := true }))
    (∀ i g t b o n sg, Spec.scalarLoad i = some (g, t, b, o, n, sg) → s.guard g = true →
      let va := Spec.ea s b o
      let a := Spec.access s .read n false (n == 8)
      (∀ l, s.checkUnit a va = .ok l → exec i s = .next
        (((s.requests c s.pc (.lds c x seq) [unitReq false false ⟨va, l⟩ [(0, n)]]).modCore c fun k => { k with seq := seq + 1 }).waitOn c x
          .running (.lds ⟨seq, t, n, sg, ⟨va, l⟩⟩))) ∧
      turnedAway i va false (s.checkUnit a va)) ∧
    (∀ i g t b o n, Spec.scalarStore i = some (g, t, b, o, n) → s.guard g = true →
      let va := Spec.ea s b o
      let a := Spec.access s .write n false (n == 8)
      let bytes := (List.range n).map fun j => (.ofNat 8 ((s.rs t).toNat / 256 ^ j) : Byte)
      (∀ l, s.checkUnit a va = .ok l → exec i s = .next
        (((s.requests c s.pc (.store c x seq) [unitReq true false ⟨va, l⟩ [(0, n)]]).modCore c fun k =>
          { k with seq := seq + 1 }).modStream c x fun v =>
          { v with stores := v.stores ++ [⟨seq, .sts bytes, [⟨va, l⟩], s.pc⟩], pc := s.nextPc })) ∧
      turnedAway i va true (s.checkUnit a va))

/-- SCALAR_LOAD_RETURN of an LDS from the cistern whose stream has no accesses waiting writes the little-endian bytes, zero- or
sign-extended, to its target, and the stream goes on; a poisoned granule raises POISON_CONSUMED with the address and writes
nothing, with the poisoned byte in the error record; so does an uncorrectable error, which poisons the granule it meets, as a fetch
sees it too, and has a record of its own (R201, R401, R408). -/
def Sys2Proof.Spec.ScalarLoadReturns : Prop :=
  ∀ (s : State) c x seq t n sg va off, x ≠ .ctrl → (s.core c).gated = false → Spec.quietOn s c x →
    (s.stream c x).pend = .lds ⟨seq, t, n, sg, ⟨va, .cistern off⟩⟩ →
    let v := ((List.range n).map fun j => ((s.core c).cistern.bytes.read (off + j)).toNat * 256 ^ j).sum
    let bad := (s.core c).cistern.badRange off n
    let first := ((List.range n).find? fun i => (s.core c).cistern.badRange (off + i) 1).getD 0
    (bad = false → exec (.scalarLoadReturn c x false) s = .next ((s.modCore c fun k => k.writeS x t
      (if sg then (BitVec.ofNat (8 * n) v).signExtend 64 else .ofNat 64 v)).finishOn c x)) ∧
    (∀ err, bad = true ∨ err = true → ∃ u, exec (.scalarLoadReturn c x err) s = .next u ∧
      (u.core c).readS x = (s.core c).readS x ∧ s.memSame u ∧
      let met := if bad then s else
        (s.modCore c fun k => { k with
          cistern := k.cistern.mark (off / 64) true,
          codeView := k.codeView.map fun (m : PoisonMem) => m.mark (off / 64) true }).coreRecord 6 c 0 (s.stream c x).pc 0
      u = ((met.waitOn c x .running .none).coreRecord 3 c (0x7FFFFFC000000 + (off + first)) (s.stream c x).pc 0).trapOn c x 0x71
        (.ofNat 64 va.toNat))

/-- The poison of the granules after clean bytes have been written to a run: a granule they cover wholly is clean, every other
granule keeps its poison (R403). -/
def Sys2Proof.Spec.cleaned (old new : PoisonMem) (at_ n : Nat) : Prop :=
  ∀ g, new.bad g = if at_ ≤ 64 * g ∧ 64 * g + 64 ≤ at_ + n then false else old.bad g

/-- SCALAR_STORE_PERFORMED performs the oldest store of a stream, an STS: in the cistern and in the device's own memory its bytes
stand at its address and every other byte reads as before; the granules keep their poison, but for one that the bytes cover
wholly; the store leaves the queue and nothing else changes (R202, R403). A load that LOAD issued before it has read its bytes
(Table 12.5). -/
def Sys2Proof.Spec.ScalarStorePerforms : Prop :=
  ∀ (s : State) c x seq bytes va pc rest, (s.core c).gated = false →
    (x = .load → ∀ r ∈ (s.core c).loads, r.seq < seq → r.buf.isSome = true) →
    let p := s.corePart c
    let popped := s.modStream c x fun v => { v with stores := rest }
    (∀ off, (s.stream c x).stores = ⟨seq, .sts bytes, [⟨va, .cistern off⟩], pc⟩ :: rest →
      ∃ m, exec (.scalarStorePerformed c x) s = .next (popped.modCore c fun k => { k with cistern := m }) ∧
        Spec.cleaned (s.core c).cistern m off bytes.length ∧
        ∀ a, m.bytes.read a = if off ≤ a ∧ a < off + bytes.length then bytes.getD (a - off) 0
          else (s.core c).cistern.bytes.read a) ∧
    (∀ pa, (s.stream c x).stores = ⟨seq, .sts bytes, [⟨va, .phys pa⟩], pc⟩ :: rest →
      (∀ a, pa ≤ a → a < pa + bytes.length → inDram a = true) →
      ∃ m, exec (.scalarStorePerformed c x) s = .next { popped with gmem := m } ∧
        Spec.cleaned s.gmem.mem m.mem pa bytes.length ∧
        ∀ a, { popped with gmem := m }.readByte p a =
          if pa ≤ a ∧ a < pa + bytes.length then bytes.getD (a - pa) 0 else s.readByte p a)

/-- Scalar loads and stores from issue to their completion (R201, R202). -/
def Obligations.ScalarAccess : Prop := Spec.ScalarAccessIssues ∧ Spec.ScalarLoadReturns ∧ Spec.ScalarStorePerforms

/-- The tile loads: guard, destination, planes with their rounding for a planed load, and the addresses of the units in order:
32 rows, or the blocks of the planes (Table 9.1, R190, R195). -/
def Sys2Proof.Spec.tileLoad (s : State) : Instr → Option (Guard × TDst × Option (Nat × Bool) × List VAddr)
  | .tld g d b str o => some (g, d, none, (List.range 32).map (Spec.unitVa s b str o 128))
  | .tldp g d n rn1 b str o =>
    some (g, d, some (n.toNat + 1, rn1),
      (List.range (match n.toNat with
        | 0 => 32
        | 1 => 16
        | 2 => 10
        | _ => 8)).map (Spec.unitVa s b str o 512))
  | _ => none

/-- TLD and TLDP, guarded true, with every unit checked and a destination that may be written, reserve it, enter the loads in
flight and go on: the tile keeps its value until the load completes; one that may not be written yet holds the stream in
COUNT_WAIT with nothing reserved (R192, R193, R196, R20, R21). -/
def Sys2Proof.Spec.TileLoadIssues : Prop :=
  ∀ (s : State) i g d planed vas units, Spec.tileLoad s i = some (g, d, planed, vas) → s.guard g = true →
    let c := s.cur.1
    let x := s.cur.2
    let size := if planed.isSome then 512 else 128
    s.checkUnits (Spec.access s .read size planed.isSome false) vas = .ok units →
    let n := s.curCore.cnt (.tile d.reg)
    n.bad = false →
    (((n.p = 0 ∨ n.opn = true) ∧ n.rsv = false) →
      exec i s = .next ((((s.modCore c fun k => k.handOn x [.tile d.reg]).requests c s.pc (.load c s.curCore.seq)
        (units.map (loadReq planed))).modCore c fun k =>
        { k.setCnt (.tile d.reg) { n with rsv := true } with
          seq := k.seq + 1, loads := k.loads ++ [⟨k.seq, d.reg, d.rdr, planed, units, none, s.pc⟩] }).finishOn c x)) ∧
    (¬ ((n.p = 0 ∨ n.opn = true) ∧ n.rsv = false) →
      exec i s = .next (s.waitOn c x .countWait (.dst (.tile d.reg) d.rdr [] (.load planed units))))

/-- The byte at a place of the cistern or of the device's own memory, as a core's task reads it. -/
def Sys2Proof.Spec.byteAt (s : State) (c : CoreId) : Loc → Byte
  | .cistern off => (s.core c).cistern.bytes.read off
  | .phys pa => s.readByte (s.corePart c) pa
  | _ => 0

/-- The 64-byte granule of the byte at a place is poisoned. -/
def Sys2Proof.Spec.badAt (s : State) (c : CoreId) : Loc → Bool
  | .cistern off => (s.core c).cistern.bad (off / 64)
  | .phys pa => s.gmem.mem.bad (pa / 64)
  | _ => false

/-- Places in the cistern or in the device's own memory that a load may read: aligned as R58 asks, whole. -/
def Sys2Proof.Spec.readable (n : Nat) : Loc → Prop
  | .cistern off => off % n = 0 ∧ off + n ≤ 0x200000
  | .phys pa => pa % n = 0 ∧ inDram pa = true ∧ inDram (pa + n - 1) = true
  | _ => False

/-- Element i of the block of planed storage at a place, on n planes: plane 0 is the most significant, TRUNC; RN1 rounds it on
plane n, away from zero at half and more, never to an infinity (R71, R72). -/
def Sys2Proof.Spec.planeElem (s : State) (c : CoreId) (l : Loc) (n : Nat) (rn1 : Bool) (i : Nat) : Nat :=
  let byte := fun k => (Spec.byteAt s c (l.plus (128 * k + i))).toNat
  let v := ((List.range n).map fun k => byte k * 256 ^ (n - 1 - k)).sum
  let mag := v % 2 ^ (8 * n - 1) + 1
  let top := fun m => m / 2 ^ (8 * n - 6) % 32
  if rn1 = false ∨ top v = 31 ∨ byte n < 0x80 then v
  else v / 2 ^ (8 * n - 1) * 2 ^ (8 * n - 1) + (if top mag = 31 then 31 * 2 ^ (8 * n - 6) - 1 else mag)

/-- TILE_LOAD_COMPLETE of a load whose units lie in the cistern or in the device's own memory. After a TLD byte j of row r of the
tile is byte j of that row's place, where none of the row's granules is poisoned; a row with a poisoned granule is poisoned, and
its bytes are free. After a TLDP on n planes byte j of the tile is byte j mod n of element j / n, the elements taken 128 from each
block, and 0 past the last block; a row is poisoned where a granule read for an element with a byte in it is. Either way the
count advances with the readers the load declares and the reservation is released; every other tile and every byte of memory stay
(R193, R196, R71, R72, R20). No other load of LOAD waits to be read before it, nor a store. -/
def Sys2Proof.Spec.TileLoadCompletes : Prop :=
  ∀ (s : State) c seq d rdr planed units pc, (s.core c).gated = false →
    (s.stream c .load).stores = [] →
    (s.core c).loads = [⟨seq, d, rdr, planed, units, none, pc⟩] →
    (∀ u ∈ units, Spec.readable (if planed.isSome then 512 else 128) u.loc) →
    (∀ n rn1, planed = some (n, rn1) → 1 ≤ n ∧ n ≤ 4 ∧ (rn1 = true → n < 4)) →
    units.length = (match planed with
      | some (2, _) => 16
      | some (3, _) => 10
      | some (4, _) => 8
      | _ => 32) →
    ∃ t, exec (.tileLoadComplete c 0 false) s = .next t ∧
      let tile := (t.core c).tiles[d.toNat]
      let old := (s.core c).tiles[d.toNat]
      let at_ := fun (i : Nat) => ((units[i]?).map (·.loc)).getD .zero
      (planed = none → ∀ (r : Fin 32) (j : Fin 128),
        tile.poison[r] = (Spec.badAt s c (at_ r) || Spec.badAt s c ((at_ r).plus 64)) ∧
        (tile.poison[r] = false →
          tile.val.extractLsb' (8 * (128 * r.val + j.val)) 8 = Spec.byteAt s c ((at_ r).plus j))) ∧
      (∀ n rn1, planed = some (n, rn1) → ∀ r : Fin 32,
        (∀ j : Fin 128,
          let e := (128 * r.val + j.val) / n
          tile.val.extractLsb' (8 * (128 * r.val + j.val)) 8 =
            if e / 128 < units.length then
              .ofNat 8 (Spec.planeElem s c (at_ (e / 128)) n rn1 (e % 128) / 256 ^ ((128 * r.val + j.val) % n))
            else 0) ∧
        (tile.poison[r] = true ↔ ∃ (j : Fin 128) (k : Nat),
          let e := (128 * r.val + j.val) / n
          k < (if rn1 then n + 1 else n) ∧ e / 128 < units.length ∧
            Spec.badAt s c ((at_ (e / 128)).plus (128 * k + e % 128)) = true)) ∧
      tile.cnt = ⟨old.cnt.c + 1, if rdr = 7 then 0 else rdr, decide (rdr = 7), false, old.cnt.bad⟩ ∧
      (∀ e : TReg, e ≠ d → (t.core c).tiles[e.toNat] = (s.core c).tiles[e.toNat]) ∧
      (t.core c).loads = [] ∧ s.memSame t

/-- Tile loads from issue to their completion (R193, R196). -/
def Obligations.TileLoads : Prop := Spec.TileLoadIssues ∧ Spec.TileLoadCompletes

/-- TST and TSTP, guarded true, with every unit checked and every counted source ready, take the values of their sources and
debit them, enter the store in the stream's queue and go on; no byte of memory changes at issue (R192, R194, R197, R24; the
counter of free values is the model's own, assumption log 7). -/
def Sys2Proof.Spec.TileStoreIssues : Prop :=
  ∀ (s : State) (g : Guard) (a : TSrc) (b str : SReg) (o : BitVec 24) (n : BitVec 2) (cm : Option TSrc), s.guard g = true →
    let c := s.cur.1
    let x := s.cur.2
    let enters := fun (srcs : List SrcRef) (d : StoreData) (units : List MemUnit) =>
      ((((({ s with fresh := s.fresh + srcs.length }.modCore c fun (k : Core) => k.debitAll x srcs).requests c s.pc
        (.store c x s.curCore.seq) (d.reqs units)).modCore c fun k => { k with seq := k.seq + 1 }).modStream c x fun (v : Stream) =>
        { v with stores := v.stores ++ [(⟨s.curCore.seq, d, units, s.pc⟩ : StoreRec)] }).finishOn c x)
    (∀ units, s.checkUnits (Spec.access s .write 128 false false) ((List.range 32).map (Spec.unitVa s b str o 128)) = .ok units →
      (∀ u ∈ units, u.loc.isHost = false) → s.curCore.evalSources [s.tsrc a] = .ready →
      ∃ val p, captureAll s c [s.tsrc a] = [.tile val p] ∧
        exec (.tst g a b str o) s = .next (enters [s.tsrc a] (.tst val p) units)) ∧
    (∀ units, s.checkUnits (Spec.access s .write 512 true false) ((List.range (match n.toNat with
        | 0 => 32
        | 1 => 16
        | 2 => 10
        | _ => 8)).map (Spec.unitVa s b str o 512)) = .ok units →
      let srcs := s.tsrc a :: cm.toList.map s.tsrc
      (∀ u ∈ units, u.loc.isHost = false) → conflictIn srcs = none → s.curCore.evalSources srcs = .ready →
      ∃ val p m, (captureAll s c srcs)[0]? = some (.tile val p) ∧
        (∀ k ∈ cm, ∃ w q, (captureAll s c srcs)[1]? = some (.tile w q) ∧ m = w.extractLsb' 0 32) ∧
        (cm = none → m = BitVec.allOnes 32) ∧
        exec (.tstp g a n cm b str o) s = .next (enters srcs (.tstp val p (n.toNat + 1) m) units))

/-- TILE_STORE_PERFORMED performs the oldest store of a stream, a TST or TSTP, its units in order, and takes it off the queue.
Of a TST whose rows lie apart in the cistern, each 128-byte aligned, byte j of row r stands at that row's place, and the granules
of that place take the row's poison; every other byte of the cistern and all of global memory read as before, and every other
granule keeps its poison (R194, R403). A load that LOAD issued before it has read its bytes (Table 12.5). -/
def Sys2Proof.Spec.TileStorePerforms : Prop :=
  ∀ (s : State) c x seq pc rest, (s.core c).gated = false →
    (x = .load → ∀ r ∈ (s.core c).loads, r.seq < seq → r.buf.isSome = true) →
    (∀ val p n m units, (s.stream c x).stores = ⟨seq, .tstp val p n m, units, pc⟩ :: rest →
      exec (.tileStorePerformed c x) s = .next ((s.modStream c x fun v => { v with stores := rest }).storeAll c
        ⟨seq, .tstp val p n m, units, pc⟩)) ∧
    (∀ val poison (rows : Fin 32 → VAddr × Nat), (∀ r r' : Fin 32, r ≠ r' → (rows r).2 + 128 ≤ (rows r').2 ∨
        (rows r').2 + 128 ≤ (rows r).2) →
      (s.stream c x).stores =
        ⟨seq, .tst val poison, (List.finRange 32).map fun r => ⟨(rows r).1, .cistern (rows r).2⟩, pc⟩ :: rest →
      ∃ m, exec (.tileStorePerformed c x) s =
          .next ((s.modStream c x fun v => { v with stores := rest }).modCore c fun k => { k with cistern := m }) ∧
        (∀ (r : Fin 32) (j : Fin 128), m.bytes.read ((rows r).2 + j.val) = val.extractLsb' (8 * (128 * r.val + j.val)) 8) ∧
        ((∀ r, (rows r).2 % 128 = 0) → (∀ r, m.bad ((rows r).2 / 64) = poison[r] ∧ m.bad ((rows r).2 / 64 + 1) = poison[r]) ∧
          ∀ g, (∀ r : Fin 32, g ≠ (rows r).2 / 64 ∧ g ≠ (rows r).2 / 64 + 1) → m.bad g = (s.core c).cistern.bad g) ∧
        ∀ a, (∀ r : Fin 32, a < (rows r).2 ∨ (rows r).2 + 128 ≤ a) → m.bytes.read a = (s.core c).cistern.bytes.read a)

/-- Tile stores from issue to their completion (R194, R197). -/
def Obligations.TileStores : Prop := Spec.TileStoreIssues ∧ Spec.TileStorePerforms

/-- PAGE_WALK_COMPLETE ends a stream's walk: with an entry in both TLBs after a walk that found the page, after which the
instruction is checked again; with the entry of the second-level TLB where that serves it; or with the fault the walk met, at
the address that was walked, POISON_CONSUMED with its record where an entry was poisoned; it waits while a MIGRATE moves a page
of the tables; under an aperture nothing is walked, and the access is checked again once no MIGRATE moves its buffer (R55, R192,
R353, R356, R365, R408). PRI_RESPONSE keeps the host's answer for a page and lets those who asked for it go on (R369), but for the
streams of a core whose clocks stand, whose state stays as it is (R412). -/
def Obligations.WalkAndPageAnswer : Prop :=
  ∀ (s : State),
    (∀ c x useL2 wide w, (s.core c).gated = false → (s.stream c x).walk = some w → w.pri = none →
      let q : TransCtx := ⟨(s.core c).partId, (s.core c).pasid, x == .ctrl && (s.core c).hl == 2, if w.write then .write else .read⟩
      let done := s.modStream c x fun v => { v with walk := none }
      (Spec.governs s q.part w.va.toNat ≠ none → exec (.pageWalkComplete c x useL2 wide false) s =
        .next (if s.movingIpa q.part then s else done)) ∧
      (Spec.governs s q.part w.va.toNat = none → s.blockedPage q.part q.pasid w.va.toNat = false →
      let cached := (s.l2Of c).find? fun e => e.serves q w.va.toNat
      (∀ e, useL2 = true → cached = some e →
        exec (.pageWalkComplete c x useL2 wide false) s = .next (done.modCore c fun k => { k with tlb := tlbInsert 512 k.tlb e })) ∧
      ((useL2 = false ∨ cached = none) →
        (∀ r, s.walk q w.va.toNat = .ok r →
          exec (.pageWalkComplete c x useL2 wide false) s = .next (done.fillTlb c (tlbOf q w.va.toNat r wide))) ∧
        (∀ cause, s.walk q w.va.toNat = .fault cause →
          exec (.pageWalkComplete c x useL2 wide false) s =
            .next (done.trapOn c x cause (.ofNat 64 w.va.toNat))) ∧
        (∀ pa, s.walk q w.va.toNat = .poison pa →
          exec (.pageWalkComplete c x useL2 wide false) s =
            .next ((done.coreRecord 3 c pa (s.stream c x).pc 0).trapOn c x 0x71 (.ofNat 64 w.va.toNat))) ∧
        (s.walk q w.va.toNat = .blocked → exec (.pageWalkComplete c x useL2 wide false) s = .next s)))) ∧
    (∀ p pasid page ok, ∃ t, exec (.priResponse p pasid page ok) s = .next t ∧
      (∀ e : AtsEntry, e ∈ t.ats ↔ e = ⟨p, pasid, page, ok⟩ ∨ e ∈ s.ats ∧ ¬ (e.part = p ∧ e.pasid = pasid ∧ e.page = page)) ∧
      ∀ c x, (t.stream c x).walk =
        if (s.core c).gated = false ∧ (s.core c).partId = p ∧ (s.core c).pasid = pasid ∧ (match (s.stream c x).walk with | some w => w.pri == some page | none => false) = true then none
        else (s.stream c x).walk)

/-- The word LOOKUP writes (R204): the lowest entry that holds the tag with its attributes, else the lowest free one with bit 63,
else bits 63 and 62. -/
def Sys2Proof.Spec.lookup (k : Core) (tag : Nat) : Word :=
  let at_ := fun (i : Nat) => ((k.tags[i]?).getD 0).toNat
  match (List.range 512).find? fun i => decide (at_ i / 2 ^ 39 % 2 = 1) && decide (at_ i % 2 ^ 39 = tag) with
  | some i => .ofNat 64 (i + at_ i / 2 ^ 40 % 2 * 2 ^ 16 + at_ i / 2 ^ 41 % 2 * 2 ^ 17 + at_ i / 2 ^ 42 % 2 ^ 6 * 2 ^ 18)
  | none => match (List.range 512).find? fun i => decide (at_ i / 2 ^ 39 % 2 = 0) with
    | some i => .ofNat 64 (2 ^ 63 + i)
    | none => .ofNat 64 (2 ^ 63 + 2 ^ 62)

/-- The word PROBE writes (R206): the lowest matching entry, whether any matches, and how many do, the lowest bits of the tag left
out of the comparison. -/
def Sys2Proof.Spec.probe (k : Core) (tag range : Nat) : Word :=
  let hits := (List.range 512).filter fun i =>
    let e := ((k.tags[i]?).getD 0).toNat
    decide (e / 2 ^ 39 % 2 = 1) && decide (e % 2 ^ 39 / 2 ^ range = tag / 2 ^ range)
  .ofNat 64 (hits.headD 0 + (if hits = [] then 0 else 2 ^ 9) + hits.length * 2 ^ 16)

/-- LOOKUP and PROBE, guarded true, write their word to s[T] and change nothing else; TAGSET and TAGINV change one entry of the tag
table, and nothing else but the program counter: they raise TAG_INDEX with an index of 512 or more, and TAGSET raises
RESERVED_FIELD for a value with reserved bits (R203 to R206). Each takes its turn among the tag operations of its cycle, which are
performed in stream-code order (R44; the note of it in the state is the model's own, assumption log 5). -/
def Obligations.TagInstructions : Prop :=
  ∀ (s : State) g t b o range, s.guard g = true →
    let tag := (Spec.ea s b o).toNat / 2 ^ 12
    let i : Word := .ofInt 64 ((s.rs b).toInt + o.toInt)
    let turn := fun (u : State) => u.takeTurn (.tag s.cur.1) (codeOf s.cur.2)
    let entry := fun (v : Word) =>
      turn ((s.modCore s.cur.1 fun k => { k with tags := k.tags.setIfInBounds i.toNat v }).goto s.nextPc)
    (∃ u, exec (.lookup g t b o) s = .next (turn u) ∧ s.scalarWritten u t (Spec.lookup s.curCore tag)) ∧
    (∃ u, exec (.probe g t b o range) s = .next (turn u) ∧ s.scalarWritten u t (Spec.probe s.curCore tag range.toNat)) ∧
    (512 ≤ i.toNat → exec (.tagset g t b o) s = .next (s.trapOn s.cur.1 s.cur.2 0x28 i) ∧
      exec (.taginv g b o) s = .next (s.trapOn s.cur.1 s.cur.2 0x28 i)) ∧
    (i.toNat < 512 → 2 ^ 48 ≤ (s.rs t).toNat →
      exec (.tagset g t b o) s = .next (s.trapOn s.cur.1 s.cur.2 0x02 (.ofNat 64 s.pc.toNat))) ∧
    (i.toNat < 512 → (s.rs t).toNat < 2 ^ 48 → exec (.tagset g t b o) s = .next (entry (s.rs t))) ∧
    (i.toNat < 512 → exec (.taginv g b o) s = .next (entry ((s.curCore.tags[i.toNat]?).getD 0 &&& 0xFFFFFF7FFFFFFFFF)))

/-! ## The vector unit (spec/07, spec/08 R180, spec/09 R207 to R211) -/

/-- The rounding mode an instruction selects: its own, or RMODE's (R74, R75). -/
def Sys2Proof.Spec.rounding (s : State) : RSel → RM
  | .rne => .rne
  | .rz => .rz
  | .ru => .ru
  | .rd => .rd
  | .rmode => match s.curStream.rmode.toNat with
    | 0 => .rne
    | 1 => .rz
    | 2 => .ru
    | _ => .rd

/-- An instruction of the vector unit: guard, destination with its readers, mask register, sources in operand order, and the
function its page gives. -/
structure Sys2Proof.Spec.Vec where
  g : Guard
  dst : CReg
  rdr : BitVec 3
  mreg : Option MReg
  srcs : List SrcRef
  fn : VecFn

/-- The instructions of the vector unit with a tile destination: 47 of spec/07 and spec/09, and AMOV to a tile. -/
def Sys2Proof.Spec.tileVec (s : State) (i : Instr) : Option Spec.Vec :=
  let r := Spec.rounding s
  let t := fun (g : Guard) (d : TDst) (mk : Option MReg) (l : List TSrc) (fn : VecFn) =>
    some (⟨g, .tile d.reg, d.rdr, mk, l.map s.tsrc, fn⟩ : Spec.Vec)
  match i with
  | .vadd g d a b ty rs sat mk => t g d mk [a, b] (.arith .add ty (r rs) sat)
  | .vsub g d a b ty rs sat mk => t g d mk [a, b] (.arith .sub ty (r rs) sat)
  | .vmul g d a b ty rs sat mk => t g d mk [a, b] (.arith .mul ty (r rs) sat)
  | .vfma g d a b c ty rs sat mk => t g d mk [a, b, c] (.arith .fma ty (r rs) sat)
  | .vfms g d a b c ty rs sat mk => t g d mk [a, b, c] (.arith .fms ty (r rs) sat)
  | .vmin g d a b ty mk => t g d mk [a, b] (.arith .min ty .rne false)
  | .vmax g d a b ty mk => t g d mk [a, b] (.arith .max ty .rne false)
  | .vabs g d a ty sat mk => t g d mk [a] (.arith .abs ty .rne sat)
  | .vneg g d a ty sat mk => t g d mk [a] (.arith .neg ty .rne sat)
  | .vdiv g d a b ty rs sat mk => t g d mk [a, b] (.arith .div ty (r rs) sat)
  | .vsqrt g d a ty rs sat mk => t g d mk [a] (.arith .sqrt ty (r rs) sat)
  | .vrcp g d a ty sat mk => t g d mk [a] (.trans .rcp ty sat)
  | .vrsq g d a ty sat mk => t g d mk [a] (.trans .rsq ty sat)
  | .vexp2 g d a ty sat mk => t g d mk [a] (.trans .exp2 ty sat)
  | .vlog2 g d a ty sat mk => t g d mk [a] (.trans .log2 ty sat)
  | .vand g d a b ty mk => t g d mk [a, b] (.logic .and ty)
  | .vor g d a b ty mk => t g d mk [a, b] (.logic .or ty)
  | .vxor g d a b ty mk => t g d mk [a, b] (.logic .xor ty)
  | .vnot g d a ty mk => t g d mk [a] (.logic .not ty)
  | .vshl g d a b ty mk => t g d mk [a, b] (.logic .shl ty)
  | .vshr g d a b ty mk => t g d mk [a, b] (.logic .shr ty)
  | .vsar g d a b ty mk => t g d mk [a, b] (.logic .sar ty)
  | .vcmp g d a b cond ty mk => t g d mk [a, b] (.cmp cond ty)
  | .vcmpb g d a b cond mk => t g d mk [a, b] (.cmpb cond)
  | .vsel g d a b c ty mk => t g d mk [a, b, c] (.sel ty)
  | .vcvt g d a sty dty rs sat part mk => t g d mk [a] (.cvt sty dty (r rs) sat part.toNat)
  | .vmov g d a mk => t g d mk [a] .mov
  | .vsplat g d a ty mk => t g d mk [a] (.splat ty)
  | .vgete g d a b ty mk => t g d mk [a, b] (.gete ty)
  | .vpute g d a b c ty mk => t g d mk [a, b, c] (.pute ty)
  | .vred g d a op row ty rs sat mk => t g d mk [a] (.red op row ty (r rs) sat)
  | .vscan g d a op row ty rs sat mk => t g d mk [a] (.scan op row ty (r rs) sat)
  | .vpxor g d a tile ty mk => t g d mk [a] (.pxor tile ty)
  | .vclmul g d a b hi mk => t g d mk [a, b] (.clmul hi)
  | .vpopc g d a ty mk => t g d mk [a] (.popc ty)
  | .vclz g d a ty mk => t g d mk [a] (.clz ty)
  | .vperm g d a b ty mk => t g d mk [a, b] (.perm ty)
  | .vshuf g d a b mk => t g d mk [a, b] .shuf
  | .vtrn g d a ty mk => t g d mk [a] (.trn ty)
  | .vbcastr g d a b mk => t g d mk [a, b] .bcastr
  | .vcomp g d a b ty mk => t g d mk [a, b] (.comp ty)
  | .npack g d a mk => t g d mk [a] .npack
  | .nunpk g d a mk => t g d mk [a] .nunpk
  | .nrnd g d a fn ty rs sat mk => t g d mk [a] (.nrnd fn ty (r rs) sat)
  | .nmom g d a b c ty rs sat mk => t g d mk [a, b] (.nmom (.ofNat 32 (s.rs c).toNat) ty (r rs) sat)
  | .nupd g d a b c ty k => t g d (some k) [a, b] (.nupd (.ofNat 32 (s.rs c).toNat) ty false k)
  | .nupdCm g d a b c ty k => t g d (some k) [a, b] (.nupd (.ofNat 32 (s.rs c).toNat) ty true k)
  | .amovToTile g d a q j mk => some ⟨g, .tile d.reg, d.rdr, mk, [s.asrc a], .amovToTile q j⟩
  | _ => none

/-- The instructions of the vector unit with an accumulator destination (Table 8.3). -/
def Sys2Proof.Spec.accVec (s : State) : Instr → Option Spec.Vec
  | .amovToAcc g d a q j mk => some ⟨g, .acc d.reg, d.rdr, mk, [s.tsrc a], .amovToAcc q j⟩
  | .azero g d => some ⟨g, .acc d.reg, d.rdr, none, [], .azero⟩
  | .aadd g d a b ty rs sat => some ⟨g, .acc d.reg, d.rdr, none, [s.asrc a, s.asrc b], .aadd ty (Spec.rounding s rs) sat⟩
  | _ => none

/-- An instruction of the vector unit, whichever its destination. -/
def Sys2Proof.Spec.vec (s : State) (i : Instr) : Option Spec.Vec :=
  match Spec.tileVec s i with
  | some v => some v
  | none => Spec.accVec s i

/-- The rows an instruction writes: all, or those of its mask register as it stands; NUPD writes its register and has no row mask
(R144, R210). -/
def Sys2Proof.Spec.rowMask (s : State) (v : Spec.Vec) : BitVec 32 :=
  match v.mreg, v.fn with
  | _, .nupd _ _ _ _ => BitVec.allOnes 32
  | some k, _ => s.curCore.m[k.toNat]
  | none, _ => BitVec.allOnes 32

/-- No NUPD in flight writes the mask register (R211). -/
def Sys2Proof.Spec.maskFree (s : State) (v : Spec.Vec) : Prop :=
  ∀ k, v.mreg = some k → ∀ w ∈ s.curCore.vwrites, ∀ m, w.mreg ≠ some (k, m)

/-- The state once the vector unit has accepted a write: the destination is reserved, the write is in flight with its data and the
debits made for it, EXEC's issue interval runs, and the stream is at its next instruction (R144, R146, R21). -/
def Sys2Proof.Spec.accepted (s : State) (v : Spec.Vec) (data : WriteData) (mreg : Option (MReg × BitVec 32))
    (debits : List (CReg × BitVec 16)) (k : Core) : Core :=
  { k.setCnt v.dst { k.cnt v.dst with rsv := true } with
    vwrites := k.vwrites ++ [⟨v.dst, v.rdr, data, mreg, debits, s.pc, s.curStream.word, s.curStream.len⟩],
    interval := .vec }

/-- Every instruction of the vector unit, guarded true, with rows to write, its sources ready and its destination to be written,
reads and debits its sources, and has its write accepted with the data its function gives; nothing else changes (R144, R146,
R24, R28; the counter of free values is the model's own, assumption log 7). -/
def Sys2Proof.Spec.VectorIssues : Prop :=
  ∀ (s : State) i v, Spec.vec s i = some v → s.guard v.g = true → Spec.maskFree s v →
    let c := s.cur.1
    let mask := Spec.rowMask s v
    let after := s.curCore.debitAll s.cur.2 v.srcs
    let n := after.cnt v.dst
    mask ≠ 0 → conflictIn v.srcs = none → s.curCore.evalSources v.srcs = .ready →
    n.bad = false → (n.p = 0 ∨ n.opn = true) → n.rsv = false →
    let result := vecData v.fn mask (captureAll s c v.srcs)
    exec i s = .next (({ s with fresh := s.fresh + v.srcs.length }.modCore c fun (k : Core) =>
      Spec.accepted s v result.1 result.2 (s.curCore.debitsOf v.srcs)
        ((k.debitAll s.cur.2 v.srcs).handOn s.cur.2 [v.dst])).finishOn c s.cur.2)

/-- An instruction of the vector unit that is guarded false, or whose row mask is empty, reads no source and has a write accepted
that changes neither value nor poison and advances the count of its destination (R29, R144). -/
def Sys2Proof.Spec.VectorPredicatedOff : Prop :=
  ∀ (s : State) i v, Spec.vec s i = some v →
    (s.guard v.g = false ∨ (Spec.rowMask s v = 0 ∧ Spec.maskFree s v)) →
    let n := s.curCore.cnt v.dst
    n.bad = false → (n.p = 0 ∨ n.opn = true) → n.rsv = false →
    exec i s = .next ((s.modCore s.cur.1 fun k => Spec.accepted s v .count none [] (k.handOn s.cur.2 [v.dst])).finishOn s.cur.1 s.cur.2)

/-- Vector instructions at issue, guarded true and guarded false (R29, R144, R146). -/
def Obligations.VectorIssue : Prop := Spec.VectorIssues ∧ Spec.VectorPredicatedOff

/-- VECTOR_WRITE_COMPLETE of a write whose issue interval is over, to a tile or to an accumulator (AMOV, AZERO, AADD): the bits under
the write's mask take its data and the others keep theirs, the row poison likewise, the count advances with the declared readers and
the reservation goes; a NUPD also writes its mask register. The write of R29 advances the count alone. ISSUE_INTERVAL_END without a mismatch lets EXEC issue again and changes nothing else (R20, R29, R144, R146, R180, R210). -/
def Sys2Proof.Spec.VectorWriteCompletes : Prop :=
  ∀ (s : State) c, (s.core c).gated = false →
    (∀ i w r v m pv pm, (s.core c).vwrites[i]? = some w → w.dst = .tile r → w.data = .tile v m pv pm →
      (s.core c).interval = .none → (s.core c).exec.pend = .none →
      ∃ t, exec (.vectorWriteComplete c i) s = .next t ∧
        let old := (s.core c).tiles[r.toNat]
        let new := (t.core c).tiles[r.toNat]
        (∀ j, new.val.getLsbD j = if m.getLsbD j then v.getLsbD j else old.val.getLsbD j) ∧
        (∀ j, new.poison.getLsbD j = if pm.getLsbD j then pv.getLsbD j else old.poison.getLsbD j) ∧
        new.cnt = ⟨old.cnt.c + 1, if w.rdr = 7 then 0 else w.rdr, decide (w.rdr = 7), false, old.cnt.bad⟩ ∧
        (∀ e : TReg, e ≠ r → (t.core c).tiles[e.toNat] = (s.core c).tiles[e.toNat]) ∧
        (t.core c).accs = (s.core c).accs ∧ (t.core c).sigs = (s.core c).sigs ∧
        (∀ k : MReg, (t.core c).m[k.toNat] = match w.mreg with
          | some (q, b) => if k = q then b else (s.core c).m[k.toNat]
          | none => (s.core c).m[k.toNat]) ∧
        (t.core c).vwrites = (s.core c).vwrites.eraseIdx i ∧ s.memSame t) ∧
    (∀ i w r v m pv pm, (s.core c).vwrites[i]? = some w → w.dst = .acc r → w.data = .acc v m pv pm →
      (s.core c).interval = .none → (s.core c).exec.pend = .none →
      ∃ t, exec (.vectorWriteComplete c i) s = .next t ∧
        let old := (s.core c).accs[r.toNat]
        let new := (t.core c).accs[r.toNat]
        (∀ j, new.val.getLsbD j = if m.getLsbD j then v.getLsbD j else old.val.getLsbD j) ∧
        (∀ j, new.poison.getLsbD j = if pm.getLsbD j then pv.getLsbD j else old.poison.getLsbD j) ∧
        new.cnt = ⟨old.cnt.c + 1, if w.rdr = 7 then 0 else w.rdr, decide (w.rdr = 7), false, old.cnt.bad⟩ ∧
        (∀ e : AReg, e ≠ r → (t.core c).accs[e.toNat] = (s.core c).accs[e.toNat]) ∧
        (t.core c).tiles = (s.core c).tiles ∧ (t.core c).sigs = (s.core c).sigs ∧
        (t.core c).vwrites = (s.core c).vwrites.eraseIdx i ∧ s.memSame t) ∧
    (∀ i w, (s.core c).vwrites[i]? = some w → w.data = .count → (s.core c).interval = .none → (s.core c).exec.pend = .none →
      ∃ t, exec (.vectorWriteComplete c i) s = .next t ∧
        let old := (s.core c).cnt w.dst
        (t.core c).cnt w.dst = ⟨old.c + 1, if w.rdr = 7 then 0 else w.rdr, decide (w.rdr = 7), false, old.bad⟩ ∧
        (∀ r, r ≠ w.dst → (t.core c).cnt r = (s.core c).cnt r) ∧
        (∀ r : TReg, (t.core c).tiles[r.toNat].val = (s.core c).tiles[r.toNat].val ∧
          (t.core c).tiles[r.toNat].poison = (s.core c).tiles[r.toNat].poison) ∧
        (∀ r : AReg, (t.core c).accs[r.toNat].val = (s.core c).accs[r.toNat].val ∧
          (t.core c).accs[r.toNat].poison = (s.core c).accs[r.toNat].poison) ∧
        (∀ r : GReg, (t.core c).sigs[r.toNat].val = (s.core c).sigs[r.toNat].val) ∧
        (t.core c).vwrites = (s.core c).vwrites.eraseIdx i ∧ s.memSame t) ∧
    ((s.core c).interval ≠ .none →
      exec (.issueIntervalEnd c false) s = .next (s.modCore c fun k => { k with interval := .none }))

/-- A checker mismatch at the end of an issue interval stops EXEC at the instruction: its write is not performed, its reservation is
released, and PIPE_CHECK is raised on it (R31, R146, R402). COUNT_WAIT_RESUME goes on with a stream whose sources or destination
have become ready, where no stream of lower code names a register in common, or waits for an entry of the pump queue too (R22,
R24, R27, R215). -/
def Sys2Proof.Spec.WaitsEnd : Prop :=
  ∀ (s : State) c, (s.core c).gated = false →
    (∀ before w, (s.core c).vwrites = before ++ [w] → (s.core c).interval = .vec → (s.core c).exec.st = .running →
      let undone := s.modCore c fun k =>
        { ((k.setCnt w.dst { k.cnt w.dst with rsv := false }).recredit w.debits).modStream .exec fun v =>
            { v with pc := w.pc, word := w.word, len := w.len, ibuf := none } with vwrites := before, interval := .none }
      exec (.issueIntervalEnd c true) s = .next ((undone.mismatch c .vector w.pc).trapOn c .exec 0x70 0)) ∧
    (∀ x, (s.stream c x).st = .countWait → (s.core c).waitBehind x = false →
      (∀ srcs op, (s.stream c x).pend = .src srcs op → (s.core c).evalSources srcs = .ready →
        exec (.countWaitResume c x) s = .next (s.readSources c x srcs op)) ∧
      (∀ r rdr debits op, (s.stream c x).pend = .dst r rdr debits op → (s.core c).dstReady r op = true →
        ((s.core c).cnt r).bad = false → (∀ o, op = .nest o → ((s.core c).cnt (.acc (s.core c).nestSet.acc)).bad = false) →
        (op.needsEntry = true → (s.core c).pumpRoom = true ∧ (s.core c).appendBehind x = false) →
        exec (.countWaitResume c x) s = .next ((s.modCore c fun k => k.handOn x (op.writes k r)).afterDst c x r rdr debits op)))

/-- How a vector write completes and a wait of EXEC ends (R20, R24, R144). -/
def Obligations.VectorCompletion : Prop := Spec.VectorWriteCompletes ∧ Spec.WaitsEnd

/-- How many sources an operation of Table 7.3 has. -/
def Sys2Proof.Spec.arity : ArithOp → Nat
  | .abs | .neg | .sqrt => 1
  | .fma | .fms => 3
  | _ => 2

/-- The exact value of an operation of Table 7.3 that exists on integers. -/
def Sys2Proof.Spec.exact (op : ArithOp) (x y z : Int) : Option Int :=
  match op with
  | .add => some (x + y)
  | .sub => some (x - y)
  | .mul => some (x * y)
  | .fma => some (x * y + z)
  | .fms => some (x * y - z)
  | .min => some (min x y)
  | .max => some (max x y)
  | .abs => some (max x (-x))
  | .neg => some (-x)
  | .div | .sqrt => none

/-- The types that read an element as two's complement. -/
def Sys2Proof.Spec.signed (ty : ElemTy) : Prop := ty = .i8 ∨ ty = .i16 ∨ ty = .i32 ∨ ty = .i64

/-- The least and the greatest value of an integer type. -/
def Sys2Proof.Spec.bounds (ty : ElemTy) (lo hi : Int) : Prop :=
  (Spec.signed ty → lo = -2 ^ (ty.bits - 1) ∧ hi = 2 ^ (ty.bits - 1) - 1) ∧
    (¬ Spec.signed ty → lo = 0 ∧ hi = 2 ^ ty.bits - 1)

/-- On an integer type every operation of Table 7.3 that exists there gives, element by element, the exact result modulo 2^w, and
with SAT the exact result clamped to the type's range; VMIN and VMAX compare as the type says. AND, OR and XOR work on the bits. The
rows the mask selects are written, and a row is poisoned if that row of a source is (R149; the rest from R148, R152, R165). -/
def Obligations.IntegerElements : Prop :=
  ∀ (ty : ElemTy) (rm : RM) (sat : Bool) (mask : BitVec 32) (a b c : BitVec 32768) (p q r : BitVec 32) (i : Nat),
    ty.isInt = true → i < 32768 / ty.bits →
    let w := ty.bits
    let el := fun (x : BitVec 32768) => x.extractLsb' (w * i) w
    let sources := fun (n : Nat) => ([.tile a p, .tile b q, .tile c r] : List RegVal).take n
    let poison := fun (n : Nat) => if n = 1 then p else if n = 2 then p ||| q else p ||| q ||| r
    let gives := fun (fn : VecFn) (n : Nat) (x : BitVec w) =>
      ∃ v m, (vecData fn mask (sources n)).1 = .tile v m (poison n) mask ∧ el v = x ∧
        ∀ j, j < 32768 → m.getLsbD j = mask.getLsbD (j / 1024)
    (∀ (num : BitVec w → Int) lo hi op z, (∀ e, (Spec.signed ty → num e = e.toInt) ∧ (¬ Spec.signed ty → num e = e.toNat)) →
      Spec.bounds ty lo hi → Spec.exact op (num (el a)) (num (el b)) (num (el c)) = some z →
      gives (.arith op ty rm sat) (Spec.arity op) (.ofInt w (if sat = true then max lo (min hi z) else z))) ∧
    gives (.logic .and ty) 2 (el a &&& el b) ∧
    gives (.logic .or ty) 2 (el a ||| el b) ∧
    gives (.logic .xor ty) 2 (el a ^^^ el b)

/-! ## The matrix array (spec/08) -/

/-- The state once an entry has entered the array queue of the issuing core, which had room, and the stream has gone on; the core's
registers are first changed as given, and platch is the format the next entry will find latched (R168, R169). The note of who has
entered in this cycle, EXEC before CTRL, is the model's own (assumption log 5). -/
def Sys2Proof.Spec.entered (s : State) (e : AQEntry) (platch : Option LatchFmt) (regs : Core → Core) : State :=
  ((s.modCore s.cur.1 fun k => { regs k with aq := k.aq ++ [e], platch := platch }).finishOn s.cur.1 s.cur.2).takeTurn
    (.array s.cur.1) (codeOf s.cur.2)

/-- A register that a write may begin on (R20, R21, R404). -/
def Sys2Proof.Spec.writable (n : Count) : Prop := n.bad = false ∧ (n.p = 0 ∨ n.opn = true) ∧ n.rsv = false

/-- WLATCH refuses its offsets (R171): 20 bits each, the weights at a multiple of 512 with 64 KiB inside the buffer, and for NF
weights 128 bytes of scales inside it. -/
def Sys2Proof.Spec.offsetsBad (fmt : WFmt) (w sc : Nat) : Prop :=
  2 ^ 20 ≤ w ∨ 2 ^ 20 ≤ sc ∨ w % 512 ≠ 0 ∨ 2 ^ 20 < w + 2 ^ 16 ∨ fmt = .nf ∧ 2 ^ 20 < sc + 128

/-- The ranges of the weight buffer that race with what a stream latches (R48): those of pump commands in flight, and of ended ones
whose completion the stream is not ordered after. -/
def Sys2Proof.Spec.racing (k : Core) (x : StreamId) : List (Nat × Nat) :=
  (k.pumpCmds.map PumpCmd.weightRuns).flatten ++ ((k.landed.filter fun l => !(l.after.contains x)).map (·.runs)).flatten

/-- WLATCH, guarded true, with offsets R171 allows, its signal source ready and its completion register to be written, debits the
source, reserves the register and enters the array queue with the offsets its scalars hold, and with the ranges of the weight
buffer that race with it once its signal source has ordered it (R48); other offsets raise RESERVED_FIELD; guarded false it makes the
write of R29. WCLR enters with no register, and does nothing guarded false. Neither reads memory at issue (R168, R169, R172, R173;
the counter of free values is the model's own, assumption log 7). -/
def Sys2Proof.Spec.LatchIssues : Prop :=
  ∀ (s : State) g d a ws ss fmt np rn, s.cur.2 = .exec →
    let w := (s.rs ws).toNat
    let sc := (s.rs ss).toNat
    let srcs := [s.gsrc a]
    let n := (s.curCore.debitAll s.cur.2 srcs).cnt (.sig d.reg)
    let races := Spec.racing (s.curCore.debitAll s.cur.2 srcs) s.cur.2
    let i : Instr := .wlatch g d a ws ss fmt np rn
    (s.guard g = true → Spec.offsetsBad fmt w sc → exec i s = .next (s.trapOn s.cur.1 s.cur.2 0x02 (.ofNat 64 s.pc.toNat))) ∧
    (s.guard g = true → ¬ Spec.offsetsBad fmt w sc → s.curCore.evalSources srcs = .ready → Spec.writable n →
      s.curCore.aq.length < 4 →
      exec i s = .next (Spec.entered { s with fresh := s.fresh + 1 }
        (.wlatch ⟨races, w, sc, ⟨fmt, np, rn⟩, d.reg, d.rdr, s.pc⟩) (some ⟨fmt, np, rn⟩) fun k =>
          ((k.debitAll s.cur.2 srcs).handOn s.cur.2 [.sig d.reg]).setCnt (.sig d.reg) { n with rsv := true })) ∧
    (s.guard g = false → Spec.emptyWrite s i (.sig d.reg) d.rdr) ∧
    (s.guard g = true → s.curCore.aq.length < 4 → exec (.wclr g) s = .next (Spec.entered s (.wclr s.pc) none id)) ∧
    (s.guard g = false → exec (.wclr g) s = .next (s.goto s.nextPc))

/-- The pairs of activation type and latched format the array accepts, with the largest KSEL (Table 8.1). -/
def Sys2Proof.Spec.pairs : List (ElemTy × WFmt × Nat) :=
  [(.i8, .int8, 0), (.i8, .int4, 1), (.i8, .i4x, 1), (.i4, .int4, 0), (.i4, .i4x, 0), (.nf8, .nf, 0), (.nf16, .nf, 1),
    (.nf32, .nf, 3), (.fp64, .fp64, 3)]

/-- MMA, guarded true, with a row mask that is not empty, a format ahead of it in the queue that Table 8.1 pairs with its type, its
sources ready and its accumulator to be written, captures and debits its sources, reserves the accumulator and enters the queue;
with no latch ahead, a pair outside the table or a KSEL too large it raises MATRIX_STATE with sub-code 1, 2 or 3 before any wait.
Guarded false, or with an empty row mask, it makes the write of R29 (R168, R169, R175, R177, R29; the note of who has come to the
array in this cycle is the model's own, assumption log 5). -/
def Obligations.MmaIssues : Prop :=
  ∀ (s : State) g d a b cs ty band ksel mk zs, s.cur.2 = .exec →
    let mask : BitVec 32 := match mk with
      | some k => s.curCore.m[BitVec.toNat k]
      | none => BitVec.allOnes 32
    let op : MmaOp := ⟨d.reg, d.rdr, ty, band, ksel, mask, b.isNone, cs.isSome, zs, 0, 0, 0, 0, 0, 0, s.pc⟩
    let i : Instr := .mma g d a b cs ty band ksel mk zs
    let srcs := s.tsrc a :: (b.toList.map s.asrc ++ cs.toList.map s.tsrc)
    let n := (s.curCore.debitAll s.cur.2 srcs).cnt (.acc d.reg)
    let stops := fun (sub : Word) => (s.takeTurn (.array s.cur.1) (codeOf s.cur.2)).trapOn s.cur.1 s.cur.2 0x41 sub
    (s.guard g = false → Spec.emptyWrite s i (.acc d.reg) d.rdr) ∧
    (s.guard g = true → (∀ k, mk = some k → ∀ w ∈ s.curCore.vwrites, ∀ m, w.mreg ≠ some (k, m)) →
      (mask = 0 → Spec.emptyWrite s i (.acc d.reg) d.rdr) ∧
      (mask ≠ 0 → s.curCore.platch = none → exec i s = .next (stops 1)) ∧
      (∀ f, mask ≠ 0 → s.curCore.platch = some f →
        ((∀ k, (ty, f.fmt, k) ∉ Spec.pairs) → exec i s = .next (stops 2)) ∧
        (∀ k, (ty, f.fmt, k) ∈ Spec.pairs → k < ksel.toNat → exec i s = .next (stops 3)) ∧
        (∀ k, (ty, f.fmt, k) ∈ Spec.pairs → ksel.toNat ≤ k → conflictIn srcs = none → s.curCore.evalSources srcs = .ready →
          Spec.writable n → s.curCore.aq.length < 4 →
          exec i s = .next (Spec.entered { s with fresh := s.fresh + srcs.length }
            (.mma (mmaCapture op (captureAll s s.cur.1 srcs))) (some f) fun k =>
              ((k.debitAll s.cur.2 srcs).handOn s.cur.2 [.acc d.reg]).setCnt (.acc d.reg) { n with rsv := true }))))

/-- The base fields of the staging set from a scalar (R182). -/
def Sys2Proof.Spec.baseField (n : NestSet) (v : Nat) : Fin 6 → NestSet
  | 0 => { n with xa := .ofNat 51 v }
  | 1 => { n with xo := .ofNat 51 v }
  | 2 => { n with orow := .ofNat 32 v }
  | 3 => { n with wo := .ofNat 20 v, sc := .ofNat 20 (v / 2 ^ 20) }
  | 4 => { n with cfg := .ofNat 22 v }
  | 5 => { n with start := .ofNat 32 v }

/-- NSTAT selector 0 (R188): a nest at the head of the queue runs, one behind it waits; whether weights are latched, and their
format with NP, RN and LFIN; the entries in use, PCK, and the groups the running nest, or the last one, has completed. -/
def Sys2Proof.Spec.nstat (k : Core) : Word :=
  let nest := fun (e : AQEntry) => match e with
    | .nest _ => true
    | _ => false
  let code := fun (f : WFmt) => match f with
    | .int8 => 1
    | .int4 => 2
    | .i4x => 3
    | .nf => 4
    | .fp64 => 5
  let latched := match k.latch with
    | some l => 2 ^ 2 + code l.fmt * 2 ^ 3 + l.np.toNat * 2 ^ 7 + l.rn.toNat * 2 ^ 9 + l.fin.toNat * 2 ^ 10
    | none => 0
  let grp := match k.aq with
    | .nest r :: _ => r.grp
    | _ => k.ngrp
  .ofNat 64 (((k.aq.take 1).any nest).toNat + ((k.aq.drop 1).any nest).toNat * 2 + latched + k.aq.length % 8 * 2 ^ 11 +
    k.npck.toNat * 2 ^ 14 + grp % 2 ^ 32 * 2 ^ 16)

/-- NSETL and NSETB, guarded true, write one level or one base field of the staging set; NSTAT reads the array's status, whose first
word clears PCK, and the last fault record; NGO with a set that passes its checks and both registers to be written captures the set,
reserves its signal and its accumulator and enters the queue, with the ranges that race with what it latches (R48), where no instruction of EXEC stands at the same step; a set that does
not pass raises MATRIX_STATE with sub-code 4 or 5, and guarded false NGO makes the write of R29 (R182, R184, R187, R188, R168,
R29). Where both sub-codes apply 4 is raised, the model's choice (assumption log 28). -/
def Sys2Proof.Spec.NestIssues : Prop :=
  ∀ (s : State) g, s.guard g = true →
    let stage := fun (f : NestSet → NestSet) =>
      (s.modCore s.cur.1 fun k => { k with nestSet := f k.nestSet }).goto s.nextPc
    (∀ l a b c, exec (.nsetl g l a b c) s = .next (stage fun n => { n with lv := (n.lv.set l.val
      (NestLevel.mk (.ofNat 32 (s.rs a).toNat) (s.rs b) (.ofNat 32 (s.rs c).toNat) (.ofNat 32 ((s.rs c).toNat / 2 ^ 32)))) })) ∧
    (∀ f a, exec (.nsetb g f a) s = .next (stage fun n => Spec.baseField n (s.rs a).toNat f)) ∧
    (∀ d, exec (.nstat g d false) s =
      .next (((s.modCore s.cur.1 fun k => { k with npck := false }).ws d (Spec.nstat s.curCore)).goto s.nextPc)) ∧
    (∀ d, ∃ t, exec (.nstat g d true) s = .next t ∧ s.scalarWritten t d (match s.curCore.nfault with
      | some f => .ofNat 64 (f.va.toNat + f.cause.toNat * 2 ^ 56 + f.store.toNat * 2 ^ 63)
      | none => 0)) ∧
    (∀ d o, s.cur.2 = .ctrl →
      let n := s.curCore.nestSet
      let i : Instr := .ngo g d o
      (n.offsetsOk = false → exec i s = .next (s.trapOn s.cur.1 .ctrl 0x41 4)) ∧
      (n.offsetsOk = true → n.formOk = false → exec i s = .next (s.trapOn s.cur.1 .ctrl 0x41 5)) ∧
      (n.offsetsOk = true → n.formOk = true → Spec.writable (s.curCore.cnt (.sig d.reg)) →
        Spec.writable (s.curCore.cnt (.acc n.acc)) → s.curCore.aq.length < 4 → s.curCore.exec.atArray = false →
        exec i s = .next (Spec.entered s (.nest ⟨Spec.racing s.curCore .ctrl, n, d.reg, d.rdr, o, n.start.toNat, s.pc⟩) none fun k =>
          ((k.handOn .ctrl [.sig d.reg, .acc n.acc]).setCnt (.sig d.reg) { k.cnt (.sig d.reg) with rsv := true }).setCnt (.acc n.acc)
            { k.cnt (.acc n.acc) with rsv := true })))

/-- NGO guarded false makes the write of R29 (R184). -/
def Sys2Proof.Spec.NestPredicatedOff : Prop :=
  ∀ (s : State) g d o, s.guard g = false → Spec.emptyWrite s (.ngo g d o) (.sig d.reg) d.rdr

/-- A completion word: STATUS in [63:56] and the units done in [31:0] (R172, R221). -/
def Sys2Proof.Spec.completion (status units : Nat) : Word := .ofNat 64 (status * 2 ^ 56 + units)

/-- WLATCH_COMPLETE at the head of the queue latches the weights and scales the buffer then holds, those that race with a PWLD at
any value (R48), and leaves the latch empty with status 0x11 after a poisoned byte, 0x10 after an uncorrectable error, whose granule
becomes poisoned, or 0x20 after a checker mismatch, with the error record of each; it writes its completion register. WCLR_EXECUTE
empties the latch. Each takes its entry off the queue (R168, R172, R173, R401, R402, R408). ARRAY_QUEUE_ROOM lets an instruction
held before the full queue enter it, an NGO behind EXEC. -/
def Sys2Proof.Spec.LatchExecutes : Prop :=
  ∀ (s : State) c, (s.core c).gated = false →
    (∀ w rest, (s.core c).aq = .wlatch w :: rest →
      let k := s.core c
      let raced := fun (a : Nat) => ∃ r ∈ w.races, r.1 ≤ a ∧ a < r.1 + r.2
      let ends := fun (t : State) (l : Option Latch) (word : Word) => { t.modCore c fun k =>
        { k with aq := rest, latch := l }.completeWrite (.sig w.g) w.rdr (.sig word) with fresh := t.fresh + 0x10080 }
      (k.latchBad w.fmt w.off w.soff = false → ∃ blocks scales,
        (∀ i, i < 0x10000 → ¬ raced (w.off + i) → blocks[i]? = some (k.wbuf.bytes.read (w.off + i))) ∧
        (∀ i, i < 128 → ¬ raced (w.soff + i) → scales[i]? = some (k.wbuf.bytes.read (w.soff + i))) ∧
        exec (.wlatchComplete c .none) s =
          .next (ends s (some (latchFrom w.fmt w.off blocks scales)) (Spec.completion 0 128))) ∧
      (k.latchBad w.fmt w.off w.soff = true →
        exec (.wlatchComplete c .none) s = .next (ends (s.coreRecord 3 c 0 w.pc 0) none (Spec.completion 0x11 0))) ∧
      (∃ g, w.off / 64 ≤ g ∧ g < w.off / 64 + 1024 ∧ exec (.wlatchComplete c .uncorrectable) s =
        .next (ends ((s.modCore c fun k => { k with wbuf := k.wbuf.mark g true }).coreRecord 6 c (64 * g) w.pc 0).useFresh none
          (Spec.completion 0x10 0))) ∧
      exec (.wlatchComplete c .mismatch) s = .next (ends (s.mismatch c .array w.pc) none (Spec.completion 0x20 0))) ∧
    (∀ pc rest, (s.core c).aq = .wclr pc :: rest →
      exec (.wclrExecute c) s = .next (s.modCore c fun k => { k with aq := rest, latch := none })) ∧
    (∀ x e debits, (s.stream c x).pend = .array e debits → (s.core c).aq.length < 4 →
      ¬ (x = .ctrl ∧ (s.core c).exec.atArray = true) →
      exec (.arrayQueueRoom c x) s = .next (((s.modCore c fun k =>
        { k with aq := k.aq ++ [e],
                 platch := match e with
                   | .wlatch w => some w.fmt
                   | .mma _ => k.platch
                   | _ => none }).finishOn c x).takeTurn (.array c) (codeOf x)))

/-- WLATCH and WCLR from issue to the array (R168 to R173). -/
def Obligations.LatchCommands : Prop := Spec.LatchIssues ∧ Spec.LatchExecutes

/-- MMA_COMPLETE at the head of the queue, with weights latched, writes the selected rows of the band with the products of the
activation rows and the latched weights added to what it captured, and advances the count of the accumulator; the latch stays. With
the latch empty its rows are poisoned and their values kept; a checker mismatch poisons them and sets PCK (R177, R179). -/
def Obligations.MmaCompletes : Prop :=
  ∀ (s : State) c m rest, (s.core c).gated = false → (s.core c).aq = .mma m :: rest →
    let ends := fun (d : WriteData) => s.modCore c fun k => { k with aq := rest }.completeWrite (.acc m.d) m.rdr d
    let poisons := fun (t : State) => ∀ r : Fin 32, m.mask.getLsbD r.val = true →
      let row := 32 * m.band.toNat + r.val
      if m.ty = .fp64 then m.band.toNat ≤ 1 → (t.core c).accs[m.d.toNat].poison.getLsbD (2 * row) = true ∧
        (t.core c).accs[m.d.toNat].poison.getLsbD (2 * row + 1) = true
      else (t.core c).accs[m.d.toNat].poison.getLsbD row = true
    (∀ l, (s.core c).latch = some l → exec (.mmaComplete c false) s = .next (ends (mmaWrite m l))) ∧
    ((s.core c).latch = none → ∃ t, exec (.mmaComplete c false) s = .next t ∧
      (t.core c).accs[m.d.toNat].val = (s.core c).accs[m.d.toNat].val ∧ poisons t) ∧
    (∃ t, exec (.mmaComplete c true) s = .next t ∧ (t.core c).npck = true ∧ (t.core c).latch = (s.core c).latch ∧
      (t.core c).accs[m.d.toNat].cnt.c = (s.core c).accs[m.d.toNat].cnt.c + 1 ∧ poisons t)

/-- An 8-bit integer product of the array (R177): element (r, c) of the band is what the accumulator held there plus the 128
products of activation row r with column c of the latched weights, all of them signed, modulo 2^32; a row outside the mask is as the
accumulator held it. -/
def Obligations.IntegerMmaElement : Prop :=
  ∀ (l : Latch) (x : BitVec 32768) (mask : BitVec 32) (band : Nat) (r c : Nat), l.fmt = .int8 → r < 32 → c < 128 →
    let out := bandMac .i8 ⟨false, 128, 0⟩ l 0 mask x.toNat none band
    let el := fun (v : Nat) => BitVec.ofNat 32 (fieldOf 32 (fieldOf 4096 v r) c)
    let act := fun (k : Nat) => x.extractLsb' (8 * (128 * r + k)) 8
    let weight := fun (k : Nat) => l.w.extractLsb' (8 * (512 * c + k)) 8
    (mask.getLsbD r = true →
      el out = el band + ((List.range 128).map fun k => (act k).signExtend 32 * (weight k).signExtend 32).sum) ∧
    (mask.getLsbD r = false → el out = el band)

/-- A step of a nest latches as WLATCH does where nothing is latched or the weights latched lie at another offset, reads its 32
rows of activations and adds their products to the band, the poison of a row to that of the band's row; a latch that meets a poisoned
byte stops the step, and weights and scales that race with a PWLD are latched at any value (R183, R185, R48). -/
def Sys2Proof.Spec.NestStep : Prop :=
  ∀ (s : State) c races n t f p (a : NestAcc) k,
    let off := (n.stepWo k).toNat
    let soff := (n.scaleOff (n.stepWo k)).toNat
    let fmt : LatchFmt := ⟨f, n.np, n.rn⟩
    let w := (s.core c).wbuf
    let held := ∃ l, a.latch = some l ∧ l.off = off
    let raced := fun (i : Nat) => ∃ r ∈ races, r.1 ≤ i ∧ i < r.1 + r.2
    (¬ held → (s.core c).latchBad fmt off soff = true → s.nestStep c races n t f p a k = .error (.poison 0)) ∧
    (held ∨ (s.core c).latchBad fmt off soff = false → ∀ us, s.nestUnits c .read 128 128
        ((List.range 32).map fun r => n.stepXa k + .ofNat 51 (128 * r)) = .ok us →
      let x := { s with fresh := s.fresh + k }.loadTile c us
      ∃ blocks scales,
        (∀ i, i < 0x10000 → ¬ raced (off + i) → blocks[i]? = some (w.bytes.read (off + i))) ∧
        (∀ i, i < 128 → ¬ raced (soff + i) → scales[i]? = some (w.bytes.read (soff + i))) ∧
        let used := match a.latch with
          | some l => if l.off = off then l else latchFrom fmt off blocks scales
          | none => latchFrom fmt off blocks scales
        ∀ q, pairing t used.fmt = some q → s.nestStep c races n t f p a k =
          .ok ⟨some used, bandMac t q used 0 (BitVec.allOnes 32) x.1.toNat none a.band, a.poison ||| x.2⟩)

/-- NEST_GROUP_COMPLETE runs the next group of the nest at the head of the queue once what CTRL stored before it has been
performed: its steps from a band of zero, and then its 32 rows are stored, every store after every read; GRP counts it, and the latch
is that of its last step. Nothing of a group that meets a fault is stored. NEST_COMPLETE ends a nest whose groups have all run, that
had none to run, or that the hard stop ends at a group boundary, and one that meets a fault, poison or an error: its release comes
first, where it has one; the signal takes the completion word with the status and the groups done; both counts advance, the latch is
empty and the entry is gone. After status 0 the accumulator holds the last group's band with the poison of its rows, outside the
named band what it held, and all of that where the nest ran no group (R183 to R186, R227). -/
def Sys2Proof.Spec.NestRuns : Prop :=
  ∀ (s : State) c r rest, (s.core c).gated = false → (s.core c).aq = .nest r :: rest → Spec.quietOn s c .ctrl →
    let k := s.core c
    let n := r.set
    let steps := (List.range n.groupSteps).map (r.grp * n.groupSteps + ·)
    let done := fun (err : EngineErr) (status : Nat) (band : State → Prop) => ∃ t, exec (.nestComplete c err) s = .next t ∧
      (t.core c).sigs[r.g.toNat].val = Spec.completion status (r.grp % 2 ^ 32) ∧
      (t.core c).sigs[r.g.toNat].cnt.c = k.sigs[r.g.toNat].cnt.c + 1 ∧
      (t.core c).accs[n.acc.toNat].cnt = ⟨k.accs[n.acc.toNat].cnt.c + 1, 0, true, false, k.accs[n.acc.toNat].cnt.bad⟩ ∧
      (t.core c).aq = rest ∧ (t.core c).latch = none ∧ (t.core c).ngrp = r.grp ∧ (t.core c).tiles = k.tiles ∧ s.memSame t ∧ band t
    let wide := (n.pair.map fun q => q.2.2.wide).getD false
    let inBand := fun (whole j : Nat) => j / (if wide = true then whole / 2 else whole / 4) = n.band
    let val := fun (t : State) (b : Nat → Bool) => ∀ j, j < 524288 → (t.core c).accs[n.acc.toNat].val.getLsbD j =
      if inBand 524288 j then b j else k.accs[n.acc.toNat].val.getLsbD j
    let poison := fun (t : State) (b : Nat → Bool) => ∀ j, j < 128 → (t.core c).accs[n.acc.toNat].poison.getLsbD j =
      if inBand 128 j then b j else k.accs[n.acc.toNat].poison.getLsbD j
    let lastBand := fun (t : State) => (∀ b, k.nestBand = some b → val t b.getLsbD ∧ poison t k.nestPoison.getLsbD) ∧
      (k.nestBand = none → (t.core c).accs[n.acc.toNat].val = k.accs[n.acc.toNat].val ∧
        (t.core c).accs[n.acc.toNat].poison = k.accs[n.acc.toNat].poison)
    let freeBand := fun (t : State) => ∃ b, val t b
    let running := (k.ctrl.hs && k.ctrl.dr) = false
    (∀ t f p a rows, running → r.grp < n.groups → n.pair = some (t, f, p) →
      s.nestSteps c r.races n t f p ⟨k.latch, 0, 0⟩ steps = .ok a → s.nestRows c n p r.grp (List.range 32) = .ok rows →
      (∀ us ∈ rows, ∀ u ∈ us, u.loc.isHost = false) →
      ∃ u, exec (.nestGroupComplete c) s = .next u ∧ u.gmem = (s.nestStore c n p a rows).gmem ∧
        (u.core c).cistern = ((s.nestStore c n p a rows).core c).cistern ∧ (u.core c).latch = a.latch ∧
        (u.core c).ngrp = r.grp + 1 ∧ (u.core c).aq = .nest { r with grp := r.grp + 1 } :: rest ∧
        (u.core c).tiles = k.tiles ∧ (u.core c).accs = k.accs ∧ (u.core c).sigs = k.sigs ∧
        ∃ b, (u.core c).nestBand = some b ∧
          (∀ j, j < 524288 → inBand 524288 j → b.getLsbD j = a.band.testBit (j % (if wide = true then 262144 else 131072))) ∧
          ∀ j, j < 128 → inBand 128 j →
            (u.core c).nestPoison.getLsbD j = a.poison.getLsbD (if wide = true then j % 64 / 2 else j % 32)) ∧
    (∀ e, s.nestGroup c r = .error e → exec (.nestGroupComplete c) s = .next s) ∧
    (running → n.groups ≤ r.grp → done .none 0 lastBand) ∧
    (¬ running → done .none 0x02 freeBand) ∧
    (∀ f, running → r.grp < n.groups → s.nestGroup c r = .error (.fault f) → done .none 0x01 freeBand) ∧
    (∀ pa, running → r.grp < n.groups → s.nestGroup c r = .error (.poison pa) → done .none 0x11 freeBand) ∧
    (r.grp < n.groups → ∃ t, exec (.nestComplete c .uncorrectable) s = .next t ∧ (t.core c).latch = none ∧ (t.core c).aq = rest ∧
      (t.core c).sigs[r.g.toNat].val = Spec.completion 0x10 (r.grp % 2 ^ 32)) ∧
    done .mismatch 0x20 freeBand
/-! ## Exact geometric predicates (spec/11) -/

/-- The nest from NSETL to its completion (R182 to R188). -/
def Obligations.NestCommands : Prop := Spec.NestIssues ∧ Spec.NestPredicatedOff ∧ Spec.NestStep ∧ Spec.NestRuns

/-- A geometry instruction: guard, destination, predicate and the registers it reads, in operand order (Table 11.1). -/
def Sys2Proof.Spec.geom (s : State) : Instr → Option (Guard × TDst × GeomKind × List SrcRef)
  | .orient2 g d a b c => some (g, d, .orient2, s.group a 2 ++ s.group b 2 ++ s.group c 2)
  | .orient3 g d a b c e => some (g, d, .orient3, s.group a 3 ++ s.group b 3 ++ s.group c 3 ++ s.group e 3)
  | .incirc g d a b c e => some (g, d, .incirc, s.group a 2 ++ s.group b 2 ++ s.group c 2 ++ s.group e 2)
  | .insph g d a b c e => some (g, d, .insph, s.group a 3 ++ s.group b 3 ++ s.group c 3 ++ s.group e 6)
  | .segx g d a b c e => some (g, d, .segx, s.group a 2 ++ s.group b 2 ++ s.group c 2 ++ s.group e 2)
  | _ => none

/-- Coordinates of a point of a predicate (Table 11.1). -/
def Sys2Proof.Spec.dim : GeomKind → Nat
  | .orient3 | .insph => 3
  | _ => 2

/-- Registers a predicate reads (Table 11.1). -/
def Sys2Proof.Spec.registers : GeomKind → Nat
  | .orient2 => 6
  | .orient3 => 12
  | .incirc | .segx => 8
  | .insph => 15

/-- EADDR of the first coordinate that is NaN or infinite, by lane, then point, then coordinate (R245). -/
def Sys2Proof.Spec.nonfinite (kind : GeomKind) (regs : List (BitVec 32768)) : Option Word :=
  (((List.range 512).flatMap fun i => regs.zipIdx.map fun r => (i, r)).find? fun r =>
      r.2.1.extractLsb' (64 * r.1 + 52) 11 = 0x7FF).map fun r =>
    .ofNat 64 (r.1 + 512 * (r.2.2 / Spec.dim kind) + 4096 * (r.2.2 % Spec.dim kind))

/-- The tiles as captured. -/
def Sys2Proof.Spec.tilesOf (vals : List RegVal) : List (BitVec 32768) := vals.map fun v => (tileOfVal v).1

/-- The state once a geometry instruction is in the exact sign unit: its sources captured and debited, its destination reserved,
EXEC in its issue interval (R243). -/
def Sys2Proof.Spec.geomIn (s : State) (c : CoreId) (x : StreamId) (srcs : List SrcRef) (kind : GeomKind) (d : TReg)
    (rdr : BitVec 3) : State :=
  let vals := captureAll s c srcs
  let k := (s.core c).debitAll x srcs
  let op : GeomOp := ⟨kind, Spec.tilesOf vals, sameRows vals, d, rdr, k.gmode.getLsbD 0, k.gmode.getLsbD 1, (s.stream c x).pc⟩
  (({ s with fresh := s.fresh + srcs.length }).modCore c fun k0 =>
    { ((k0.debitAll x srcs).handOn x [.tile d]).setCnt (.tile d) { k.cnt (.tile d) with rsv := true } with
      geom := k0.geom ++ [op], interval := .geom }).finishOn c x

/-- ORIENT2, ORIENT3, INCIRC, INSPH and SEGX, guarded true, with their sources ready: in FAULT mode a lane with a coordinate that is
not finite raises GEOM_NONFINITE before anything is read or debited; otherwise, with the destination to be written, the instruction
enters the exact sign unit. With two in it already the instruction waits, and GEOM_ACCEPT lets it on when there is room (R243, R245,
R282; the counter of free values is the model's own, assumption log 7). -/
def Sys2Proof.Spec.GeometryIssues : Prop :=
  ∀ (s : State) i g d kind srcs, Spec.geom s i = some (g, d, kind, srcs) → s.guard g = true → conflictIn srcs = none →
    let c := s.cur.1
    let x := s.cur.2
    let regs := Spec.tilesOf (captureAll s c srcs)
    (s.curCore.geom.length < 2 → s.curCore.evalSources srcs = .ready →
      (∀ e, s.curCore.gmode.getLsbD 1 = false → Spec.nonfinite kind regs = some e →
        exec i s = .next (s.trapOn c x 0x50 e)) ∧
      ((s.curCore.gmode.getLsbD 1 = true ∨ Spec.nonfinite kind regs = none) →
        Spec.writable ((s.curCore.debitAll x srcs).cnt (.tile d.reg)) →
        exec i s = .next (Spec.geomIn s c x srcs kind d.reg d.rdr))) ∧
    (2 ≤ s.curCore.geom.length → exec i s = .next (s.waitOn c x .otherWait (.geomRoom srcs kind d.reg d.rdr)) ∧
      ∀ (u : State) c, (u.core c).gated = false → (u.stream c .exec).pend = .geomRoom srcs kind d.reg d.rdr →
        (u.core c).geom.length < 2 → (u.core c).evalSources srcs = .ready → (u.core c).gmode.getLsbD 1 = true →
        Spec.writable (((u.core c).debitAll .exec srcs).cnt (.tile d.reg)) →
        exec (.geomAccept c) u = .next (Spec.geomIn u c .exec srcs kind d.reg d.rdr))

/-- A geometry instruction guarded false makes the write of R29, whatever the exact sign unit holds (R29, R243). -/
def Sys2Proof.Spec.GeometryPredicatedOff : Prop :=
  ∀ (s : State) i g d kind srcs, Spec.geom s i = some (g, d, kind, srcs) → s.guard g = false →
    Spec.emptyWrite s i (.tile d.reg) d.rdr

/-- GEOM_COMPLETE ends the oldest geometry instruction: byte i of its destination is the result of lane i for i below 512 and 0
above, result row j of 0 to 3 is poisoned by rows 8j to 8j + 7 of what was read and no other row is, the count advances, and the
instruction leaves the unit. A lane with a coordinate that is not finite reads 0x80; a finite lane of the four determinant predicates
with two equal points reads 0x28 (R242, R243, R246, R247, R253). -/
def Obligations.GeometryCompletes : Prop :=
  ∀ (s : State) c o rest, (s.core c).gated = false → (s.core c).geom = o :: rest →
    let regs := o.regs.map BitVec.toNat
    ∃ t, exec (.geomComplete c false) s = .next t ∧ s.memSame t ∧
      (t.core c).geom = rest ∧
      (t.core c).tiles[o.dst.toNat].cnt = ⟨(s.core c).tiles[o.dst.toNat].cnt.c + 1, if o.rdr = 7 then 0 else o.rdr,
        decide (o.rdr = 7), false, (s.core c).tiles[o.dst.toNat].cnt.bad⟩ ∧
      (∀ i, i < 512 → (t.core c).tiles[o.dst.toNat].val.extractLsb' (8 * i) 8 =
        .ofNat 8 (laneByte o.kind o.sym (lanePoints o.kind regs i))) ∧
      (∀ i, 512 ≤ i → i < 4096 → (t.core c).tiles[o.dst.toNat].val.extractLsb' (8 * i) 8 = 0) ∧
      (∀ j, (t.core c).tiles[o.dst.toNat].poison.getLsbD j = true ↔ j < 4 ∧ ∃ i, i < 8 ∧ o.poison.getLsbD (8 * j + i) = true) ∧
      (∀ r : TReg, r ≠ o.dst → (t.core c).tiles[r.toNat] = (s.core c).tiles[r.toNat]) ∧
      (o.regs.length = Spec.registers o.kind → ∀ i, i < 512 →
        ((∃ r ∈ o.regs, r.extractLsb' (64 * i + 52) 11 = 0x7FF) →
          laneByte o.kind o.sym (lanePoints o.kind regs i) = 0x80) ∧
        (o.kind ≠ .segx → (∀ r ∈ o.regs, r.extractLsb' (64 * i + 52) 11 ≠ 0x7FF) →
          hasEqual (lanePoints o.kind regs i) = true → laneByte o.kind o.sym (lanePoints o.kind regs i) = 0x28))

/-- GSTAT, guarded true, writes the lane counters or the status of the exact sign unit to s[D] and clears what it returns; it does
not wait (R255). -/
def Sys2Proof.Spec.GstatResult : Prop :=
  ∀ (s : State) g d, s.guard g = true →
    let n := s.curCore.gstat
    exec (.gstat g d false) s = .next (((s.modCore s.cur.1 fun k =>
        { k with gstat := { k.gstat with cnta := 0, cntb := 0, cntc := 0, cnts := 0 } }).ws d
      (.ofNat 64 (n.cnta.toNat + n.cntb.toNat * 2 ^ 16 + n.cntc.toNat * 2 ^ 32 + n.cnts.toNat * 2 ^ 48))).goto s.nextPc) ∧
    exec (.gstat g d true) s = .next (((s.modCore s.cur.1 fun k =>
        { k with gstat := { k.gstat with pck := false, nfs := false } }).ws d
      (.ofNat 64 (s.curCore.geom.length % 4 + n.pck.toNat * 4 + n.nfs.toNat * 8))).goto s.nextPc)

/-- The exact sign unit at issue, and its status (R243, R255). -/
def Obligations.GeometryUnit : Prop := Spec.GeometryIssues ∧ Spec.GeometryPredicatedOff ∧ Spec.GstatResult

/-! ## Pumps (spec/10 R214 to R228) -/

/-- The command a pump instruction issues, with its operands as the scalars hold them. -/
def Sys2Proof.Spec.command (s : State) (kind : PumpKind) (d : GDst) (o : OrdScp) (a b c : SReg) (e : Word) (esz : Nat)
    (iw scl : Bool) : PumpCmd :=
  ⟨kind, s.rs a, s.rs b, s.rs c, e, esz, iw, scl, d.reg, d.rdr, o, s.cur.2, s.pc, 0, false, []⟩

/-- A byte count Table 10.1 refuses: not a multiple of the element size, or of 2^32 elements or more. -/
def Sys2Proof.Spec.badBytes (n esz : Nat) : Prop := n % 2 ^ esz ≠ 0 ∨ 2 ^ 32 ≤ n / 2 ^ esz

/-- A pump instruction with the limits of Table 10.1 it breaks. -/
def Sys2Proof.Spec.pump (s : State) : Instr → Option (Guard × PumpCmd × Prop)
  | .pcopy g d o a b c z => some (g, Spec.command s .pcopy d o a b c 0 z.toNat false false,
      6 < z.toNat ∨ Spec.badBytes (s.rs c).toNat z.toNat)
  | .pgath g d o a b c e z iw => some (g, Spec.command s .pgath d o a b c (s.rs e) z.toNat iw false,
      6 < z.toNat ∨ 2 ^ 32 ≤ (s.rs e).toNat)
  | .pscat g d o a b c e z iw => some (g, Spec.command s .pscat d o a b c (s.rs e) z.toNat iw false,
      6 < z.toNat ∨ 2 ^ 32 ≤ (s.rs e).toNat)
  | .pfill g d o a b c z => some (g, Spec.command s .pfill d o a b c 0 z.toNat false false,
      3 < z.toNat ∨ Spec.badBytes (s.rs c).toNat z.toNat)
  | .pwld g d o a b c e => some (g, Spec.command s .pwld d o a b c ((e.map s.rs).getD 0) 9 false e.isSome,
      let off := (s.rs a).toNat % 2 ^ 20
      let scale := (s.rs a).toNat / 2 ^ 20 % 2 ^ 20
      let n := (s.rs c).toNat
      2 ^ 40 ≤ (s.rs a).toNat ∨ n = 0 ∨ 2048 < n ∨ off % 512 ≠ 0 ∨ 2 ^ 20 < off + 512 * n ∨
        e.isSome = true ∧ 2 ^ 20 < scale + n)
  | .prem g d o a b c e z => some (g, Spec.command s .prem d o a b c (s.rs e) z.toNat false false,
      6 < z.toNat ∨ Spec.badBytes (s.rs c).toNat z.toNat ∨ 2 ^ 16 ≤ (s.rs e).toNat)
  | _ => none

/-- Entries of the pump queue in use are fewer than the limit, 0 standing for 16 (R214). -/
def Sys2Proof.Spec.pumpRoom (k : Core) : Prop :=
  let one := fun (p : Pump) => match p with
    | .running _ _ _ => 1
    | _ => 0
  k.pumpq.length + one k.pump0 + one k.pump1 < if k.pqlim = 0 then 16 else k.pqlim.toNat

/-- The state once a command is in the queue: its register reserved and the entry taken in one step (R215). A WLATCH or a nest that waits or
is queued races with the ranges a PWLD writes (R48). The note of who has appended in this cycle, in stream-code order, is the model's
own (assumption log 5). -/
def Sys2Proof.Spec.queued (s : State) (c : CoreId) (x : StreamId) (m : PumpCmd) : State :=
  ((s.modCore c fun k => { ((k.handOn x [.sig m.g]).setCnt (.sig m.g) { k.cnt (.sig m.g) with rsv := true }).raceLatches m.weightRuns with
    pumpq := k.pumpq ++ [m] }).finishOn c x).takeTurn (.append c) (codeOf x)

/-- PCOPY, PGATH, PSCAT, PFILL, PWLD and PREM, guarded true: a limit of Table 10.1 broken raises RESERVED_FIELD with nothing taken
or reserved; otherwise, with the register to be written, the command enters the queue if it has room and no stream of lower code
waits for an entry too, and else the stream waits in OTHER_WAIT until PUMP_QUEUE_ROOM lets it enter. Guarded false, each makes the
write of R29 (R214, R215, R217, R29). -/
def Obligations.PumpIssues : Prop :=
  ∀ (s : State) i g m bad, Spec.pump s i = some (g, m, bad) →
    let c := s.cur.1
    let x := s.cur.2
    (s.guard g = false → Spec.emptyWrite s i (.sig m.g) m.rdr) ∧
    (s.guard g = true → bad → exec i s = .next (s.trapOn c x 0x02 (.ofNat 64 s.pc.toNat))) ∧
    (s.guard g = true → ¬ bad → Spec.writable (s.curCore.cnt (.sig m.g)) →
      (Spec.pumpRoom s.curCore → s.curCore.appendBehind x = false → exec i s = .next (Spec.queued s c x m)) ∧
      (¬ (Spec.pumpRoom s.curCore ∧ s.curCore.appendBehind x = false) →
        exec i s = .next (s.waitOn c x .otherWait (.dst (.sig m.g) m.rdr [] (.pump m))))) ∧
    ∀ (u : State) c x, (u.core c).gated = false → (u.stream c x).st = .otherWait →
      (u.stream c x).pend = .dst (.sig m.g) m.rdr [] (.pump m) → Spec.writable ((u.core c).cnt (.sig m.g)) →
      Spec.pumpRoom (u.core c) → (u.core c).appendBehind x = false → exec (.pumpQueueRoom c x) u = .next (Spec.queued u c x m)

/-- A core whose pump has ended a command with some readers and a completion word: the register is written, the pump is free, and a
PWLD is noted as ordered before nothing until its count is read (R221, R48; the note is the model's own, assumption log 28). -/
def Sys2Proof.Spec.wordWritten (k : Core) (second : Bool) (m : PumpCmd) (rdr : BitVec 3) (status units : Nat) : Core :=
  let t := k.completeWrite (.sig m.g) rdr (.sig (Spec.completion status (units % 2 ^ 32)))
  { t with landed := if m.kind = PumpKind.pwld then ⟨m.g, (t.cnt (.sig m.g)).c, m.weightRuns, [], []⟩ :: t.landed else t.landed }.setPump second .idle

/-- A pump has come free in this cycle, before any take (R367; the note of it is the model's own, assumption log 5). -/
def Sys2Proof.Spec.freed (s : State) (c : CoreId) : State := s.takeTurn (.take c) 0

/-- PRESUME and PCANCEL, guarded true, with no command parked on gD raise PUMP_QUEUE_ERROR with EADDR 1. With one, and gD to be
written, PRESUME puts it at the head of the queue to restart where it parked with the readers it names, or waits for an entry, and
PCANCEL, once the stream's accesses before it have been performed, writes its completion word ABANDONED with the units done, and the
bytes of the unit it stood at become unpredictable; both free its pump. PQSTAT reads the queue and the fault records (R222, R224 to
R226, R37). -/
def Sys2Proof.Spec.ParkedCommands : Prop :=
  ∀ (s : State) g, s.guard g = true →
    let c := s.cur.1
    let x := s.cur.2
    (∀ d : GDst, s.curCore.parkedOn d.reg = none →
      exec (.presume g d) s = .next (s.trapOn c x 0x61 1) ∧ exec (.pcancel g d) s = .next (s.trapOn c x 0x61 1)) ∧
    (∀ (d : GDst) second m u, s.curCore.parkedOn d.reg = some (second, m, u) → Spec.writable (s.curCore.cnt (.sig d.reg)) →
      (Spec.pumpRoom s.curCore → s.curCore.appendBehind x = false →
        exec (.presume g d) s = .next (((Spec.freed (s.modCore c fun k =>
          { (k.handOn x [.sig d.reg]).setCnt (.sig d.reg) { k.cnt (.sig d.reg) with rsv := true } with
            pumpq := { m with rdr := d.rdr, start := u, scaled := false } :: k.pumpq }.setPump second .idle) c).finishOn
          c x).takeTurn (.append c) (codeOf x))) ∧
      (¬ (Spec.pumpRoom s.curCore ∧ s.curCore.appendBehind x = false) →
        exec (.presume g d) s = .next (s.waitOn c x .otherWait (.dst (.sig d.reg) d.rdr [] .presume))) ∧
      (Spec.quiet s → exec (.pcancel g d) s = .next ((Spec.freed (((s.modCore c fun k => k.handOn x [.sig d.reg]).scramble c m
        u).modCore c fun k => Spec.wordWritten k second m d.rdr 0x02 u) c).finishOn c x))) ∧
    (∀ d sel, ∃ t, exec (.pqstat g d sel) s = .next t ∧ s.scalarWritten t d
      (let k := s.curCore
       let busy := fun (p : Pump) => match p with
         | .running _ _ _ => 1
         | _ => 0
       let park := fun (p : Pump) => match p with
         | .parked m _ _ _ _ => (1, m.g.toNat)
         | _ => (0, 0)
       let record := fun (p : Pump) => match p with
         | .parked _ _ va cause w => va.toNat + cause.toNat * 2 ^ 56 + w.toNat * 2 ^ 63
         | _ => 0
       .ofNat 64 (match sel with
         | 0 => (k.pumpq.length + busy k.pump0 + busy k.pump1) % 32 + k.pqlim.toNat * 2 ^ 5 + busy k.pump0 * 2 ^ 10 +
           busy k.pump1 * 2 ^ 11 + (park k.pump0).1 * 2 ^ 12 + (park k.pump1).1 * 2 ^ 13 + (park k.pump0).2 * 2 ^ 16 +
           (park k.pump1).2 * 2 ^ 21
         | 1 => record k.pump0
         | 2 => record k.pump1)))

/-- PRESUME and PCANCEL guarded false make the write of R29 (R224, R225). -/
def Sys2Proof.Spec.ParkedPredicatedOff : Prop :=
  ∀ (s : State) g (d : GDst), s.guard g = false →
    Spec.emptyWrite s (.presume g d) (.sig d.reg) d.rdr ∧ Spec.emptyWrite s (.pcancel g d) (.sig d.reg) d.rdr

/-- The register of a command has taken its completion word and one more count. -/
def Sys2Proof.Spec.ended (s t : State) (c : CoreId) (m : PumpCmd) (status units : Nat) : Prop :=
  (t.core c).sigs[m.g.toNat].val = Spec.completion status (units % 2 ^ 32) ∧
    (t.core c).sigs[m.g.toNat].cnt.c = (s.core c).sigs[m.g.toNat].cnt.c + 1

/-- The unit of PCOPY, PGATH, PSCAT, PFILL or PREM at a number: where it reads its index, its source and where it writes, its
addresses modulo 2^51 (Table 10.1, R217). -/
def Sys2Proof.Spec.unitAddrs (m : PumpCmd) (j idx : Nat) : VAddr × VAddr :=
  let at_ := fun (base : Word) (i : Nat) => (.ofNat 51 (base.toNat + 2 ^ m.esz * i) : VAddr)
  (at_ m.b (if m.kind = .pgath then idx else j), at_ m.a (if m.kind = .pscat then idx else j))

/-- A place in the cistern or in the device's own memory where an access of n bytes lies whole. -/
def Sys2Proof.Spec.whole (n : Nat) : Loc → Prop
  | .cistern off => off + n ≤ 0x200000
  | .phys pa => ∀ i, i < n → inDram (pa + i) = true
  | _ => False

/-- What a unit moves where it reads its index, its source and its destination in the cistern or the device's own memory, none of
them poisoned, and writes nothing of its own source range: PCOPY, PGATH, PSCAT and PREM on this device store the bytes of the source
at the destination, PFILL the low bytes of its value; PGATH and PSCAT take their source, or their destination, at the index; nothing
but the destination changes. Block j of a PWLD goes to OFF + 512 j of the weight buffer, and its scales, before block 0, to theirs
(Table 10.1, R216 to R219). -/
def Sys2Proof.Spec.UnitMoves : Prop :=
  ∀ (s : State) c (m : PumpCmd) j,
    let place := fun (kind : AccKind) (size : Nat) (planed : Bool) (va : VAddr) (l : Loc) =>
      s.checkUnit ⟨c, ⟨(s.core c).partId, (s.core c).pasid, false, kind⟩, size, size, planed, true, false⟩ va = .ok l ∧
        Spec.whole size l
    let clean := fun (l : Loc) (n : Nat) => ∀ i, i < n → Spec.badAt s c (l.plus i) = false
    let iw := if m.iw = true then 8 else 4
    let n := 2 ^ m.esz
    (∀ idx src dst, m.kind ≠ .pwld → m.saved = [] → m.esz ≤ 6 →
      (m.kind = .pgath ∨ m.kind = .pscat → ∃ l, place .read iw false (.ofNat 51 (m.c.toNat + iw * j)) l ∧ clean l iw ∧
        idx = ((List.range iw).map fun i => (Spec.byteAt s c (l.plus i)).toNat * 256 ^ i).sum) →
      (m.kind ≠ .pfill → place .read n false (Spec.unitAddrs m j idx).1 src ∧ clean src n) →
      place .write n false (Spec.unitAddrs m j idx).2 dst →
      (∀ i, i < n → s.inSource c m ((Spec.unitAddrs m j idx).2 + .ofNat 51 i) = false) →
      ∃ t m', s.localUnit c m j = .ok (t, m') ∧ m' = m ∧
        let byte := fun (i : Nat) => if m.kind = .pfill then (.ofNat 8 (m.b.toNat / 256 ^ i) : Byte) else Spec.byteAt s c (src.plus i)
        (∀ a, (t.core c).cistern.bytes.read a = match dst with
          | .cistern off => if off ≤ a ∧ a < off + n then byte (a - off) else (s.core c).cistern.bytes.read a
          | _ => (s.core c).cistern.bytes.read a) ∧
        (∀ a, t.readByte (s.corePart c) a = match dst with
          | .phys pa => if pa ≤ a ∧ a < pa + n then byte (a - pa) else s.readByte (s.corePart c) a
          | _ => s.readByte (s.corePart c) a) ∧
        (t.core c).wbuf = (s.core c).wbuf) ∧
    (∀ src, m.kind = .pwld → m.scl = false ∨ m.scaled = true ∨ j ≠ 0 →
      let va : VAddr := .ofNat 51 (m.b.toNat + 512 * j)
      va.toNat + 512 ≤ 0x7FFFFFC000000 → place .read 512 true va src → clean src 512 →
      let off := m.a.toNat % 2 ^ 20 + 512 * j
      ∃ b, s.localUnit c m j = .ok (s.modCore c fun k => { k with wbuf := b }, m) ∧ Spec.cleaned (s.core c).wbuf b off 512 ∧
        ∀ a, b.bytes.read a = if off ≤ a ∧ a < off + 512 then Spec.byteAt s c (src.plus (a - off))
          else (s.core c).wbuf.bytes.read a) ∧
    (∀ src : Nat → Loc, m.kind = .pwld → m.scl = true → m.scaled = false → j = 0 → 0 < m.c.toNat → m.c.toNat ≤ 2048 →
      let va := fun (i : Nat) => (.ofNat 51 (m.e.toNat + i) : VAddr)
      m.e.toNat % 2 ^ 51 + m.c.toNat ≤ 0x7FFFFFC000000 →
      Spec.governs s (s.core c).partId (va 0).toNat = Spec.governs s (s.core c).partId (va (m.c.toNat - 1)).toNat →
      (∀ i, i < m.c.toNat → place .read 1 false (va i) (src i) ∧ Spec.badAt s c (src i) = false) →
      let off := m.a.toNat / 2 ^ 20 % 2 ^ 20
      ∃ b, s.localUnit c m 0 = .ok (s.modCore c fun k => { k with wbuf := b }, { m with scaled := true }) ∧
        ∀ a, b.bytes.read a = if off ≤ a ∧ a < off + m.c.toNat then Spec.byteAt s c (src (a - off))
          else (s.core c).wbuf.bytes.read a)

/-- PUMP_TAKE_COMMAND gives the oldest entry to a free pump, pump 0 before pump 1, after what its stream issued before; where both
are free, pump 0 takes it and pump 1 the next;
PUMP_COMMAND_END of a command whose units are all done writes OK; after an uncorrectable error met at the source of a unit whose
addresses pass their checks it writes UNCORRECTABLE, or POISON where that source is host memory, after a checker mismatch MISMATCH, and where the next unit meets poison or a lost
target the code of each, with the units done; a command that reads no source, or reads under a ZERO aperture, meets no such error; PREM_UNIT_ACK counts a unit that
its target has acknowledged and that carried no poison; the units of a command move what Table 10.1 says; PUMP_PARK of a command whose next unit fails an address check writes FAULT_PENDING and keeps the command with its
fault record (R216, R217, R221, R222, R227, R367). -/
def Sys2Proof.Spec.PumpProgress : Prop :=
  Spec.UnitMoves ∧ ∀ (s : State) c p, (s.core c).gated = false →
    (∀ m rest, (s.core c).pump p = .idle → (s.core c).pump (!p) ≠ .idle →
      (s.core c).pumpq = m :: rest → Spec.quietOn s c m.x →
      exec (.pumpTakeCommand c p) s = .next ((s.modCore c fun k => { k with pumpq := rest }.setPump p
        (.running m m.start none)).takeTurn (.take c) 1)) ∧
    (∀ m rest, (s.core c).pump0 = .idle → (s.core c).pump1 = .idle → (s.core c).pumpq = m :: rest →
      Spec.quietOn s c m.x → (∀ q, rest.head? = some q → Spec.quietOn s c q.x) →
      exec (.pumpTakeCommand c p) s = .next ((s.modCore c fun k =>
        { k with pumpq := rest.tail, pump0 := .running m m.start none,
                 pump1 := match rest with
                   | q :: _ => .running q q.start none
                   | [] => .idle }).takeTurn (.take c) 1)) ∧
    (∀ m u, (s.core c).pump p = .running m u none → m.units ≤ u →
      exec (.pumpCommandEnd c p .none) s = .next (Spec.freed (s.modCore c fun k => Spec.wordWritten k p m m.rdr 0 u) c)) ∧
    (∀ m u, (s.core c).pump p = .running m u none → u < m.units →
      (∀ l, s.unitSource c m u = some l → l.isMemory = true → ∃ t, exec (.pumpCommandEnd c p .uncorrectable) s = .next t ∧
        Spec.ended s t c m (if l.isHost = true then 0x11 else 0x10) u ∧ (t.core c).pump p = .idle) ∧
      (∀ l, s.unitSource c m u = some l → l.isMemory = false → exec (.pumpCommandEnd c p .uncorrectable) s = .next s) ∧
      (m.kind = .pfill ∨ s.unitSource c m u = none → exec (.pumpCommandEnd c p .uncorrectable) s = .next s)) ∧
    (∀ m u dev seq o v, (s.core c).pump p = .running m u (some (dev, seq)) → s.fabric.outPkt dev seq = some o →
      carriesPoison o.full = false → o.ack = some (.ok v) → ∃ t, exec (.premUnitAck c p) s = .next t ∧ (t.core c).pump p = .running m (u + 1) none ∧
        s.memSame t) ∧
    (∀ m u sent, (s.core c).pump p = .running m u sent → ∃ t, exec (.pumpCommandEnd c p .mismatch) s = .next t ∧
      Spec.ended s t c m 0x20 u ∧ (t.core c).pump p = .idle) ∧
    (let n := s.pumpAhead c p
     ∀ m u sent code stop, (n.core c).pump p = .running m u sent → u < m.units → n.pumpStop c p m u sent = some stop →
      ((∃ pa, stop = .poison pa) ∧ code = 0x11 ∨ stop = .lost ∧ code = 0x12) →
      ∃ t, exec (.pumpCommandEnd c p .none) s = .next t ∧ Spec.ended n t c m code u ∧ (t.core c).pump p = .idle) ∧
    (let n := s.pumpAhead c p
     ∀ m u sent va cause w, (n.core c).pump p = .running m u sent →
      n.pumpStop c p m u sent = some (.park va cause w) → ∃ t, exec (.pumpPark c p) s = .next t ∧
        Spec.ended n t c m 0x01 u ∧ (t.core c).pump p = .parked m u va cause w)

/-- A pump command from its queue to its completion (R216 to R225). -/
def Obligations.PumpCommands : Prop := Spec.ParkedCommands ∧ Spec.ParkedPredicatedOff ∧ Spec.PumpProgress

/-! ## Semaphores, fences and barriers (spec/10 R229 to R237) -/

/-- A semaphore operation but SEMWT: guard, kind, ordering, destination, handle and operands (Table 10.3). -/
def Sys2Proof.Spec.sem (s : State) : Instr → Option (Guard × SemKind × OrdScp × SReg × SReg × Word × Word)
  | .semadd g o d a b => some (g, .add, o, d, a, s.rs b, 0)
  | .semswp g o d a b => some (g, .swp, o, d, a, s.rs b, 0)
  | .semcas g o d a b c => some (g, .cas, o, d, a, s.rs b, s.rs c)
  | .semmax g o d a b u => some (g, if u then .maxu else .max, o, d, a, s.rs b, 0)
  | .semld g o d a => some (g, .ld, o, d, a, 0, 0)
  | _ => none

/-- A semaphore operation, guarded true, raises BAD_HANDLE for a handle that breaks R49 or R50 and PEER_LOST for another device that
cannot be reached, each with EADDR s[A]; otherwise it is in progress on its cell, or in a packet to the other device, and its stream
issues nothing further; its packet waits while the failed port of its flow is not resolved (R382). SEMWT does the same in OTHER_WAIT, with a hold on its cell that has begun if the cell satisfies it already,
or asks the other device for the value (R229 to R231, R234). -/
def Sys2Proof.Spec.SemaphoreIssues : Prop :=
  ∀ (s : State), Spec.quiet s →
    let c := s.cur.1
    let x := s.cur.2
    (∀ i g kind o d a b cmp, Spec.sem s i = some (g, kind, o, d, a, b, cmp) → s.guard g = true →
      let op : SemOp := ⟨kind, s.rs a, .remote 0, d, b, cmp, o, none, none⟩
      (s.resolve c (s.rs a) = .bad → exec i s = .next (s.trapOn c x 0x27 (s.rs a))) ∧
      (∀ t n, s.resolve c (s.rs a) = .cell t n →
        exec i s = .next (s.waitOn c x .running (.sem { op with target := .cell t n }))) ∧
      (∀ dev, s.resolve c (s.rs a) = .remote dev →
        let sent := s.sendPacket c dev (releases o) (.sem c x) (.sem kind (s.rs a) b cmp)
        (sent = .lost → exec i s = .next (s.trapOn c x 0x25 (s.rs a))) ∧
        (sent = .held → exec i s = .next (s.waitOn c x .running (.sem { op with target := .remote dev }))) ∧
        ∀ u q, sent = .sent u q →
          exec i s = .next (u.waitOn c x .running (.sem { op with target := .remote dev, seq := some q })))) ∧
    (∀ g o d a b cond, s.guard g = true →
      (s.resolve c (s.rs a) = .bad → exec (.semwt g o d a b cond) s = .next (s.trapOn c x 0x27 (s.rs a))) ∧
      (∀ t n, s.resolve c (s.rs a) = .cell t n →
        exec (.semwt g o d a b cond) s = .next ({ s with
          watches := s.watches ++ [(⟨c, x, t, n, cond, s.rs b,
            if condHolds cond (s.cell t n) (s.rs b) then some (s.view c) else none, s.cell t n⟩ : Watch)] }.waitOn c x .otherWait
          (.semwt (⟨s.rs a, .cell t n, cond, d, s.rs b, o, none⟩ : SemWait)))) ∧
      (∀ dev, s.resolve c (s.rs a) = .remote dev →
        let sent := s.sendPacket c dev (releases o) (.sem c x) (.sem .ld (s.rs a) 0 0)
        (sent = .lost → exec (.semwt g o d a b cond) s = .next (s.trapOn c x 0x25 (s.rs a))) ∧
        (sent = .held → exec (.semwt g o d a b cond) s = .next (s.waitOn c x .otherWait
          (.semwt (⟨s.rs a, .remote dev, cond, d, s.rs b, o, none⟩ : SemWait)))) ∧
        ∀ u q, sent = .sent u q → exec (.semwt g o d a b cond) s = .next (u.waitOn c x .otherWait
          (.semwt (⟨s.rs a, .remote dev, cond, d, s.rs b, o, some q⟩ : SemWait)))))

/-- What a cell holds after an operation (Table 10.3). -/
def Sys2Proof.Spec.semValue (kind : SemKind) (old b cmp : Word) : Word :=
  match kind with
  | .add => .ofNat 64 (old.toNat + b.toNat)
  | .swp => b
  | .cas => if old = b then cmp else old
  | .max => if old.toInt < b.toInt then b else old
  | .maxu => if old.toNat < b.toNat then b else old
  | .ld => old

/-- SEM_OP_PERFORM gives the cell the value of Table 10.3 and the operation the old value, and changes no other cell and no memory,
where no operation that comes after it in the order of the cycle, by core and then stream, has been performed on the cell in this
tick; the host's operations likewise. SEM_OP_RESULT writes the old value to s[D], and the stream goes on. SEMWT_HOLD_EXPIRE ends a SEMWT
whose cell has held satisfying values for 64 ticks, with the value last read, and does nothing sooner; an acquire takes the order that was released on the cell (R229 to R233). -/
def Sys2Proof.Spec.SemaphoreOps : Prop :=
  ∀ (s : State) c x, (s.core c).gated = false →
    (∀ o n i, (s.stream c x).pend = .sem o → o.target = .cell n i → o.result = none → (s.core n).gated = false →
      s.mayTurn n i (4 * c.val + codeOf x) = true → ∃ t, exec (.semOpPerform (.stream c x) false) s = .next t ∧
        (∀ n' i', t.cell n' i' = if n' = n ∧ i' = i then Spec.semValue o.kind (s.cell n i) o.b o.c else s.cell n' i') ∧
        (t.stream c x).pend = .sem { o with result := some (s.cell n i) } ∧ s.memSame t) ∧
    (∀ n i kind b cmp, (s.core n).gated = false → s.boot.stage ≠ .minimal →
      ∃ t, exec (.semOpPerform (.host n i kind b cmp) false) s = .next t ∧
        (∀ n' i', t.cell n' i' = if n' = n ∧ i' = i then Spec.semValue kind (s.cell n i) b cmp else s.cell n' i') ∧
        leNat t.hostRead = (s.cell n i).toNat ∧ s.memSame t) ∧
    (∀ o n i v, (s.stream c x).pend = .sem o → o.target = .cell n i → o.result = some v → (x = .ctrl → (s.core c).held = []) →
      exec (.semOpResult c x) s = .next ((s.modCore c fun k => k.writeS x o.d v).finishOn c x)) ∧
    (∀ w n i q t, (s.stream c x).pend = .semwt w → w.target = .cell n i → s.watchOf c x = some q → q.since = some t →
      (s.core q.core).gated = false →
      (t + 64 ≤ s.view c → exec (.semwtHoldExpire c x) s =
        .next (((s.dropWatch c x).modCore c fun k =>
          (k.writeS x w.d q.val).orderCell x (acquires w.o) false n i).finishOn c x)) ∧
      (s.view c < t + 64 → exec (.semwtHoldExpire c x) s = .next s))

/-- Semaphore operations from issue to the cell and back (R229 to R234). -/
def Obligations.Semaphores : Prop := Spec.SemaphoreIssues ∧ Spec.SemaphoreOps

/-- FENCE, guarded true, completes with every store that precedes a releasing one performed; with nothing to perform it changes
nothing. BAR at core scope completes at once and counts one barrier; at another scope CTRL arrives and waits in OTHER_WAIT.
BAR_COMPLETE lets a core on once every participant has arrived (R235 to R237). -/
def Obligations.FencesAndBarriers : Prop :=
  ∀ (s : State) g, s.guard g = true →
    (∀ o, ∃ t, exec (.fence g o) s = .next t ∧ t.pc = s.nextPc ∧ (releases o = true → t.curStream.stores = [])) ∧
    (∀ o, Spec.quiet s → ∃ t, exec (.fence g o) s = .next t ∧ s.continues t s.nextPc) ∧
    (∀ ar b, s.cur.2 = .ctrl → Spec.quiet s →
      let i := barIdx b
      let n := s.curCore.barOrd[i]
      ∃ t, exec (.bar g ar b) s = .next t ∧
        (s.curCore.barArr[i] = n → t.curCore.barArr = s.curCore.barArr.set i (n + 1)) ∧
        (b = .core → t.curCore.barOrd = s.curCore.barOrd.set i (n + 1) ∧ t.pc = s.nextPc ∧
          t.curStream.pend = s.curStream.pend) ∧
        (b ≠ .core → t.curCore.barOrd = s.curCore.barOrd ∧ (t.stream s.cur.1 .ctrl).st = .otherWait ∧
          (t.stream s.cur.1 .ctrl).pend = .bar b n) ∧ s.memSame t) ∧
    (∀ c b n t, (s.core c).gated = false → (s.core c).ctrl.pend = .bar b n → (s.core c).task = some t →
      s.barDone t b n = true → ∃ u, exec (.barComplete c) s = .next u ∧
        (u.core c).ctrl = (s.core c).ctrl.finish ∧ (u.core c).barOrd = (s.core c).barOrd.set (barIdx b) (n + 1) ∧
        s.memSame u)

/-! ## What comes about inside a core (spec/95, spec/01 R16, R33, spec/04 R98, spec/20 R338, spec/26 R404) -/

/-- A count state that has failed is never used again: every source and every destination of its register raises
ECC_UNCORRECTABLE with STRUCT 0x02 and the register in EADDR: CRD, CWAIT and CADV, and each instruction of the vector unit, before
it waits and with nothing of it performed: a source before the destination, and what the sources were debited is given back by the
trap (R404, R31; which of several failing sources EADDR names is the model's choice, assumption log 28). -/
def Sys2Proof.Spec.FailingCountsRaise : Prop :=
  ∀ (s : State),
    let c := s.cur.1
    let x := s.cur.2
    let bad := fun (r : CReg) => (s.curCore.cnt r).bad = true
    let eaddr := fun (r : CReg) => (.ofNat 64 (2 * 2 ^ 56 + (Spec.countEaddr r 0).toNat) : Word)
    (∀ r, bad r →
      (∀ g d, s.guard g = true → exec (.crd g d r) s = .next (s.trapOn c x 0x72 (eaddr r))) ∧
      (∀ g b off, s.guard g = true → exec (.cwait g r b off) s = .next (s.trapOn c x 0x72 (eaddr r))) ∧
      (∀ g rdr, exec (.cadv g r rdr) s = .next ((s.waitOn c x .running (.dst r rdr [] .count)).trapOn c x 0x72 (eaddr r)))) ∧
    ∀ i v, Spec.vec s i = some v → s.guard v.g = true → Spec.maskFree s v → Spec.rowMask s v ≠ 0 → conflictIn v.srcs = none →
      ((∃ q ∈ v.srcs, bad q.x) → ∃ q ∈ v.srcs, bad q.x ∧ exec i s = .next (s.trapOn c x 0x72 (eaddr q.x))) ∧
      (s.curCore.evalSources v.srcs = .ready → bad v.dst →
        let result := vecData v.fn (Spec.rowMask s v) (captureAll s c v.srcs)
        exec i s = .next (((({ s with fresh := s.fresh + v.srcs.length }.modCore c fun k => k.debitAll x v.srcs)).waitOn c x .running
          (.dst v.dst v.rdr (s.curCore.debitsOf v.srcs) (.vec result.1 result.2))).trapOn c x 0x72 (eaddr v.dst)))

/-- INSTRUCTION_FETCH puts the next word of a stream that may issue into its buffer and the cache. WATCHDOG_EXPIRE, 2^20 ticks of
its view after the condition of R33 came to hold, raises COUNT_DEADLOCK on the waiting stream of lowest code with EADDR 0 and the
dump of R34, and does nothing sooner. TRAP_DELIVERY takes a held trap once CTRL may take it. An uncorrectable error of state is
recorded, and raised on CTRL while that runs where no instruction was reading the state, on the stream whose next instruction reads
it, or of the instruction that waits in it and reads it, otherwise; a count state is marked, and raised at every later use of its
register (R98, R33, R338, R401, R404; the cache is the model's, assumption log 10). -/
def Obligations.CoreEvents : Prop :=
  Spec.FailingCountsRaise ∧ ∀ (s : State) c, (s.core c).gated = false →
    (∀ x uc f i, (s.core c).canIssue x = true → (s.stream c x).breaks = false → s.fetchFor c x uc = .ok f → decodeAt x f.word = .instr i →
      exec (.instructionFetch c x uc) s =
        .next (s.modCore c fun k => (k.modStream x fun v => { v with ibuf := some f }).fillCache x f)) ∧
    (∀ t, (s.core c).wdSince = some t → Spec.deadlocked (s.core c) →
      (s.view c < t + 2 ^ 20 → exec (.watchdogExpire c) s = .next s) ∧
      (t + 2 ^ 20 ≤ s.view c → ∀ x, (s.stream c x).st = .countWait →
        (∀ y, Spec.code y < Spec.code x → (s.stream c y).st ≠ .countWait) →
        exec (.watchdogExpire c) s = .next ((s.modCore c fun k => { k with
          wdSince := none
          dlwait := #v[k.dump .load, k.dump .exec, k.dump .store, k.dump .ctrl] }).trapOn c x 0x12 0))) ∧
    (∀ r, (s.core c).held = [r] → (s.core c).hl = 0 → (s.core c).ctrlEsc = false → (s.core c).ctrlBusy = false →
      exec (.trapDelivery c) s = .next ((s.modCore c fun k => { k with held := [] }).deliver c r)) ∧
    (∀ what, let ea := eccEaddr (Config.freeWord s.fresh) what
      let noted := fun (pc : VAddr) => ((s.coreRecord 6 c ea.toNat pc 0).modCore c fun k => k.failCount what).useFresh
      exec (.eccUncorrectable c none what) s =
        .next (if (s.core c).ctrl.st = .idle then noted 0 else (noted 0).asyncTrap c 0x72 ea) ∧
      ∀ x, ((∃ r, what = .count r) → exec (.eccUncorrectable c (some x) what) s = .next (noted (s.stream c x).pc)) ∧
        ((∀ r, what ≠ .count r) → s.waitReads c x what = true →
          exec (.eccUncorrectable c (some x) what) s =
            .next (((noted (s.stream c x).pc).dropWatch c x).trapOn c x 0x72 ea)) ∧
        ∀ u i, (∀ r, what ≠ .count r) → s.waitReads c x what = false → s.prepare c x false = (u, some i) →
          u.readsState i what = true →
          exec (.eccUncorrectable c (some x) what) s =
            .next ((((u.coreRecord 6 c ea.toNat (s.stream c x).pc 0).modCore c fun k => k.failCount what).useFresh).trapOn c x
              0x72 ea))

/-- A core's task state is zero (R14, R284): the tiles, accumulators and signals with their counts and poison, the scalars,
predicates and count bases of every stream, the mask registers, the tag table and the task cells; a count state that has failed stays
so (R404), and partition cells keep their values (R51). -/
def Sys2Proof.Spec.taskZero (old new : Core) : Prop :=
  (∀ r : TReg, new.tiles[r.toNat] = { Tile.zero with cnt := { Count.zero with bad := old.tiles[r.toNat].cnt.bad } }) ∧
    (∀ r : AReg, new.accs[r.toNat] = { Acc.zero with cnt := { Count.zero with bad := old.accs[r.toNat].cnt.bad } }) ∧
    (∀ r : GReg, new.sigs[r.toNat] = { Sig.zero with cnt := { Count.zero with bad := old.sigs[r.toNat].cnt.bad } }) ∧
    (∀ x, (new.stream x).s = Vector.replicate 32 0 ∧ (new.stream x).p = Vector.replicate 8 false ∧
      (new.stream x).k = Vector.replicate 7 0) ∧
    new.m = Vector.replicate 8 0 ∧ new.tags = Vector.replicate 512 0 ∧
    ∀ i, (new.cells.get? i).getD 0 = if i < 3840 then 0 else (old.cells.get? i).getD 0

/-- TASK_RETIRE of a role whose streams are ENDED and whose engines are idle records it, with the word role 0 posted as the node's
result; while others of its gang go on its streams are IDLE and its task state is zero, the cistern and the weight buffer as they were;
the last role makes the node RETIRED and frees its cores. HOST_ABANDON ends every node of its launch (R16, R18, R45,
R284, R330, R348). -/
def Obligations.NodesEnd : Prop :=
  ∀ (s : State),
    (∀ c, let k := (s.core c).retireRole
      (∀ x, (k.stream x).st = .idle ∧ (k.stream x).pend = .none) ∧ k.task = (s.core c).task ∧ k.cistern = (s.core c).cistern ∧
        k.wbuf = (s.core c).wbuf ∧ Spec.taskZero (s.core c) k) ∧
    (∀ c t n, (s.core c).task = some t → (s.core c).taskDone = true → (s.core c).gated = false → s.node t.key = some n →
      n.retired.contains t.role = false →
      let m := { n with retired := n.retired ++ [t.role], result := if t.role = 0 then (s.core c).posted else n.result }
      (m.retired.length ≠ n.gsize → exec (.taskRetire c) s = .next ((s.modNode t.key fun m =>
        { m with retired := m.retired ++ [t.role], result := if t.role = 0 then (s.core c).posted else m.result }).modCore c
          Core.retireRole)) ∧
      (m.retired.length = n.gsize → ∃ u d, exec (.taskRetire c) s = .next u ∧ u.node t.key = some d ∧ d.st = .retired ∧
        d.aband = false ∧ d.result = m.result ∧ ∀ c' ∈ n.cores, (u.core c').task = none)) ∧
    (∀ q seq, ∃ u, exec (.hostAbandon q seq) s = .next u ∧
      ∀ k d, k.queue = q → k.seq = seq → u.node k = some d → d.over = true)

/-! ## The host's answers (spec/20 R339, spec/23 R376) -/

/-- An answer that names no pending escalation is ignored and counted. RETRY restarts the stopped stream at its trapped instruction
and SKIP at the one after, once the escalation is gone, CTRL at rest again where it had stopped at a DPT under drain, and still
STOPPED where a debugger holds it (the model's choice, assumption log 29, R280); an answer for a gated core is kept until its release; ABANDON ends the node. MBRD_WRITE takes the host's read index (R339, R376, R412, R427). -/
def Obligations.HostAnswers : Prop :=
  ∀ (s : State) fn id role,
    let ignored := s.modMbox fn fun m => { m with ignored := m.ignored + 1 }
    (s.escalOf fn id role = none → (s.boot.stage ≠ .minimal ∨ fn = 0) → exec (.answerRetry fn id role) s = .next ignored ∧
      exec (.answerSkip fn id role) s = .next ignored ∧ exec (.answerAbandon fn id role) s = .next ignored) ∧
    (∀ c e, s.escalOf fn id role = some (c, e) → (s.core c).gated = true →
      exec (.answerRetry fn id role) s = .next { s with answers := s.answers ++ [⟨fn, id, role, false⟩] } ∧
      exec (.answerSkip fn id role) s = .next { s with answers := s.answers ++ [⟨fn, id, role, true⟩] }) ∧
    (∀ c e, s.escalOf fn id role = some (c, e) → (s.core c).gated = false → e.trap.countLost = false → (s.core c).held = [] →
      let own := e.trap.x = .ctrl ∨ e.trap.async = true
      (own ∨ (s.stream c e.trap.x).st = .stopped) →
      let goes := fun (pc : VAddr) => s.modCore c fun k =>
        if own then { k with escal := k.escal.erase e, ctrlEsc := false, ctrl := { k.ctrl with
          st := if k.ctrl.dbg = .stopped then .stopped
            else if k.hl = 0 ∧ k.ctrl.at_ = true ∧ k.ctrl.dr = true then .drainStop else .running,
          pc := pc, pend := .none, walk := none, ibuf := none } }
        else ({ k with escal := k.escal.erase e }).modStream e.trap.x fun v =>
          { v with st := .running, pc := pc, pend := .none, walk := none, ibuf := none,
                   dbg := if v.dbg = Dbg.stopped then .off else v.dbg }
      exec (.answerRetry fn id role) s = .next (goes e.trap.epc) ∧
      (e.trap.base ≠ 0x05 → e.trap.base ≠ 0x04 →
        exec (.answerSkip fn id role) s = .next (goes (e.trap.epc + .ofNat 51 e.trap.len)))) ∧
    (∀ c e n, s.escalOf fn id role = some (c, e) → s.nodeOf c = some n → n.over = false →
      ∃ u d, exec (.answerAbandon fn id role) s = .next u ∧ u.node n.key = some d ∧ d.st = .retired ∧ d.aband = true) ∧
    (∀ v, s.boot.stage ≠ .minimal ∨ fn = 0 → ∃ u, exec (.mbrdWrite fn v) s = .next u ∧
      u.mboxes[fn.toNat].mbrd = v ∧ s.memSame u)

/-! ## Queues and the graph engine (spec/19) -/

/-- The state once a command has been admitted: RIDX advances, and WIDX with it for a request packet (R316, R373). -/
def Sys2Proof.Spec.admitsCmd (s : State) (q : BitVec 15) : State :=
  s.modQueue q fun k => { k with ridx := k.ridx + 1, widx := if k.req then k.widx + 1 else k.widx, cmd := none, req := false }

/-- The state once a queue has halted: QSTAT names the cause and the failing command, and the interrupt follows (R317, R375). -/
def Sys2Proof.Spec.halted (s : State) (q : BitVec 15) (cause : BitVec 8) : State :=
  let u := s.modQueue q fun k =>
    { k with st := .halted, halt := cause, hidx := k.ridx, hsub := 0, hedge := false, cmd := none, req := false }
  let k := s.queue q
  if k.qirq.getLsbD 17 = true ∧ k.qmap.getLsbD 31 = true then u.sendIrq k.fn (k.qirq.extractLsb' 0 11) else u

/-- NOTIFY_WIDX_WRITE with the queue's PASID records the index, and a ring found bad halts an ACTIVE queue; with another PASID it is
discarded and counted. QUEUE_ENABLE makes a DISABLED or HALTED queue ACTIVE with both indices 0, QUEUE_DISABLE makes it DISABLED
with no descriptor. COMMAND_FETCH and an accepted REQUEST_PACKET leave a command that passes Table 19.4 for its step, and halt the
queue on one that does not (R316, R317, R319, R372, R373). -/
def Obligations.QueueEvents : Prop :=
  ∀ (s : State) q,
    let k := s.queue q
    (∀ pasid v, k.qmap.getLsbD 31 = true → pasid = some k.pasid →
      let u := s.modQueue q fun k => { k with widx := v }
      (k.st ≠ .active ∨ (u.queue q).ringBad = none → exec (.notifyWidxWrite q pasid v) s = .next u) ∧
      (∀ cause, k.st = .active → (u.queue q).ringBad = some cause →
        exec (.notifyWidxWrite q pasid v) s = .next (Spec.halted u q cause))) ∧
    (∀ pasid v, k.qmap.getLsbD 31 = true → pasid ≠ some k.pasid →
      exec (.notifyWidxWrite q pasid v) s = .next (s.notifyDrop q)) ∧
    (s.boot.stage ≠ .minimal →
      (∀ desc, k.st = .disabled ∨ k.st = .halted → s.mayEnable { k with desc := desc } = true →
        exec (.queueEnable q desc) s = .next (s.modQueue q fun k => { k with
          desc := desc, st := .active, ridx := 0, widx := 0, halt := 0, hidx := 0, hsub := 0, hedge := false, cmd := none, req := false, wait := none })) ∧
      exec (.queueDisable q) s = .next (s.modQueue q fun k => { k with
        desc := 0, st := .disabled, halt := 0, hidx := 0, hsub := 0, hedge := false, cmd := none, req := false, wait := none })) ∧
    (k.st = .active → k.cmd = none → k.ringBad = none →
      (∀ bs, k.ridx ≠ k.widx → s.devRead k.part k.pasid (k.base + 64 * (k.ridx.toNat % 2 ^ k.log2)) 64 = .ok bs →
        (s.cmdBad k (recordOf bs) = none →
          exec (.commandFetch q) s = .next (s.modQueue q fun k => { k with cmd := some (recordOf bs), req := false })) ∧
        ∀ cause, s.cmdBad k (recordOf bs) = some cause → exec (.commandFetch q) s = .next (Spec.halted s q cause)) ∧
      (∀ c, k.ridx = k.widx → k.qmap.getLsbD 31 = true →
        (s.cmdBad k c = none →
          exec (.requestPacket q (some k.pasid) c) s = .next (s.modQueue q fun k => { k with cmd := some c, req := true })) ∧
        ∀ cause, s.cmdBad k c = some cause → exec (.requestPacket q (some k.pasid) c) s = .next (Spec.halted s q cause)))

/-- The commands of an ACTIVE queue at their step: NOP is admitted; WAIT is admitted, and blocks the queue while its cell is below
VALUE, unsigned, until a write brings the cell there; SIGNAL is admitted and adds VALUE to its cell once the LAUNCHes admitted
before it have completed; LAUNCH of a graph that R429 refuses halts the queue with none of it in the well, and of one it accepts
adds its nodes (R318, R321, R330, R331; that a blocking WAIT is admitted as it blocks is the model's reading, assumption log 11). -/
def Obligations.QueueCommands : Prop :=
  ∀ (s : State) q,
    (∀ c, (s.queue q).st = .active → (s.queue q).cmd = some c →
      (c.extractLsb' 0 8 = 0 → exec (.cmdNop q) s = .next (Spec.admitsCmd s q)) ∧
      (∀ t i, c.extractLsb' 0 8 = 2 → physHandle (c.extractLsb' 128 64) = some (t, i) → (s.core t).gated = false →
        let v : Word := c.extractLsb' 192 64
        (v.toNat ≤ (s.cell t i).toNat → exec (.cmdWait q) s = .next (Spec.admitsCmd s q)) ∧
        ((s.cell t i).toNat < v.toNat → exec (.cmdWait q) s =
          .next ((Spec.admitsCmd s q).modQueue q fun k => { k with st := .blocked, wait := some ⟨t, i, v, false⟩ }))) ∧
      (∀ t i, c.extractLsb' 0 8 = 3 → physHandle (c.extractLsb' 128 64) = some (t, i) →
        exec (.cmdSignal q) s = .next ((Spec.admitsCmd s q).modQueue q fun k =>
          { k with signals := k.signals ++ [⟨t, i, c.extractLsb' 192 64, k.launches⟩] })) ∧
      (∀ cause sub edge, c.extractLsb' 0 8 = 1 →
        s.graphCheck (s.queue q) (c.extractLsb' 64 64).toNat = .error (.halt cause sub edge) →
        ∃ t, exec (.cmdLaunch q) s = .next t ∧ t.nodes = s.nodes ∧ t.launches = s.launches ∧ (t.queue q).st = .halted ∧
          (t.queue q).halt = cause ∧ (t.queue q).hsub = .ofNat 16 sub ∧ (t.queue q).hidx = (s.queue q).ridx) ∧
      (∀ ns es, c.extractLsb' 0 8 = 1 → s.graphCheck (s.queue q) (c.extractLsb' 64 64).toNat = .ok (ns, es) →
        ∃ t, exec (.cmdLaunch q) s = .next t ∧ t.nodes.length = s.nodes.length + ns.length ∧
          t.launches.length = s.launches.length + 1 ∧ (t.queue q).ridx = (s.queue q).ridx + 1)) ∧
    (∀ w, (s.queue q).st = .blocked → (s.queue q).wait = some w → w.ready = true →
      exec (.queueUnblock q) s = .next (s.modQueue q fun k => { k with st := .active, wait := none })) ∧
    (∀ r rest, (s.queue q).signals = r :: rest → (s.core r.core).gated = false →
      (∀ l ∈ s.launches, l.queue = q → r.after ≤ l.num) → ∃ t, exec (.signalPerform q) s = .next t ∧
        (t.queue q).signals = rest ∧ (∀ n i, t.cell n i =
          if n = r.core ∧ i = r.cell then .ofNat 64 ((s.cell n i).toNat + r.value.toNat) else s.cell n i) ∧ s.memSame t)

/-- LAUNCH_COMPLETE, when every node of a launch is over, adds VALUE to the launch's cell, and the launch and its nodes are gone.
AGING_STEP raises the level of the head of a queue, with its set, that has been READY for another 2^24 ticks (R318, R323). -/
def Obligations.LaunchEvents : Prop :=
  ∀ (s : State),
    (∀ l, l ∈ s.launches → (∀ m ∈ s.launches, m.queue = l.queue → m.seq = l.seq → m = l) →
      (∀ n ∈ s.nodes, n.key.queue = l.queue → n.key.seq = l.seq → n.over = true) → s.cellGated l.handle = false →
      ∃ t, exec (.launchComplete l.queue l.seq) s = .next t ∧
        t.launches = s.launches.filter (fun m => decide (¬ (m.queue = l.queue ∧ m.seq = l.seq))) ∧
        t.nodes = s.nodes.filter (fun n => decide (¬ (n.key.queue = l.queue ∧ n.key.seq = l.seq))) ∧
        ∀ c i, l.handle = some (c, i) → t.cell c i = .ofNat 64 ((s.cell c i).toNat + l.value.toNat)) ∧
    (∀ q n, s.head q.toNat = some n → n.aged < s.readyTicks n / 2 ^ 24 →
      exec (.agingStep q) s = .next (s.mapNodes (fun m => m.sameSet n && s.inWell m) fun m => { m with aged := m.aged + 1 }))

/-- GANG_START of a DISPATCHING unit whose members have all their cores, zeroed, starts every role in one step: CTRL RUNNING at the
image's entry point, the other streams IDLE, its task state zero (registers, tags and task cells), the cistern and the weight buffer
as they were; a count state that has failed stays so (R404).
GANG_RESTORE of a pre-empted unit puts every
role's task back, with its time of start (R14, R45, R284, R296 to R298, R346). -/
def Obligations.GangsStart : Prop :=
  ∀ (s : State) k n, s.node k = some n → n.st = .dispatching → s.unitReady (s.unitOf n) = true →
    (s.nodes.map (·.key)).Nodup → ((s.unitOf n).flatMap (·.cores)).Nodup →
    (n.first = none → ∃ t, exec (.gangStart k) s = .next t ∧ ∀ m ∈ s.unitOf n, ∀ i c, m.cores[i]? = some c →
      let k := t.core c
      k.ctrl.st = .running ∧ k.ctrl.pc = m.img.entryCtrl ∧ k.load.st = .idle ∧ k.exec.st = .idle ∧ k.store.st = .idle ∧
        k.hl = 0 ∧ Spec.taskZero (s.core c) k ∧ k.cistern = (s.core c).cistern ∧ k.wbuf = (s.core c).wbuf ∧
        ∃ d, k.task = some d ∧ d.key = m.key ∧ d.role = i ∧ d.gsize = m.gsize ∧ d.binding = m.cores) ∧
    (n.first ≠ none → ∃ t, exec (.gangRestore k) s = .next t ∧ ∀ m ∈ s.unitOf n, m.first ≠ none → ∀ i c old,
      m.cores[i]? = some c → m.saves[i]? = some old →
        ∃ d, (t.core c).task = some d ∧ d.key = m.key ∧ d.role = i ∧ d.binding = m.cores ∧
          ∀ o, old.task = some o → d.start = o.start)

/-! ## Slices, drain, save (spec/20 R340 to R349, spec/25 R397) -/

/-- The four streams of a core. -/
def Sys2Proof.Spec.everyStream (k : Core) (p : Stream → Prop) : Prop := p k.load ∧ p k.exec ∧ p k.store ∧ p k.ctrl

/-- SLICE_END, when the slice of a group's holder is over, renews it where the holder has no successor, and else ends it: the
successor is recorded, a node DISPATCHING is READY again, a retiring holder's gangs go on, and DRAIN is put on the running gang of
another, which reserves its save areas. DRAIN_WITHDRAW, while a gang drains and nothing of its partition has been saved, takes DRAIN
off every gang of it once the successor recorded has no READY node left, and renews the slice; it does nothing while the successor
has one, or once a save has begun. HARD_STOP, 120,000 ticks after DRAIN, stops every stream of a core and ends its pump commands, and
does nothing sooner (R340 to R342, R344, R397). -/
def Obligations.SlicesAndDrain : Prop :=
  ∀ (s : State),
    (∀ g p t, (s.groups[g.toNat]'g.isLt).holder = some p → (s.groups[g.toNat]'g.isLt).start = some t →
      (s.groups[g.toNat]'g.isLt).ending = false → t + 1024 * (s.part p).slice.toNat ≤ s.viewOf p → s.partGated p = false →
      (s.part p).group = g →
      (s.successor g p = none → exec (.sliceEnd g) s = .next (s.modGroup g fun g => { g with start := some (s.viewOf p) })) ∧
      (∀ q, s.successor g p = some q → ∃ u, exec (.sliceEnd g) s = .next u ∧ (u.groupOf p).ending = true ∧
        (u.groupOf p).next = some q ∧ (u.groupOf p).saved = false ∧ (∀ n ∈ u.nodes, n.part = p → n.st ≠ .dispatching) ∧
        ((s.part p).retire = true → u.cores = s.cores)) ∧
      (∀ q n f, s.successor g p = some q → (s.part p).retire = false →
        (s.nodes.filter fun n => n.part == p && n.st == .running) = [n] → n.cores ≠ [] → s.node n.key = some n →
        n.gsize * areaSize ≤ (s.part p).saveSize.toNat → s.freeRun p n.gsize = some f →
        ∃ u d, exec (.sliceEnd g) s = .next u ∧ u.node n.key = some d ∧ d.draining = true ∧ d.first = some f ∧
          ∀ c ∈ n.cores, (u.core c).drainSince = some (s.viewOf p) ∧ Spec.everyStream (u.core c) fun v => v.dr = true)) ∧
    (∀ n, s.node n.key = some n → n.draining = true → s.partGated n.part = false →
      let g := s.groupOf n.part
      let ready := ∃ q, g.next = some q ∧ ∃ m ∈ s.nodes, m.part = q ∧ s.inWell m = true
      (g.saved = false → ¬ ready → ∃ u, exec (.drainWithdraw n.key) s = .next u ∧
        (∀ m ∈ s.nodes, m.part = n.part → m.draining = true → ∀ c ∈ m.cores, (u.core c).drainSince = none ∧
          Spec.everyStream (u.core c) fun v => v.dr = false ∧ v.st ≠ .drainStop) ∧
        (∀ m ∈ u.nodes, m.part = n.part → m.draining = false) ∧
        (u.groupOf n.part).ending = false ∧ (u.groupOf n.part).next = none ∧
        (u.groupOf n.part).start = some (s.viewOf n.part) ∧ s.memSame u) ∧
      (g.saved = true ∨ ready → exec (.drainWithdraw n.key) s = .next s)) ∧
    (∀ c t, (s.core c).gated = false → (s.core c).drainSince = some t → (s.core c).saving = false →
      ((s.core c).ctrl.hs && (s.core c).ctrl.dr) = false → (s.core c).drainDone = false →
      (t + 120000 ≤ s.view c → ∃ u, exec (.hardStop c) s = .next u ∧ (Spec.everyStream (u.core c) fun v => v.hs = true) ∧
        (u.core c).pumpq = [] ∧ (u.core c).pumpsLive = false) ∧
      (s.view c < t + 120000 → exec (.hardStop c) s = .next s))

/-- DRAIN_COMPLETE of a core whose drain is done begins its save, unless the drain is to be withdrawn; SAVE_COMPLETE, when every role is saving, keeps the roles with the
node and begins to zero its cores; ZEROING_COMPLETE frees a core, and its partitions are owed a dispatch at the end of the tick; FUNCTION_LEVEL_RESET disables the function's queues and
removes their nodes; HOST_MEMORY_ACCESS reads or writes device memory (R279, R340, R343 to R349). -/
def Obligations.SavesAndResets : Prop :=
  ∀ (s : State),
    (∀ c n f, (s.core c).gated = false → s.nodeOf c = some n → n.first = some f → n.draining = true →
      (s.core c).saving = false → (s.core c).drainDone = true →
      ((s.groupOf n.part).saved = true ∨
        ∃ q, (s.groupOf n.part).next = some q ∧ ∃ m ∈ s.nodes, m.part = q ∧ s.inWell m = true) →
      ∃ u, exec (.drainComplete c) s = .next u ∧ (u.groupOf n.part).saved = true ∧
        (u.core c).saving = true ∧ (u.core c).drainSince = none ∧ (u.core c).tiles = (s.core c).tiles ∧
        (u.core c).accs = (s.core c).accs ∧ (u.core c).task = (s.core c).task) ∧
    (∀ k n f, s.node k = some n → n.first = some f → n.st = .running → n.cores ≠ [] →
      (∀ c ∈ n.cores, (s.core c).saving = true ∧ (s.core c).gated = false) → ∃ u d, exec (.saveComplete k) s = .next u ∧
        u.node k = some d ∧ d.saves = n.cores.map s.core ∧
        ∀ c ∈ n.cores, (u.core c).task = none ∧ (u.core c).zeroing = true) ∧
    (∀ c, (s.core c).gated = false → (s.core c).zeroing = true → ∃ u, exec (.zeroingComplete c) s = .next u ∧
      u.cores = (s.modCore c fun k => { k with zeroing := false }).cores ∧
      (∀ p, u.part p = { s.part p with owed := (s.part p).owed || (s.part p).units.getLsbD (c.val / 8) }) ∧ s.memSame u) ∧
    (∀ vf, vf ≠ 0 → ∃ u, exec (.functionLevelReset vf) s = .next u ∧
      (∀ q, (s.queue q).fn = vf → (u.queue q).st = .disabled ∧ (u.queue q).halt = 0 ∧ (u.queue q).hidx = 0) ∧
      ∀ n ∈ u.nodes, (s.queue n.key.queue).fn ≠ vf) ∧
    (∀ p pa n, s.boot.stage ≠ .minimal → 0 < n →
      ((inDram pa.toNat || inHost pa.toNat) && (inDram (pa.toNat + n - 1) || inHost (pa.toNat + n - 1))) = true →
      exec (.hostMemoryAccess p pa n none) s = .next { s with hostRead := s.readPhys p pa.toNat n } ∧
      ∀ bs, bs.length = n → exec (.hostMemoryAccess p pa n (some bs)) s = .next (s.writePhys p pa.toNat bs false))

/-! ## Translation ports (spec/21) -/

/-- A 32 KiB page has a byte of the range of a command. -/
def Sys2Proof.Spec.inRange (m : PortCmd) (page : Nat) : Prop :=
  page * 0x8000 < m.addr + 0x8000 * m.npg ∧ m.addr < page * 0x8000 + 0x8000

/-- No TLB of the package holds an entry of partition p that meets a test, but for that of a core whose clocks stand (R412). -/
def Sys2Proof.Spec.noEntry (t : State) (p : PartId) (test : TlbEntry → Prop) : Prop :=
  (∀ c, (t.core c).gated = false → ∀ e ∈ (t.core c).tlb, ¬ (e.part = p ∧ test e)) ∧ ∀ d : Fin 2, ∀ e ∈ t.l2[d], ¬ (e.part = p ∧ test e)

/-- The cell of a command's handle, if it has one, has grown by its value. -/
def Sys2Proof.Spec.added (s t : State) (h : Option (CoreId × BitVec 12)) (v : Word) : Prop :=
  ∀ c i, h = some (c, i) → t.cell c i = .ofNat 64 ((s.cell c i).toNat + v.toNat)

/-- A function reaches a port: the physical one all of them, a virtual one its partition's (R370). -/
def Sys2Proof.Spec.reaches (s : State) (fn : BitVec 6) (i : Fin 65) : Prop := fn = 0 ∨ i.val = (s.fnPart fn).val + 1

/-- PORT_DOOR_WRITE through a function's BAR puts the command words in the port and makes it BUSY with the command and its ERR: 1 for a
KIND that is undefined or not for this port, 2 for a malformed HANDLE, 3 for a range of addresses that reaches the local window; or it
sets DROP while the port is BUSY. PSTAT_READ returns BUSY, DROP and ERR and clears DROP. A function that does not reach the port
writes nothing and reads zero, and so does every one in minimal mode. INV_VA, INV_PASID, INV_IPA and INV_ALL remove every entry they
name from every TLB, but for that of a core whose clocks stand, whose state stays (R412), and APERTURE sets or clears the aperture it names (R358, R361 to R363, R370, R389). -/
def Sys2Proof.Spec.PortCommands : Prop :=
  ∀ (s : State) (fn : BitVec 6) (i : Fin 65),
    (∀ w : Vector Word 8, s.boot.stage ≠ .minimal → Spec.reaches s fn i → ∃ t, exec (.portDoorWrite ⟨fn, i⟩ w.toList) s = .next t ∧
      (t.ports[i.val]).cmd = w ∧ (t.ports[i.val]).busy = true ∧ (t.ports[i.val]).err = (s.ports[i.val]).err ∧
      (if (s.ports[i.val]).busy = true then (t.ports[i.val]).drop = true ∧ (t.ports[i.val]).cur = (s.ports[i.val]).cur
        else (t.ports[i.val]).drop = (s.ports[i.val]).drop ∧ ∃ m, (t.ports[i.val]).cur = some m ∧
          let kind := w[0].toNat % 256
          let bad := kind = 0 ∨ 6 < kind ∨ (kind = 3 ∨ kind = 5) ∧ i.val ≠ 0
          m.kind = kind ∧ m.addr = w[1].toNat ∧ m.npg = w[2].toNat ∧ m.value = w[4] ∧ m.newpa = w[5].toNat ∧
          (m.done = true ↔ m.err ≠ 0) ∧ m.drained = false ∧ (bad ↔ m.err = 1) ∧
          (¬ bad → s.portHandle i w[3] = none → m.err = 2) ∧
          (kind = 1 → (s.portHandle i w[3]).isSome = true → w[0].toNat < 2 ^ 28 → 1 ≤ w[2].toNat → w[5] = 0 → w[6] = 0 →
            w[7] = 0 → m.err = if w[1].toNat + 0x8000 * w[2].toNat ≤ 0x7FFFFFC000000 then 0 else 3) ∧
          (w[0] = 4 → (s.portHandle i w[3]).isSome = true → w[1] = 0 → w[2] = 0 → w[5] = 0 → w[6] = 0 → w[7] = 0 →
            m.err = 0))) ∧
    (s.boot.stage ≠ .minimal → Spec.reaches s fn i → ∃ t, exec (.pstatRead ⟨fn, i⟩) s = .next t ∧ (t.ports[i.val]).drop = false ∧
      leNat t.hostRead = (s.ports[i.val]).busy.toNat + (s.ports[i.val]).drop.toNat * 2 + (s.ports[i.val]).err.toNat * 2 ^ 8) ∧
    (s.boot.stage = .minimal ∨ ¬ Spec.reaches s fn i → (∀ w, exec (.portDoorWrite ⟨fn, i⟩ w) s = .next s) ∧
      ∃ t, exec (.pstatRead ⟨fn, i⟩) s = .next t ∧ leNat t.hostRead = 0 ∧ t.ports = s.ports) ∧
    (∀ m p, (s.ports[i.val]).cur = some m → m.err = 0 → m.done = false → m.part = some p →
      (m.kind = 1 → ∃ t, exec (.invVa i) s = .next t ∧ (t.ports[i.val]).cur = some { m with done := true } ∧ s.memSame t ∧
        Spec.noEntry t p fun e => e.pasid = m.pasid ∧ ∃ v, e.vpn ≤ v ∧ v < e.vpn + e.pages ∧ Spec.inRange m v) ∧
      (m.kind = 2 → ∃ t, exec (.invPasid i) s = .next t ∧ (t.ports[i.val]).cur = some { m with done := true } ∧ s.memSame t ∧
        Spec.noEntry t p fun e => e.pasid = m.pasid) ∧
      (m.kind = 3 → ∃ t, exec (.invIpa i) s = .next t ∧ (t.ports[i.val]).cur = some { m with done := true } ∧ s.memSame t ∧
        Spec.noEntry t p fun e => Spec.inRange m e.ipn) ∧
      (m.kind = 4 → ∃ t, exec (.invAll i) s = .next t ∧ (t.ports[i.val]).cur = some { m with done := true } ∧ s.memSame t ∧
        Spec.noEntry t p fun _ => True) ∧
      (m.kind = 5 → ∃ t, exec (.aperture i) s = .next t ∧ (t.ports[i.val]).cur = some { m with done := true } ∧ s.memSame t ∧
        ∀ k : Fin 64, k.val = m.apn → (t.part p).apert[k.val] =
          (xformOf m.xf).map fun x => ⟨m.addr, 0x8000 * m.npg, m.newpa, x⟩))

/-- A MIGRATE of intermediate addresses of partition p moves pages. -/
def Sys2Proof.Spec.ipaMoves (s : State) (p : PartId) : Prop :=
  ∃ (i : Fin 65) (n : PortCmd), (s.ports[i.val]).cur = some n ∧ n.kind = 6 ∧ n.err = 0 ∧ n.done = true ∧ n.ipa = true ∧
    n.part = some p

/-- MIGRATE blocks new translations of a page whose leaf passes the checks of R364, with its old frame kept, and else ends with ERR 5;
PORT_DRAIN_COMPLETE ends a command, once the accesses that may hold what it removed are performed, with its ERR and its add, and lets
a MIGRATE go on to its copy; MIGRATE_COPY_COMPLETE copies the frame with its poison, stores the leaf with its new frame, and ends the
command with its add. While a MIGRATE of intermediate addresses moves pages of the partition, one of its own addresses waits, to begin
and to copy (R361, R363 to R365). -/
def Sys2Proof.Spec.PortCompletions : Prop :=
  ∀ (s : State) (i : Fin 65) m, (s.ports[i.val]).cur = some m →
    let now := fun (n : PortCmd) => s.modPort i fun q => { q with cur := some n }
    (m.kind = 6 → m.err = 0 → m.done = false →
      (m.part = none → exec (.migrate i) s = .next (now { m with err := 5, done := true })) ∧
      ∀ p, m.part = some p → (m.ipa = false → Spec.ipaMoves s p → exec (.migrate i) s = .next s) ∧
        ((m.ipa = true ∨ ¬ Spec.ipaMoves s p) → (s.migrateOk m p = false → exec (.migrate i) s = .next (now { m with err := 5, done := true })) ∧
          (s.migrateOk m p = true → ∃ t n, exec (.migrate i) s = .next t ∧ (t.ports[i.val]).cur = some n ∧ n.done = true ∧
          n.err = 0 ∧ n.drained = m.drained ∧ s.memSame t ∧
          (∀ pa e, s.migrateLeaf m p m.addr = some pa → s.pte p pa = some e → n.oldPa = pteAddr e) ∧
          (m.ipa = false → ∀ va, m.addr ≤ va → va < m.addr + 0x8000 * m.npg → t.blockedPage p m.pasid va = true) ∧
          (m.ipa = true → ∀ a, m.addr ≤ a → a < m.addr + 0x8000 * m.npg → t.blockedIpa p a = true)))) ∧
    (m.done = true → m.drained = false → s.cellGated m.handle = false →
      (m.err ≠ 0 → ∃ t, exec (.portDrainComplete i) s = .next t ∧ (t.ports[i.val]).busy = false ∧
        (t.ports[i.val]).err = m.err ∧ (t.ports[i.val]).cur = none ∧ Spec.added s t m.handle m.value ∧ s.memSame t) ∧
      (m.err = 0 → s.drainable m = true → m.kind ≠ 6 → ∃ t, exec (.portDrainComplete i) s = .next t ∧
        (t.ports[i.val]).busy = false ∧ (t.ports[i.val]).err = 0 ∧ (t.ports[i.val]).cur = none ∧
        ((∀ p c x, m.part = some p → s.servesPart c p = true → Spec.quietOn s c x) → Spec.added s t m.handle m.value)) ∧
      (m.err = 0 → s.drainable m = true → m.kind = 6 → ∃ t, exec (.portDrainComplete i) s = .next t ∧
        (t.ports[i.val]).cur = some { m with drained := true })) ∧
    (∀ p bad, m.kind = 6 → m.err = 0 → m.drained = true → m.part = some p → s.cellGated m.handle = false →
      (m.ipa = false → Spec.ipaMoves s p → exec (.migrateCopyComplete i bad) s = .next s) ∧
      ((m.ipa = true ∨ ¬ Spec.ipaMoves s p) → ∃ t, exec (.migrateCopyComplete i bad) s = .next t ∧ (t.ports[i.val]).busy = false ∧ (t.ports[i.val]).err = 0 ∧
        (t.ports[i.val]).cur = none ∧ Spec.added s t m.handle m.value ∧
        ∀ pa e a b, m.npg = 1 → s.migrateLeaf m p m.addr = some pa → s.pte p pa = some e →
          s.framePa m p m.oldPa = some a → s.framePa m p m.newpa = some b →
          t.gmem = ((s.copyFrame p a b bad).writePhys p pa (leBytes 8 (leafTo e m.newpa b).toNat) false).gmem))

/-- Port commands and their completion (spec/21). -/
def Obligations.Ports : Prop := Spec.PortCommands ∧ Spec.PortCompletions

/-! ## The fabric (spec/23) -/

/-- Link events: training records what the neighbour allows, a CRC error changes nothing, a fault takes the port out of use and a
repaired one comes back at the next routing swap, each with its notice (whose
DEVID is 0 for a link, assumption log 18); RESOLVE_EXPIRE, whether the link is up again or not, resolves what was on a failed port,
ends what was on its way to a device that lost its last port with that fault, drops no packet that is waited for and changes no
memory. An ORDERED flow takes the port of its entry, among those up, at the number of its core plus DEVID, modulo their count, where
no failed port is being resolved. The
swaps change the active bank and end with a notice. QMAP_WRITE binds a queue's page to a function, one queue to a binding (R366, R371,
R377, R378, R379, R381 to R383). -/
def Sys2Proof.Spec.LinkEvents : Prop :=
  ∀ (s : State) (l : Fin 24),
    let f := s.fabric
    let k := f.links[l.val]
    let withLink := fun (k : Link) => { s with fabric := { f with links := f.links.set l.val k } }
    (∀ e, exec (.linkTrain l e) s = .next (withLink { k with elide := e })) ∧
    exec (.flitCrcError l) s = .next s ∧
    exec (.linkFaultDetect l) s =
      .next (if k.up then ({ s with fabric := { f with
        links := f.links.set l.val { k with up := false, fresh := true },
        drops := if (f.open_ l).isSome then f.drops
          else f.drops ++ [(⟨l, s.tick, (List.finRange 24).filter f.usable, f.lastPort l, none⟩ : LinkDrop)] } }.postNotice 1 l.val 0) else s) ∧
    exec (.linkUp l) s = .next (if k.up then s else (withLink { k with up := true }).postNotice 2 l.val 0) ∧
    (f.open_ l = none → exec (.linkResolveExpire l) s = .next s) ∧
    (∀ d, f.open_ l = some d → ∃ t, exec (.linkResolveExpire l) s = .next t ∧ s.memSame t ∧
      t.fabric.links = f.links ∧ t.fabric.open_ l = none ∧
      (∀ dev ∈ d.lost, ∀ o ∈ t.fabric.out, o.pkt.dst = dev → o.ack ≠ none) ∧
      ∀ o ∈ f.out, o.ack ≠ none ∨ s.awaited o = true →
        ∃ q ∈ t.fabric.out, q.owner = o.owner ∧ q.pkt.dst = o.pkt.dst ∧ q.pkt.seq = o.pkt.seq ∧ q.full = o.full) ∧
    (∀ e (c : CoreId) (dev : BitVec 16) n p, e.getLsbD 21 = true → e.getLsbD 20 = false → f.drops = [] →
      (f.upPorts e)[(c.val + dev.toNat) % (f.upPorts e).length]? = some p → f.way e c dev n = .out p) ∧
    (s.boot.stage ≠ .minimal → ∃ t, exec .routingSwap s = .next t ∧ t.fabric.routeBank = !f.routeBank ∧
      t.fabric.routeSwap = true ∧ t.fabric.routeA = f.routeA ∧ t.fabric.routeB = f.routeB ∧
      (k.up = true → t.fabric.usable l = true) ∧ (k.up = false → t.fabric.usable l = false)) ∧
    (s.boot.stage ≠ .minimal → exec .keySwap s = .next { s with fabric := { f with keyBank := !f.keyBank, keySwap := true } }) ∧
    (f.keySwap = true → exec (.swapComplete true) s = .next ({ s with fabric := { f with keySwap := false } }.postNotice 4 0 0)) ∧
    (f.routeSwap = true →
      exec (.swapComplete false) s = .next ({ s with fabric := { f with routeSwap := false } }.postNotice 4 0 0)) ∧
    (∀ q v, s.boot.stage ≠ .minimal → let w := v &&& 0x8001FF3F
      ((∀ r ∈ s.queues, r.1 ≠ q.toNat → ¬ (w.getLsbD 31 = true ∧ r.2.qmap.getLsbD 31 = true ∧
          r.2.qmap.extractLsb' 0 6 = w.extractLsb' 0 6 ∧ r.2.qmap.extractLsb' 8 9 = w.extractLsb' 8 9)) →
        exec (.qmapWrite q v) s = .next (s.modQueue q fun k => { k with qmap := w })) ∧
      ((∃ r ∈ s.queues, r.1 ≠ q.toNat ∧ w.getLsbD 31 = true ∧ r.2.qmap.getLsbD 31 = true ∧
          r.2.qmap.extractLsb' 0 6 = w.extractLsb' 0 6 ∧ r.2.qmap.extractLsb' 8 9 = w.extractLsb' 8 9) →
        exec (.qmapWrite q v) s = .next { s with binderr := true }))

/-- The byte at offset i of a PREM payload behind its presence mask: a granule left out is zero (R378). -/
def Sys2Proof.Spec.payloadByte (mask : BitVec 64) (data : List Byte) (i : Nat) : Byte :=
  if mask.getLsbD (i / 64) then data.getD (64 * ((List.range (i / 64)).filter mask.getLsbD).length + i % 64) 0 else 0

/-- PACKET_RECEIVE, a new packet whose turn has come performed once: a semaphore operation of an exported gang that runs acts on the
cell of its role and is acknowledged with the old value, and a PREM unit inside an exported window is stored at its translated
address, granules left out as zero, and acknowledged; no other cell and no other byte changes (R220, R229, R299, R378, R380, R384). -/
def Sys2Proof.Spec.PacketPerforms : Prop :=
  ∀ (s : State) (pkt : Packet) p, s.boot.stage ≠ .minimal → pkt.dst = s.fabric.devid → s.fabric.keyPart pkt.pkey = some p →
    let r := s.fabric.rxOf pkt.src
    let es := (s.part p).exports.filter fun e => e.key == pkt.pkey
    let acked := fun (t : State) (v : Word) => t.fabric.acks = s.fabric.acks ++ [⟨pkt.src, pkt.seq, .ok v⟩] ∧
      (t.fabric.rxOf pkt.src).dup pkt.seq = true
    r.dup pkt.seq = false → (pkt.seq - r.next).toNat < 4096 → r.window.length < 4096 → r.waiting = [] →
    (pkt.release = true → pkt.seq = r.next) →
    (∀ kind h b cmp n c, pkt.body = .sem kind h b cmp → es.findSome? (s.exportedGang p) = some n → s.node n.key = some n →
      n.st = .running → (h.extractLsb' 12 8).toNat < n.gsize → n.cores[(h.extractLsb' 12 8).toNat]? = some c →
      (s.core c).gated = false → (s.core c).saving = false →
      let i : BitVec 12 := h.extractLsb' 0 12
      ∃ t, exec (.packetReceive pkt false) s = .next t ∧ acked t (s.cell c i) ∧ s.memSame t ∧
        ∀ c' i', t.cell c' i' = if c' = c ∧ i' = i then Spec.semValue kind (s.cell c i) b cmp else s.cell c' i') ∧
    (∀ va size mask data poison e w, pkt.body = .prem va size mask data poison → 0 < size → size ≤ 4096 → va.toNat % size = 0 →
      va.toNat < 0x7FFFFFC000000 →
      (es.find? fun e => decide (e.vbase.toNat ≤ va.toNat ∧ va.toNat + size ≤ e.vbase.toNat + e.vsize.toNat)) = some e →
      s.blockedPage p e.pasid va.toNat = false → s.walk ⟨p, e.pasid, false, .write⟩ va.toNat = .ok w →
      (∀ i, i < size → inDram (w.pa + i) = true) →
      (∀ g, 64 * g < size → mask.getLsbD g = true →
        64 * ((List.range g).filter mask.getLsbD).length + min 64 (size - 64 * g) ≤ data.length) →
      ∃ t, exec (.packetReceive pkt false) s = .next t ∧ acked t 0 ∧ t.cores = s.cores ∧
        ∀ a, t.readByte p a = if w.pa ≤ a ∧ a < w.pa + size then Spec.payloadByte mask data (a - w.pa) else s.readByte p a)

/-- A packet that is received is performed once; one received again is acknowledged again and performed no second time; one beyond the window of 4096 changes nothing; a new
one whose key admits to no partition is acknowledged with PERMISSION and stores nothing; in minimal mode none is received (R389). PACKET_ACK keeps the answer for whoever
waits for it, where it is one that a target gives, and ends a packet that nothing waits for; PACKET_REFUSED sends the packet again under the entry of its injection, once the failed port of its flow is resolved, or
ends its operation with PEER_LOST where that has no port left. SOURCE_RESET_NOTICE clears the device's sequence state and ends what was on its way to it (R366, R378, R380 to R382, R384). -/
def Sys2Proof.Spec.PacketEvents : Prop :=
  Spec.PacketPerforms ∧ ∀ (s : State),
    (∀ pkt mm, s.boot.stage = .minimal → exec (.packetReceive pkt mm) s = .next s) ∧
    (∀ pkt mm, s.boot.stage ≠ .minimal → pkt.dst = s.fabric.devid →
      let r := s.fabric.rxOf pkt.src
      (∀ a, r.dup pkt.seq = true → (s.fabric.acks.find? fun a => a.dev == pkt.src && a.seq == pkt.seq) = some a →
        exec (.packetReceive pkt mm) s = .next { s with fabric := { s.fabric with acks := s.fabric.acks ++ [a] } }) ∧
      (r.dup pkt.seq = false → 4096 ≤ (pkt.seq - r.next).toNat → exec (.packetReceive pkt mm) s = .next s) ∧
      (r.dup pkt.seq = false → (pkt.seq - r.next).toNat < 4096 → r.window.length < 4096 → r.waiting = [] →
        pkt.release = false →
        s.fabric.keyPart pkt.pkey = none → ∃ t, exec (.packetReceive pkt mm) s = .next t ∧ s.memSame t ∧
          t.fabric.acks = s.fabric.acks ++ [⟨pkt.src, pkt.seq, .reject 0x21⟩] ∧ (t.fabric.rxOf pkt.src).dup pkt.seq = true)) ∧
    (∀ dev seq res o, s.fabric.outPkt dev seq = some o → s.awaited o = true → o.ack = none →
      (∀ cause, res = .reject cause → o.owner.mayReject cause = true) →
      ∃ t, exec (.packetAck dev seq res) s = .next t ∧ s.memSame t ∧ ∃ q, t.fabric.outPkt dev seq = some q ∧ q.ack = some res) ∧
    (∀ dev seq cause o, s.fabric.outPkt dev seq = some o → o.owner.mayReject cause = false →
      exec (.packetAck dev seq (.reject cause)) s = .next s) ∧
    (∀ dev seq res o, s.fabric.outPkt dev seq = some o → s.awaited o = false →
      (∀ cause, res = .reject cause → o.owner.mayReject cause = true) →
      ∃ t, exec (.packetAck dev seq res) s = .next t ∧ s.memSame t ∧ t.fabric.outPkt dev seq = none) ∧
    (∀ dev seq, ∃ t, exec (.packetRefused dev seq) s = .next t ∧ s.memSame t ∧
      (∀ o ∈ s.fabric.out, ¬ (o.pkt.dst = dev ∧ o.pkt.seq = seq) → o ∈ t.fabric.out) ∧
      ∀ o, s.fabric.outPkt dev seq = some o → s.awaited o = true → ∃ q, t.fabric.outPkt dev seq = some q ∧ q.owner = o.owner ∧ q.full = o.full ∧
        (o.ack ≠ none → q = o) ∧
        (o.ack = none → match s.fabric.way o.entry o.owner.core o.pkt.dst (Config.freeWord s.fresh).toNat with
          | .out p => q.port = p ∧ q.ack = none ∧ q.pkt.seq = o.pkt.seq ∧
            q.pkt.body = bodyToward o.full (s.fabric.links[p.val]).elide
          | .held p => q.port = p ∧ q.ack = none ∧ q.pkt = o.pkt
          | .lost => q.ack = some (.reject 0x25))) ∧
    (∀ dev, ∃ t, exec (.sourceResetNotice dev) s = .next t ∧ s.memSame t ∧ t.fabric.rxOf dev = RxState.zero ∧
      (∀ d, d ≠ dev → t.fabric.rxOf d = s.fabric.rxOf d) ∧
      ∀ o ∈ t.fabric.out, o.pkt.dst = dev → o.ack ≠ none)

/-- Links, their packets and their answers (spec/23). -/
def Obligations.LinksAndPackets : Prop := Spec.LinkEvents ∧ Spec.PacketEvents

/-! ## The start and attestation (spec/24) -/

/-- A flash holds items that a start accepts at a version floor (Table 24.1, Table 24.2, R387). -/
def Sys2Proof.Spec.accepted_ (f : Flash) (floor : BitVec 32) : Prop :=
  let r := f.record
  let vendor := fun (bytes : List Byte) sig => Config.vendorVerifies (Config.sm3 bytes) sig = true
  vendor f.monitor.bytes f.monitor.sig ∧ vendor f.ovone.bytes f.ovone.sig ∧
    vendor (r.take 0x30 ++ r.drop 0x70) (.ofNat 512 (leNat ((r.drop 0x30).take 64))) ∧
    r.take 4 = [0x43, 0x46, 0x47, 0x31] ∧ 0x70 ≤ r.length ∧
    1 ≤ leNat ((r.drop 4).take 4) ∧ floor.toNat ≤ leNat ((r.drop 4).take 4) ∧
    onesBelow (.ofNat 128 (leNat ((r.drop 8).take 16))) 128 = 104 ∧ onesBelow (.ofNat 128 (leNat ((r.drop 24).take 16))) 128 = 104

/-- The state a start of accepted items leaves: READY awaited, the three items measured in order and the other registers as they
were, SVN, the floor and the unit enables from the record, no queue, node or launch, and every core as reset (R2, R385 to R387). -/
def Sys2Proof.Spec.started (t : State) (f : Flash) (m : Vector (BitVec 256) 8) (fails : Nat) : Prop :=
  let measure := fun (i : Fin 8) (bytes : List Byte) => Config.sm3 (leBytes 32 (m[i.val]).toNat ++ leBytes 32 (Config.sm3 bytes).toNat)
  let r := f.record
  t.boot.stage = .awaitReady ∧ t.boot.mreg = ((m.set 0 (measure 0 f.monitor.bytes)).set 1
    (measure 1 (r.take 0x30 ++ r.drop 0x70))).set 2 (measure 2 f.ovone.bytes) ∧
    t.boot.svn.toNat = leNat ((r.drop 4).take 4) ∧ t.boot.svnFloor = t.boot.svn ∧
    t.boot.en0.toNat = leNat ((r.drop 8).take 16) ∧ t.boot.en1.toNat = leNat ((r.drop 24).take 16) ∧
    t.boot.trims = r.drop (leNat ((r.drop 0x28).take 8)) ∧ t.boot.flash = f ∧ t.boot.staged = [] ∧
    t.boot.fails.toNat = min 255 (fails + 1) ∧ t.queues = [] ∧ t.nodes = [] ∧ t.launches = [] ∧ ∀ c, t.core c = Core.zero

/-- POWER_ON with a flash whose items pass every stage and memories that train counts a start, measures the items from zero and awaits
READY, the tick at 0 after power-on and going on after a module reset; with a monitor image that fails it ends in minimal mode with
reason 0x01 and no measurement. OVONE_READY within 10 s of power-on clears the count, and later changes nothing; READY_TIMEOUT then,
with three failed starts, ends in minimal mode with reason 0x05. In minimal mode ANSWER_FLASH_WRITE adds a block to the staged image
and ANSWER_RESTART starts again, with that image in the flash, from a count of zero (R385 to R389; that a module reset clears the
measurement registers as power-on does, and what a staged image leaves in the flash, are the model's, assumption log 17). -/
def Sys2Proof.Spec.StartEvents : Prop :=
  ∀ (s : State) inp,
    (∀ full, Spec.accepted_ s.boot.install.flash s.boot.svnFloor → inp.training = true → ∃ t, exec (.powerOn inp full) s = .next t ∧
      Spec.started t s.boot.install.flash (Vector.replicate 8 0) s.boot.fails.toNat ∧ t.tick = (if full then 0 else s.tick) ∧
      t.boot.powered = t.tick) ∧
    (∀ full, s.boot.install.flash.monitor.ok = false → ∃ t, exec (.powerOn inp full) s = .next t ∧ t.boot.stage = .minimal ∧
      t.boot.reason = 0x01 ∧ 3 ≤ t.boot.fails.toNat ∧ t.boot.mreg = Vector.replicate 8 0) ∧
    (s.boot.stage = .awaitReady →
      (s.tick ≤ s.boot.powered + 20000000000 →
        exec .ovoneReady s = .next { s with boot := { s.boot with stage := .up, fails := 0 } }) ∧
      (s.boot.powered + 20000000000 < s.tick → exec .ovoneReady s = .next s ∧
        ∀ i, s.boot.items = some i → 3 ≤ s.boot.fails.toNat →
          ∃ t, exec .readyTimeout s = .next t ∧ t.boot.stage = .minimal ∧ t.boot.reason = 0x05 ∧ t.boot.mreg = s.boot.mreg)) ∧
    (s.boot.stage = .minimal →
      (∀ d, exec (.answerFlashWrite d) s = .next { s with boot := { s.boot with staged := s.boot.staged ++ [d] } }) ∧
      (Spec.accepted_ s.boot.install.flash s.boot.svnFloor → inp.training = true → ∃ t, exec (.answerRestart inp) s = .next t ∧
        Spec.started t s.boot.install.flash s.boot.mreg 0 ∧ t.tick = s.tick))

/-- ATTEST_REQUEST takes one snapshot of the measurement and load count of a partition that exists, for a requester that may name it,
and ATTEST_REPORT_POST puts the oldest report in its requester's mailbox as seven records (R392, R393). -/
def Sys2Proof.Spec.Attestation : Prop :=
  ∀ (s : State), s.boot.stage ≠ .minimal →
    (∀ fn p nonce, (fn = 0 ∨ p.toNat = (s.fnPart fn).val) →
      exec (.attestRequest fn p nonce) s = .next { s with attests := s.attests ++ [
        match s.attested p with
        | some r => ⟨fn, p, nonce, s.tick, 0, r.pmeas, r.lcount⟩
        | none => ⟨fn, p, nonce, s.tick, 1, 0, 0⟩] }) ∧
    (∀ a rest, s.attests = a :: rest →
      let m := s.mboxes[a.fn.toNat]
      m.heldBack = [] → (m.mbwr - m.mbrd).toNat ≤ 57 → ∃ t, exec .attestReportPost s = .next t ∧ t.attests = rest ∧
        s.memSame t ∧ (t.mboxes[a.fn.toNat]).mbwr = m.mbwr + 7 ∧
        ∀ i, i < 7 → (t.mboxes[a.fn.toNat]).ring[(m.mbwr + .ofNat 32 i).toNat % 64]'(Nat.mod_lt _ (by decide)) =
          recordOf (((s.report a).drop (64 * i)).take 64))
/-! ## Partitions and bandwidth (spec/25 R390 to R398) -/

/-- The start of the module, and its attestation (spec/24). -/
def Obligations.ModuleStart : Prop := Spec.StartEvents ∧ Spec.Attestation

/-- PARTITION_ENABLE of a record with units, none of them another enabled partition's but a slice group member's with the same units,
within the shares of both dies, enables it with its buckets and its debug offset at zero, and makes it anew where its key is gone; a
record that breaks a rule sets PARTERR and changes nothing else. PARTITION_DISABLE stops its dispatch at once, its RUNNING nodes going
on. IMAGE_LOADED extends the measurement of a partition by the hash of the image's sections and counts the load, once no core whose clocks stand holds an instruction of the partition in its cache (R390 to R392, R394,
R396, R398, R412). -/
def Sys2Proof.Spec.PartitionEvents : Prop :=
  ∀ (s : State) p,
    (s.boot.stage ≠ .minimal → (s.part p).en = false →
      let free := ∀ q, q ≠ p → (s.part q).en = true → (s.part p).units &&& (s.part q).units = 0 ∨
        ((s.part p).shared = true ∧ (s.part q).shared = true ∧ (s.part p).group = (s.part q).group ∧
          (s.part p).units = (s.part q).units)
      let shares := s.shareSum p false + (s.partRecord p).share0.toNat ≤ 100 ∧
        s.shareSum p true + (s.partRecord p).share1.toNat ≤ 100
      let ok := (s.part p).units ≠ 0 ∧ free ∧ shares
      (ok → ∃ t, exec (.partitionEnable p) s = .next t ∧ (t.part p).en = true ∧ (t.part p).tok0 = 0 ∧ (t.part p).tok1 = 0 ∧
        (t.part p).cred0 = 0 ∧ (t.part p).cred1 = 0 ∧ (t.part p).dtoff = 0 ∧ (t.part p).key ≠ none ∧
        ((s.part p).key = none → (t.part p).key = some t.nextKey ∧ t.nextKey = s.nextKey + 1 ∧ (t.part p).pmeas = 0 ∧
          (t.part p).lcount = 0 ∧ (t.part p).images = []) ∧
        ((s.part p).key ≠ none → (t.part p).key = (s.part p).key ∧ (t.part p).pmeas = (s.part p).pmeas ∧
          (t.part p).lcount = (s.part p).lcount)) ∧
      (¬ ok → exec (.partitionEnable p) s = .next { s with parterr := true })) ∧
    (s.boot.stage ≠ .minimal → (s.part p).en = true → ∃ t, exec (.partitionDisable p) s = .next t ∧ (t.part p).en = false ∧
      (∀ n ∈ t.nodes, n.part = p → n.st ≠ .dispatching) ∧ (∀ n ∈ s.nodes, n.st = .running → n ∈ t.nodes) ∧
      ∀ c, t.core c = s.core c) ∧
    (∀ img sections, (s.part p).key ≠ none → (∀ c, (s.core c).gated = true → ∀ l ∈ (s.core c).icache, l.part ≠ p) →
      ∃ t, exec (.imageLoaded p img sections) s = .next t ∧ s.memSame t ∧
      (t.part p).pmeas = Config.sm3 (leBytes 32 (s.part p).pmeas.toNat ++ leBytes 32 (Config.sm3 sections).toNat) ∧
      (t.part p).lcount = (s.part p).lcount + 1 ∧ img ∈ (t.part p).images ∧ ∀ c, ∀ l ∈ (t.core c).icache, l.part ≠ p) ∧
    (∀ img sections c l, (s.core c).gated = true → l ∈ (s.core c).icache → l.part = p →
      exec (.imageLoaded p img sections) s = .next s)

/-- BANDWIDTH_TICK comes about once a tick on each die. It leaves no partition with units on the die, enabled or with a gang still on its
cores, more tokens than its depth, changes no other, and, where every earlier tick of the die has been counted, gives a partition that
is alone on it all it wants up to 100 granules, from the tokens it has, its share and its credits (R396, R398). What waits is the
granules of its accesses in progress that have not been injected: those it is given are injected, all of them where they are no more,
and none where it has no token (in what order granules wait is the model's choice, assumption logs 19 and 23). -/
def Sys2Proof.Spec.BandwidthBounded : Prop :=
  ∀ (s : State) die (first : List CoreId),
    let i : Fin 2 := if die then 1 else 0
    let tok := fun (r : Partition) => if die then r.tok1 else r.tok0
    let cred := fun (r : Partition) => if die then r.cred1 else r.cred0
    let units := fun (q : PartId) => (if (s.part q).en then (s.part q).units else 0) |||
      (if s.nodes.any fun n => n.part == q && !n.cores.isEmpty then (s.part q).kept else 0)
    let onDie := fun (q : PartId) => (if die then (units q).extractLsb' 13 13 else (units q).extractLsb' 0 13) ≠ 0
    (s.tick < s.ticked[i.val] → exec (.bandwidthTick die first) s = .next s) ∧
    (s.ticked[i.val] ≤ s.tick → ∃ t, exec (.bandwidthTick die first) s = .next t ∧ s.memSame t ∧
      t.ticked[i.val] = s.tick + 1 ∧ (∀ q, onDie q → tok (t.part q) ≤ (s.part q).depth.toNat) ∧
      (∀ q, ¬ onDie q → t.part q = s.part q) ∧ (∀ o, s.injectedOf o ≤ t.injectedOf o) ∧
      (s.ticked[i.val] = s.tick → ∀ q, onDie q → (∀ r, onDie r → r = q) →
        let all := tok (s.part q) + (if die then (s.part q).share1.toNat else (s.part q).share0.toNat) + cred (s.part q)
        let wants := min (s.waiting die q) all
        tok (t.part q) = min (all - min wants 100) (s.part q).depth.toNat ∧ cred (t.part q) = 0 ∧
        (s.waiting die q ≤ min all 100 → ∀ c ∈ s.coresOn die q, ∀ a ∈ s.waitingOn c,
          a.granules.length ≤ t.injectedOf a.owner) ∧
        (all = 0 → ∀ o, t.injectedOf o = s.injectedOf o)))

/-- Partitions come, go and share the memory (spec/25). -/
def Obligations.Partitions : Prop := Spec.PartitionEvents ∧ Spec.BandwidthBounded

/-! ## Monitoring banks (spec/25 R399, R400, spec/27) -/

/-- BANKOWN_WRITE gives a pool bank to the physical function, with its notice to the function that held it, or frees one; BCLAIM
grants a free bank, cleared, to a virtual function, reads busy for one that another holds and not allowed for a reserved one; a
release clears and frees it. Where both claim a bank in one tick the physical function has it, the other reads busy, and no notice is
sent (R399, R400). -/
def Sys2Proof.Spec.BankOwners : Prop :=
  ∀ (s : State) (b : BitVec 7), s.boot.stage ≠ .minimal →
    let reserved := 1 ≤ b.toNat ∧ b.toNat ≤ 63
    let claim := fun (u : State) (fn : BitVec 6) (v : BitVec 2) => u.modFn fn fun r => { r with claim := b, bclaim := v }
    (¬ reserved → (s.bank b).claimed ≠ some s.tick → exec (.bankownWrite b 0x7F) s = .next ((s.claimNotice b).giveBank b 0x7F)) ∧
    (¬ reserved → (s.bank b).owner = 0x7F → exec (.bankownWrite b 0) s = .next (s.giveBank b 0)) ∧
    (reserved → ∀ v, exec (.bankownWrite b v) s = .next s) ∧
    ∀ fn : BitVec 6, fn ≠ 0 →
      (reserved → ∀ pf, exec (.bclaimClaim fn b pf) s = .next (claim s fn 2)) ∧
      (¬ reserved → ((s.bank b).owner = 0 ∨ (s.bank b).owner = fn.setWidth 7) →
        (∃ t, exec (.bclaimClaim fn b false) s = .next t ∧ t.bank b = 
            { MBank.zero with owner := fn.setWidth 7, claimed := some s.tick } ∧
          t.fns[fn.toNat] = { s.fns[fn.toNat] with claim := b, bclaim := 0 } ∧ (∀ c, c ≠ b → (t.bank c).owner = (s.bank c).owner) ∧
          ∀ u, exec (.bankownWrite b 0x7F) t = .next u → (u.bank b).owner = 0x7F ∧ (u.fns[fn.toNat]).bclaim = 1 ∧
            u.mboxes = s.mboxes) ∧
        ∃ t, exec (.bclaimClaim fn b true) s = .next t ∧ (t.bank b).owner = 0x7F ∧ (t.fns[fn.toNat]).bclaim = 1 ∧
          t.mboxes = s.mboxes) ∧
      (¬ reserved → (s.bank b).owner ≠ 0 → (s.bank b).owner ≠ fn.setWidth 7 →
        exec (.bclaimClaim fn b false) s = .next (claim s fn 1) ∧
        ((s.bank b).claimed ≠ some s.tick →
          exec (.bclaimClaim fn b true) s = .next (claim ((s.claimNotice b).giveBank b 0x7F) fn 1))) ∧
      (¬ reserved → (s.bank b).owner = fn.setWidth 7 → exec (.bclaimRelease fn b) s = .next (s.giveBank b 0))

/-- The owner of a bank writes its registers and reads them: BCTL clears what was counted and sets ABSENT for an event this part lacks;
STOPTICK arms a stop ahead of its view and sets LATE at or past it; BSTAT and TWR read as Table 27.1 lays them out, BSTAT clearing its
flags. STOP_TICK takes effect once, gating the cores the bank covers under GATE, and under TRAP changing no memory; SAMPLE_RECORD
writes the record of the oldest sample that is complete at its place in the ring and counts it, or drops it when the ring is full: its
LAT is the view tick of its completion less that of its issue (R410 to R415; the tick a bank of the physical function that covers more than one partition compares with is the model's, assumption log
23). -/
def Sys2Proof.Spec.BankRegisters : Prop :=
  ∀ (s : State) fn b,
    (s.boot.stage ≠ .minimal → s.ownsBank fn b = true →
      (∀ v : Word, v.extractLsb' 0 2 ≠ 3 → exec (.bctlWrite fn b v) s = .next (s.modBank b fun k =>
        { k with mode := v.extractLsb' 0 2, keyKern := v.getLsbD 2, event := v.extractLsb' 8 8, total := 0, cells := [],
                 samples := [], pend := [], absent := k.absent || decide (0x0C ≤ (v.extractLsb' 8 8).toNat) })) ∧
      (∀ v : Word, v.extractLsb' 0 2 = 3 → exec (.bctlWrite fn b v) s = .next s) ∧
      (∀ tick arm act, exec (.stoptickArm fn b tick arm act) s = .next (s.modBank b fun k =>
        { k with stoptick := tick, act := act, arm := arm && decide (s.bankView k < tick.toNat),
                 late := k.late || decide (tick.toNat ≤ s.bankView k) }))) ∧
    (s.boot.stage ≠ .minimal → s.ownsBank fn b = false →
      (∀ v, exec (.bctlWrite fn b v) s = .next s) ∧ ∀ tick arm act, exec (.stoptickArm fn b tick arm act) s = .next s) ∧
    (s.boot.stage ≠ .minimal → fn = 0 ∨ s.ownsBank fn b = true →
      let k := s.bank b
      (∃ t, exec (.bstatRead fn b) s = .next t ∧
        leNat t.hostRead = k.sat.toNat + k.absent.toNat * 2 + k.late.toNat * 4 + k.tovf.toNat * 8 + k.nock.toNat * 16 +
          k.noroom.toNat * 32 + k.diverged.toNat * 64 + k.tdrop.toNat * 2 ^ 32 ∧
        t.bank b = { k with sat := false, absent := false, late := false, tovf := false, nock := false, noroom := false,
                            diverged := false }) ∧
      ∃ t, exec (.twrRead fn b) s = .next t ∧ leNat t.hostRead = k.twr.toNat ∧ t.bank b = k) ∧
    (let k := s.bank b
     (k.arm = true → k.stoptick.toNat ≤ s.bankView k →
      (k.act = false → exec (.stopTick b) s = .next ((s.modBank b fun k => { k with arm := false }).gateOn b)) ∧
      (k.act = true → ∃ t, exec (.stopTick b) s = .next t ∧ (t.bank b).arm = false ∧ s.memSame t)) ∧
     (k.arm = false ∨ s.bankView k < k.stoptick.toNat → exec (.stopTick b) s = .next s)) ∧
    (∀ rec (q : Sampled) v t0 before rest, (s.bank b).mode = 2 → (s.bank b).pend = before ++ q :: rest →
      (∀ r ∈ before, r.done = none) → q.done = some (v, t0) →
      let k := s.bank b
      let full := 2 ^ k.tlog2.toNat < (k.twr + 1 - k.trd).toNat
      let lat := min (v - q.head.toNat % 2 ^ 64) (2 ^ 32 - 1)
      ∃ t, exec (.sampleRecord b rec) s = .next t ∧ (t.bank b).pend = before ++ rest ∧
        (full → (t.bank b).twr = k.twr ∧ (t.bank b).tovf = true ∧ (t.bank b).tdrop = k.tdrop + 1 ∧ s.memSame t) ∧
        (¬ full → (t.bank b).twr = k.twr + 1 ∧ (t.bank b).tdrop = k.tdrop ∧
          t.gmem = (s.bankStore k (k.tbase.toNat + 64 * (k.twr.toNat % 2 ^ k.tlog2.toNat)) (sampleRecord q.head rec lat) false).gmem))

/-- Monitoring banks: owners, claims and registers (spec/25, spec/27). -/
def Obligations.Banks : Prop := Spec.BankOwners ∧ Spec.BankRegisters

/-- LEAPFROG_CHECKPOINT of a gang that one is due for gates its cores, or ends the recording with NOROOM where the area has no room; in a
later tick, unless a MIGRATE of the write set is about to copy, the copy of the gang, as it stands, is complete, and nothing gates the
cores for it any more. LEAP of a held bank begins the replay from the newest checkpoint older than the last instruction of the stream
up to that instruction's tick; with no such checkpoint it sets NOCK and changes nothing else. The replay first puts that checkpoint
back: the cores but for their gates, breakpoints, TLBs and instruction caches, the holds of their streams, and the partition's view at
the checkpoint's tick. RELEASE of a held bank ends its gate; REPLAY_DIVERGE of a replay sets DIVERGED, ends the replay and gates the
gang, its view in a leap at the tick of the divergence (R412, R419 to R421; the room that an area holds, and that a copy takes a tick or more,
is the model's own, assumption log 24). -/
def Obligations.LeapfrogEvents : Prop :=
  ∀ (s : State) fn b,
    let k := s.bank b
    (∀ n, s.lfNode k = some n → k.records = true → s.checkDue k n ≤ s.viewOf n.part →
      (∀ c ∈ n.cores, (s.core c).gated = false) → k.lf.copying = none →
      (k.room n 0 = false → exec (.leapfrogCheckpoint b) s = .next (s.modBank b fun k =>
        { k with noroom := true, lf := { k.lf with full := true } })) ∧
      (k.room n 0 = true → ∃ t, exec (.leapfrogCheckpoint b) s = .next t ∧ s.memSame t ∧
        (t.bank b).lf = { k.lf with copying := some (s.tick, n.cores) } ∧ ∀ c ∈ n.cores, (t.core c).gated = true)) ∧
    (∀ n t cores, s.lfNode k = some n → k.lf.copying = some (t, cores) →
      (s.tick ≤ t → exec (.leapfrogCheckpoint b) s = .next s) ∧
      (t < s.tick → s.lfWaits n = false → ∃ u q, exec (.leapfrogCheckpoint b) s = .next u ∧ (u.bank b).lf.copying = none ∧
        (u.bank b).lf.checks = ((q, []) :: k.lf.checks).take 2 ∧
        q.tick = s.viewOf n.part ∧ q.mem = s.setBytes n ∧ q.cores = n.cores.map fun c => (c, s.core c))) ∧
    (s.boot.stage ≠ .minimal → s.ownsBank fn b = true → k.held = true →
      (s.lfNode k = none → ∀ x, exec (.leap fn b x true) s = .next (s.modBank b fun k => { k with nock := true })) ∧
      (∀ n c, s.lfNode k = some n → n.cores.head? = some c → ∀ x,
        (lastIssue c x (s.viewOf n.part) k.lf.issues = none →
          exec (.leap fn b x true) s = .next (s.modBank b fun k => { k with nock := true })) ∧
        (∀ t, lastIssue c x (s.viewOf n.part) k.lf.issues = some t → (∀ q ∈ k.lf.checks, t ≤ q.1.tick) →
          exec (.leap fn b x true) s = .next (s.modBank b fun k => { k with nock := true })) ∧
        (∀ t p log older, lastIssue c x (s.viewOf n.part) k.lf.issues = some t → k.lf.full = false →
          k.lf.checks = (p, log) :: older → p.tick < t → exec (.leap fn b x true) s = .next (s.modBank b fun k =>
            { k with lf := { k.lf with copying := none, resume := some ⟨n.cores, some p, log.reverse, some t,
                (k.lf.resume.map (·.stop)).getD (s.viewOf n.part)⟩ } }))) ∧
      exec (.release fn b) s = .next ((s.modBank b fun k => { k with held := false, only := none }).gateSync)) ∧
    (∀ n r p, s.lfNode k = some n → k.lf.resume = some r → r.start = some p → p.tick ≤ s.tick → (p.cores.map (·.1)).Nodup →
      let u := s.replayStep b
      u.viewOf n.part = p.tick ∧ (u.bank b).lf.resume = some { r with start := none } ∧
      u.watches = (s.watches.filter fun w => !n.cores.contains w.c) ++ p.watches ∧
      ∀ e ∈ p.cores, (u.core e.1).unmarked = e.2.unmarked ∧ (u.core e.1).gated = (s.core e.1).gated ∧
        (u.core e.1).tlb = (s.core e.1).tlb ∧ (u.core e.1).icache = (s.core e.1).icache ∧
        ∀ x, (u.stream e.1 x).brk = (s.stream e.1 x).brk) ∧
    (∀ r, k.lf.resume = some r → (k.held = true → ∀ c ∈ r.cores, s.holdsCore k c = true) →
      ∃ u, exec (.replayDiverge b) s = .next u ∧ s.memSame u ∧ (u.bank b).diverged = true ∧
      (u.bank b).held = true ∧ (u.bank b).lf.resume = none ∧ (u.bank b).only = (if k.held = true then k.only else some r.cores) ∧
      (∀ c ∈ r.cores, (u.core c).gated = true) ∧
      ∀ n, s.lfNode k = some n → r.leapTo ≠ none → r.next ≤ s.tick → u.viewOf n.part = r.next)
/-! ## Errors, scrubbing, power (spec/26, spec/28) and the management registers -/

/-- MEMORY_ERROR: an uncorrectable error of a granule of device memory, or of a cistern, poisons that granule and no byte changes; one
of a tile row poisons that row and no value changes; a corrected one changes neither byte, value nor poison; host memory that PCI
Express marks poisoned is poisoned. The third mismatch of a core within 2^31 ticks marks it, and CORE_OFFLINE takes a marked core with
no gang out of service (R401, R402, R405). -/
def Sys2Proof.Spec.ErrorEvents : Prop :=
  ∀ (s : State) syn,
    (∀ g r, regionOf (64 * g.toNat) = some r →
      (∃ t, exec (.memoryError (.global g) true syn) s = .next t ∧ s.memSame t ∧ t.gmem.mem.bad g.toNat = true ∧
        ∀ h, h ≠ g.toNat → t.gmem.mem.bad h = s.gmem.mem.bad h) ∧
      ∃ t, exec (.memoryError (.global g) false syn) s = .next t ∧ t.gmem = s.gmem ∧ t.cores = s.cores) ∧
    (∀ g, regionOf (64 * g.toNat) = none → inHost (64 * g.toNat) = true →
      ∃ t, exec (.memoryError (.global g) true syn) s = .next t ∧ s.memSame t ∧ t.gmem.mem.bad g.toNat = true) ∧
    (∀ c g, ∃ t, exec (.memoryError (.cistern c g) true syn) s = .next t ∧ s.memSame t ∧
      (t.core c).cistern.bad g.toNat = true) ∧
    (∀ c r row, ∃ t, exec (.memoryError (.tile c r row) true syn) s = .next t ∧
      (t.core c).tiles[r.toNat].val = (s.core c).tiles[r.toNat].val ∧
      (t.core c).tiles[r.toNat].cnt = (s.core c).tiles[r.toNat].cnt ∧
      ∀ j, j < 32 → (t.core c).tiles[r.toNat].poison.getLsbD j =
        (decide (j = row.toNat) || (s.core c).tiles[r.toNat].poison.getLsbD j)) ∧
    (∀ c, (s.core c).offline = false → (s.core c).task = none → s.heldBy c = none → (s.core c).worn = true →
      ∃ t, exec (.coreOffline c) s = .next t ∧ (t.core c).offline = true ∧ ∀ d, d ≠ c → t.core d = s.core d) ∧
    (∀ c u pc, ((s.mismatch c u pc).core c).worn = true ↔ (s.core c).worn = true ∨
      ∃ a m, (s.core c).mismatches.take 2 = [a, m] ∧ s.tick ≤ m + 2 ^ 31)

/-- SCRUB_READ, when the scrub lags its position by a granule, at no more than twice its rate and while its channel does not yield, goes on
to the next granule of its region, and counts a pass at its end; before that it changes nothing. SENSOR_SAMPLE comes 2,000,000 ticks
after the last or after the start: it takes all the temperatures, computes every scrub rate again and holds the clock at 1.0 GHz from
105 °C until the hottest junction is below 100. POWER_SAMPLE comes 2,000 ticks after the last or after the start, with a draw that the
limit allows, now and on average over the last 1 ms, and moves the clock by one step as the draw stands to the limit; at 2.0 GHz
nothing holds it. THERMAL_STOP at 115 °C stops the module, which then does nothing but start again. PWRCTL_WRITE takes a limit
of 600 W to 2,400 W (R406, R407, R422, R423, R426; how a lag and a busy channel are counted, and when a draw above the limit counts
as acted on, is the model's, assumption logs 6 and 19). -/
def Sys2Proof.Spec.PowerEvents : Prop :=
  ∀ (s : State),
    (∀ r : Fin 40,
      let g := s.scrub[r.val]
      (g.due r s.tick = false → ∀ x y, exec (.scrubRead r x y) s = .next s) ∧
      (g.due r s.tick = true → ∃ t, exec (.scrubRead r false false) s = .next t ∧ t.gmem = s.gmem ∧ t.cores = s.cores ∧
        (t.scrub[r.val]).last = some s.tick ∧
        (64 * (g.pos + 1) < regionSize r → (t.scrub[r.val]).pos = g.pos + 1 ∧ (t.scrub[r.val]).passes = g.passes) ∧
        (regionSize r ≤ 64 * (g.pos + 1) → (t.scrub[r.val]).pos = 0 ∧ (t.scrub[r.val]).passes = g.passes + 1))) ∧
    (∀ (temps : Vector Nat 40) (die0 die1 : Vector Nat 4),
      let js : Vector Nat 8 := die0 ++ die1
      (s.tick < s.power.sensedAt.getD s.boot.powered + 2000000 → exec (.sensorSample temps die0 die1) s = .next s) ∧
      (s.power.sensedAt.getD s.boot.powered + 2000000 ≤ s.tick →
        ∃ t, exec (.sensorSample temps die0 die1) s = .next t ∧ t.gmem = s.gmem ∧ t.cores = s.cores ∧ t.power.junctions = js ∧
          t.power.sensedAt = some s.tick ∧
          (∀ r : Fin 40, (t.scrub[r.val]).temp = temps[r.val] ∧
            let n := ((s.scrub[r.val]).corrected.filter fun t => s.tick < t + 20000000000).length
            (t.scrub[r.val]).mult16 = min 4096 (2 ^ ((temps[r.val] - 75) / 10) * (16 + n))) ∧
          ((∃ j ∈ js.toList, 105 ≤ j) → t.power.tcap = true ∧ t.power.fstep = 10) ∧
          ((∀ j ∈ js.toList, j < 100) → t.power.tcap = false ∧ t.power.fstep = s.power.fstep) ∧
          ((∃ j ∈ js.toList, 100 ≤ j) → (∀ j ∈ js.toList, j < 105) →
            t.power.tcap = s.power.tcap ∧ (s.power.tcap = true → t.power.fstep = 10)))) ∧
    (∀ w : BitVec 12,
      let lim := s.power.plim.toNat
      let last := s.power.recent.filter fun r => decide (s.tick < r.1 + 2000000)
      let drawn := (last.map (·.2.1)).sum
      let allowed := (last.map (·.2.2)).sum + (1000 - last.length) * lim
      let above := ∃ t n q, s.power.recent.head? = some (t, n, q) ∧ q < n
      let tooMuch := 2640 < w.toNat ∨ 11 * lim < 10 * w.toNat ∨ (above ∧ lim < w.toNat) ∨ (0 < w.toNat ∧ allowed < drawn + w.toNat)
      (s.tick < s.power.sampledAt.getD s.boot.powered + 2000 → exec (.powerSample w) s = .next s) ∧
      (tooMuch → exec (.powerSample w) s = .next s) ∧
      (s.power.sampledAt.getD s.boot.powered + 2000 ≤ s.tick → ¬ tooMuch →
        ∃ t, exec (.powerSample w) s = .next t ∧ t.power.bpwr = w ∧ t.cores = s.cores ∧ t.power.sampledAt = some s.tick ∧
          t.power.recent = (s.tick, w.toNat, lim) :: s.power.recent.take 998 ∧ (t.power.fstep = 20 → t.power.pcap = false) ∧
          (s.power.tcap = false →
            (s.power.plim.toNat < w.toNat → 10 < s.power.fstep.toNat → t.power.fstep = s.power.fstep - 1) ∧
            (100 * w.toNat < 95 * s.power.plim.toNat → s.power.fstep.toNat < 20 → t.power.fstep = s.power.fstep + 1)) ∧
          (s.power.tcap = true → t.power.fstep = 10 ∧ t.power.pcap = false))) ∧
    ((∃ j ∈ s.power.junctions.toList, 115 ≤ j) → s.power.stopped = false → ∃ t, exec .thermalStop s = .next t ∧
      t.power.stopped = true ∧ t.cores = s.cores ∧
      ∀ d i rest, step { t with sched := (d, .event i) :: rest } = .fault .moduleStopped ∨ ∃ inp full, i = .powerOn inp full) ∧
    (∀ v : BitVec 12, s.boot.stage ≠ .minimal → exec (.pwrctlWrite v) s = .next (if 600 ≤ v.toNat ∧ v.toNat ≤ 2400
      then { s with power := { s.power with plim := v } } else s))

/-- Reliability and power (spec/26, spec/28). -/
def Obligations.ErrorsAndPower : Prop := Spec.ErrorEvents ∧ Spec.PowerEvents

/-- REGISTER_WRITE: a field that EN locks is written in a disabled partition's record and sets PARTERR in an enabled one's; another
field of the record takes effect at the next tick, and reads so at once; a share that would take a die beyond 100 sets PARTERR; a PCTL
write that would change MODE while EN is set is refused; a routing or key entry goes to the inactive bank, and to the active one sets
BANKERR; DEVID takes any value but 0xFFFF; a function that does not own a bank writes none of its registers; the read index of the error
ring is taken; in minimal mode nothing is written (R380, R381, R389, R394, R398, R408, R410). -/
def Obligations.RegisterWrites : Prop :=
  ∀ (s : State), (s.boot.stage = .minimal → ∀ r, exec (.registerWrite r) s = .next s) ∧
    (s.boot.stage ≠ .minimal →
      (∀ p v, (s.part p).en = true → exec (.registerWrite (.units p v)) s = .next { s with parterr := true }) ∧
      (∀ p v, (s.part p).en = false →
        exec (.registerWrite (.units p v)) s = .next (s.modPart p fun r => { r with units := v })) ∧
      (∀ p v, ∃ t, exec (.registerWrite (.slice p v)) s = .next t ∧ t.parts = s.parts ∧ (t.partRecord p).slice = v ∧
        ∀ q, t.takeFields.part q = t.partRecord q) ∧
      (∀ p die v, (s.part p).en = true → 100 < s.shareSum p die + v.toNat →
        exec (.registerWrite (.share p die v)) s = .next { s with parterr := true }) ∧
      (∀ p (v : BitVec 8), (s.part p).en = true → v.getLsbD 1 ≠ (s.part p).shared →
        exec (.registerWrite (.pctl p v)) s = .next { s with parterr := true }) ∧
      (∀ dev v, exec (.registerWrite (.routing s.fabric.routeBank dev v)) s = .next { s with bankerr := true }) ∧
      (∀ dev v, s.fabric.routeBank = false → exec (.registerWrite (.routing true dev v)) s = .next { s with
        fabric := { s.fabric with routeB := s.fabric.routeB.set dev.toNat (v &&& 0x3FFFFF) } }) ∧
      (∀ key v, exec (.registerWrite (.keyTab s.fabric.keyBank key v)) s = .next { s with bankerr := true }) ∧
      (∀ v, exec (.registerWrite (.devid v)) s =
        .next (if v = 0xFFFF then s else { s with fabric := { s.fabric with devid := v } })) ∧
      (∀ fn b, s.ownsBank fn b = false → (∀ v, exec (.registerWrite (.bfilt fn b v)) s = .next s) ∧
        (∀ v, exec (.registerWrite (.tbase fn b v)) s = .next s) ∧ ∀ v, exec (.registerWrite (.lfctl fn b v)) s = .next s) ∧
      ∀ v, exec (.registerWrite (.errRd v)) s = .next { s with errs := { s.errs with rd := v } })
end

