-- ==== Sys2Proof/Laws/Core.lean ====
section
/-! SUPPORT. The core record under its updates: one lemma for each field and each update, and the hard-wired registers. -/

namespace Sys2Proof.Machine

/-! ## Core.setStream -/

@[simp] theorem Core.setStream_m (k : Core) (x : StreamId) (v : Stream) : (k.setStream x v).m = k.m := by cases x <;> rfl
@[simp] theorem Core.setStream_tiles (k : Core) (x : StreamId) (v : Stream) : (k.setStream x v).tiles = k.tiles := by cases x <;> rfl
@[simp] theorem Core.setStream_accs (k : Core) (x : StreamId) (v : Stream) : (k.setStream x v).accs = k.accs := by cases x <;> rfl
@[simp] theorem Core.setStream_sigs (k : Core) (x : StreamId) (v : Stream) : (k.setStream x v).sigs = k.sigs := by cases x <;> rfl
@[simp] theorem Core.setStream_cistern (k : Core) (x : StreamId) (v : Stream) : (k.setStream x v).cistern = k.cistern := by cases x <;> rfl
@[simp] theorem Core.setStream_tags (k : Core) (x : StreamId) (v : Stream) : (k.setStream x v).tags = k.tags := by cases x <;> rfl
@[simp] theorem Core.setStream_wbuf (k : Core) (x : StreamId) (v : Stream) : (k.setStream x v).wbuf = k.wbuf := by cases x <;> rfl
@[simp] theorem Core.setStream_cells (k : Core) (x : StreamId) (v : Stream) : (k.setStream x v).cells = k.cells := by cases x <;> rfl
@[simp] theorem Core.setStream_gmode (k : Core) (x : StreamId) (v : Stream) : (k.setStream x v).gmode = k.gmode := by cases x <;> rfl
@[simp] theorem Core.setStream_pqlim (k : Core) (x : StreamId) (v : Stream) : (k.setStream x v).pqlim = k.pqlim := by cases x <;> rfl
@[simp] theorem Core.setStream_uhvec (k : Core) (x : StreamId) (v : Stream) : (k.setStream x v).uhvec = k.uhvec := by cases x <;> rfl
@[simp] theorem Core.setStream_udeleg0 (k : Core) (x : StreamId) (v : Stream) : (k.setStream x v).udeleg0 = k.udeleg0 := by cases x <;> rfl
@[simp] theorem Core.setStream_udeleg1 (k : Core) (x : StreamId) (v : Stream) : (k.setStream x v).udeleg1 = k.udeleg1 := by cases x <;> rfl
@[simp] theorem Core.setStream_shvec (k : Core) (x : StreamId) (v : Stream) : (k.setStream x v).shvec = k.shvec := by cases x <;> rfl
@[simp] theorem Core.setStream_dlwait (k : Core) (x : StreamId) (v : Stream) : (k.setStream x v).dlwait = k.dlwait := by cases x <;> rfl
@[simp] theorem Core.setStream_hl (k : Core) (x : StreamId) (v : Stream) : (k.setStream x v).hl = k.hl := by cases x <;> rfl
@[simp] theorem Core.setStream_entry1 (k : Core) (x : StreamId) (v : Stream) : (k.setStream x v).entry1 = k.entry1 := by cases x <;> rfl
@[simp] theorem Core.setStream_entry2 (k : Core) (x : StreamId) (v : Stream) : (k.setStream x v).entry2 = k.entry2 := by cases x <;> rfl
@[simp] theorem Core.setStream_bank1 (k : Core) (x : StreamId) (v : Stream) : (k.setStream x v).bank1 = k.bank1 := by cases x <;> rfl
@[simp] theorem Core.setStream_bank2 (k : Core) (x : StreamId) (v : Stream) : (k.setStream x v).bank2 = k.bank2 := by cases x <;> rfl
@[simp] theorem Core.setStream_trap1 (k : Core) (x : StreamId) (v : Stream) : (k.setStream x v).trap1 = k.trap1 := by cases x <;> rfl
@[simp] theorem Core.setStream_trap2 (k : Core) (x : StreamId) (v : Stream) : (k.setStream x v).trap2 = k.trap2 := by cases x <;> rfl
@[simp] theorem Core.setStream_held (k : Core) (x : StreamId) (v : Stream) : (k.setStream x v).held = k.held := by cases x <;> rfl
@[simp] theorem Core.setStream_escal (k : Core) (x : StreamId) (v : Stream) : (k.setStream x v).escal = k.escal := by cases x <;> rfl
@[simp] theorem Core.setStream_ctrlEsc (k : Core) (x : StreamId) (v : Stream) : (k.setStream x v).ctrlEsc = k.ctrlEsc := by cases x <;> rfl
@[simp] theorem Core.setStream_posted (k : Core) (x : StreamId) (v : Stream) : (k.setStream x v).posted = k.posted := by cases x <;> rfl
@[simp] theorem Core.setStream_forked (k : Core) (x : StreamId) (v : Stream) : (k.setStream x v).forked = k.forked := by cases x <;> rfl
@[simp] theorem Core.setStream_barOrd (k : Core) (x : StreamId) (v : Stream) : (k.setStream x v).barOrd = k.barOrd := by cases x <;> rfl
@[simp] theorem Core.setStream_barArr (k : Core) (x : StreamId) (v : Stream) : (k.setStream x v).barArr = k.barArr := by cases x <;> rfl
@[simp] theorem Core.setStream_aq (k : Core) (x : StreamId) (v : Stream) : (k.setStream x v).aq = k.aq := by cases x <;> rfl
@[simp] theorem Core.setStream_platch (k : Core) (x : StreamId) (v : Stream) : (k.setStream x v).platch = k.platch := by cases x <;> rfl
@[simp] theorem Core.setStream_latch (k : Core) (x : StreamId) (v : Stream) : (k.setStream x v).latch = k.latch := by cases x <;> rfl
@[simp] theorem Core.setStream_nestSet (k : Core) (x : StreamId) (v : Stream) : (k.setStream x v).nestSet = k.nestSet := by cases x <;> rfl
@[simp] theorem Core.setStream_nestBand (k : Core) (x : StreamId) (v : Stream) : (k.setStream x v).nestBand = k.nestBand := by cases x <;> rfl
@[simp] theorem Core.setStream_nestPoison (k : Core) (x : StreamId) (v : Stream) : (k.setStream x v).nestPoison = k.nestPoison := by cases x <;> rfl
@[simp] theorem Core.setStream_npck (k : Core) (x : StreamId) (v : Stream) : (k.setStream x v).npck = k.npck := by cases x <;> rfl
@[simp] theorem Core.setStream_ngrp (k : Core) (x : StreamId) (v : Stream) : (k.setStream x v).ngrp = k.ngrp := by cases x <;> rfl
@[simp] theorem Core.setStream_nfault (k : Core) (x : StreamId) (v : Stream) : (k.setStream x v).nfault = k.nfault := by cases x <;> rfl
@[simp] theorem Core.setStream_pumpq (k : Core) (x : StreamId) (v : Stream) : (k.setStream x v).pumpq = k.pumpq := by cases x <;> rfl
@[simp] theorem Core.setStream_pump0 (k : Core) (x : StreamId) (v : Stream) : (k.setStream x v).pump0 = k.pump0 := by cases x <;> rfl
@[simp] theorem Core.setStream_pump1 (k : Core) (x : StreamId) (v : Stream) : (k.setStream x v).pump1 = k.pump1 := by cases x <;> rfl
@[simp] theorem Core.setStream_landed (k : Core) (x : StreamId) (v : Stream) : (k.setStream x v).landed = k.landed := by cases x <;> rfl
@[simp] theorem Core.setStream_geom (k : Core) (x : StreamId) (v : Stream) : (k.setStream x v).geom = k.geom := by cases x <;> rfl
@[simp] theorem Core.setStream_gstat (k : Core) (x : StreamId) (v : Stream) : (k.setStream x v).gstat = k.gstat := by cases x <;> rfl
@[simp] theorem Core.setStream_vwrites (k : Core) (x : StreamId) (v : Stream) : (k.setStream x v).vwrites = k.vwrites := by cases x <;> rfl
@[simp] theorem Core.setStream_interval (k : Core) (x : StreamId) (v : Stream) : (k.setStream x v).interval = k.interval := by cases x <;> rfl
@[simp] theorem Core.setStream_loads (k : Core) (x : StreamId) (v : Stream) : (k.setStream x v).loads = k.loads := by cases x <;> rfl
@[simp] theorem Core.setStream_seq (k : Core) (x : StreamId) (v : Stream) : (k.setStream x v).seq = k.seq := by cases x <;> rfl
@[simp] theorem Core.setStream_wdSince (k : Core) (x : StreamId) (v : Stream) : (k.setStream x v).wdSince = k.wdSince := by cases x <;> rfl
@[simp] theorem Core.setStream_tlb (k : Core) (x : StreamId) (v : Stream) : (k.setStream x v).tlb = k.tlb := by cases x <;> rfl
@[simp] theorem Core.setStream_icache (k : Core) (x : StreamId) (v : Stream) : (k.setStream x v).icache = k.icache := by cases x <;> rfl
@[simp] theorem Core.setStream_codeView (k : Core) (x : StreamId) (v : Stream) : (k.setStream x v).codeView = k.codeView := by cases x <;> rfl
@[simp] theorem Core.setStream_task (k : Core) (x : StreamId) (v : Stream) : (k.setStream x v).task = k.task := by cases x <;> rfl
@[simp] theorem Core.setStream_drainSince (k : Core) (x : StreamId) (v : Stream) : (k.setStream x v).drainSince = k.drainSince := by cases x <;> rfl
@[simp] theorem Core.setStream_saving (k : Core) (x : StreamId) (v : Stream) : (k.setStream x v).saving = k.saving := by cases x <;> rfl
@[simp] theorem Core.setStream_zeroing (k : Core) (x : StreamId) (v : Stream) : (k.setStream x v).zeroing = k.zeroing := by cases x <;> rfl
@[simp] theorem Core.setStream_lastPart (k : Core) (x : StreamId) (v : Stream) : (k.setStream x v).lastPart = k.lastPart := by cases x <;> rfl
@[simp] theorem Core.setStream_offline (k : Core) (x : StreamId) (v : Stream) : (k.setStream x v).offline = k.offline := by cases x <;> rfl
@[simp] theorem Core.setStream_mismatches (k : Core) (x : StreamId) (v : Stream) : (k.setStream x v).mismatches = k.mismatches := by cases x <;> rfl
@[simp] theorem Core.setStream_worn (k : Core) (x : StreamId) (v : Stream) : (k.setStream x v).worn = k.worn := by cases x <;> rfl
@[simp] theorem Core.setStream_gated (k : Core) (x : StreamId) (v : Stream) : (k.setStream x v).gated = k.gated := by cases x <;> rfl

/-! ## Core.modStream -/

@[simp] theorem Core.modStream_m (k : Core) (x : StreamId) (f : Stream → Stream) : (k.modStream x f).m = k.m := by cases x <;> rfl
@[simp] theorem Core.modStream_tiles (k : Core) (x : StreamId) (f : Stream → Stream) : (k.modStream x f).tiles = k.tiles := by cases x <;> rfl
@[simp] theorem Core.modStream_accs (k : Core) (x : StreamId) (f : Stream → Stream) : (k.modStream x f).accs = k.accs := by cases x <;> rfl
@[simp] theorem Core.modStream_sigs (k : Core) (x : StreamId) (f : Stream → Stream) : (k.modStream x f).sigs = k.sigs := by cases x <;> rfl
@[simp] theorem Core.modStream_cistern (k : Core) (x : StreamId) (f : Stream → Stream) : (k.modStream x f).cistern = k.cistern := by cases x <;> rfl
@[simp] theorem Core.modStream_tags (k : Core) (x : StreamId) (f : Stream → Stream) : (k.modStream x f).tags = k.tags := by cases x <;> rfl
@[simp] theorem Core.modStream_wbuf (k : Core) (x : StreamId) (f : Stream → Stream) : (k.modStream x f).wbuf = k.wbuf := by cases x <;> rfl
@[simp] theorem Core.modStream_cells (k : Core) (x : StreamId) (f : Stream → Stream) : (k.modStream x f).cells = k.cells := by cases x <;> rfl
@[simp] theorem Core.modStream_gmode (k : Core) (x : StreamId) (f : Stream → Stream) : (k.modStream x f).gmode = k.gmode := by cases x <;> rfl
@[simp] theorem Core.modStream_pqlim (k : Core) (x : StreamId) (f : Stream → Stream) : (k.modStream x f).pqlim = k.pqlim := by cases x <;> rfl
@[simp] theorem Core.modStream_uhvec (k : Core) (x : StreamId) (f : Stream → Stream) : (k.modStream x f).uhvec = k.uhvec := by cases x <;> rfl
@[simp] theorem Core.modStream_udeleg0 (k : Core) (x : StreamId) (f : Stream → Stream) : (k.modStream x f).udeleg0 = k.udeleg0 := by cases x <;> rfl
@[simp] theorem Core.modStream_udeleg1 (k : Core) (x : StreamId) (f : Stream → Stream) : (k.modStream x f).udeleg1 = k.udeleg1 := by cases x <;> rfl
@[simp] theorem Core.modStream_shvec (k : Core) (x : StreamId) (f : Stream → Stream) : (k.modStream x f).shvec = k.shvec := by cases x <;> rfl
@[simp] theorem Core.modStream_dlwait (k : Core) (x : StreamId) (f : Stream → Stream) : (k.modStream x f).dlwait = k.dlwait := by cases x <;> rfl
@[simp] theorem Core.modStream_hl (k : Core) (x : StreamId) (f : Stream → Stream) : (k.modStream x f).hl = k.hl := by cases x <;> rfl
@[simp] theorem Core.modStream_entry1 (k : Core) (x : StreamId) (f : Stream → Stream) : (k.modStream x f).entry1 = k.entry1 := by cases x <;> rfl
@[simp] theorem Core.modStream_entry2 (k : Core) (x : StreamId) (f : Stream → Stream) : (k.modStream x f).entry2 = k.entry2 := by cases x <;> rfl
@[simp] theorem Core.modStream_bank1 (k : Core) (x : StreamId) (f : Stream → Stream) : (k.modStream x f).bank1 = k.bank1 := by cases x <;> rfl
@[simp] theorem Core.modStream_bank2 (k : Core) (x : StreamId) (f : Stream → Stream) : (k.modStream x f).bank2 = k.bank2 := by cases x <;> rfl
@[simp] theorem Core.modStream_trap1 (k : Core) (x : StreamId) (f : Stream → Stream) : (k.modStream x f).trap1 = k.trap1 := by cases x <;> rfl
@[simp] theorem Core.modStream_trap2 (k : Core) (x : StreamId) (f : Stream → Stream) : (k.modStream x f).trap2 = k.trap2 := by cases x <;> rfl
@[simp] theorem Core.modStream_held (k : Core) (x : StreamId) (f : Stream → Stream) : (k.modStream x f).held = k.held := by cases x <;> rfl
@[simp] theorem Core.modStream_escal (k : Core) (x : StreamId) (f : Stream → Stream) : (k.modStream x f).escal = k.escal := by cases x <;> rfl
@[simp] theorem Core.modStream_ctrlEsc (k : Core) (x : StreamId) (f : Stream → Stream) : (k.modStream x f).ctrlEsc = k.ctrlEsc := by cases x <;> rfl
@[simp] theorem Core.modStream_posted (k : Core) (x : StreamId) (f : Stream → Stream) : (k.modStream x f).posted = k.posted := by cases x <;> rfl
@[simp] theorem Core.modStream_forked (k : Core) (x : StreamId) (f : Stream → Stream) : (k.modStream x f).forked = k.forked := by cases x <;> rfl
@[simp] theorem Core.modStream_barOrd (k : Core) (x : StreamId) (f : Stream → Stream) : (k.modStream x f).barOrd = k.barOrd := by cases x <;> rfl
@[simp] theorem Core.modStream_barArr (k : Core) (x : StreamId) (f : Stream → Stream) : (k.modStream x f).barArr = k.barArr := by cases x <;> rfl
@[simp] theorem Core.modStream_aq (k : Core) (x : StreamId) (f : Stream → Stream) : (k.modStream x f).aq = k.aq := by cases x <;> rfl
@[simp] theorem Core.modStream_platch (k : Core) (x : StreamId) (f : Stream → Stream) : (k.modStream x f).platch = k.platch := by cases x <;> rfl
@[simp] theorem Core.modStream_latch (k : Core) (x : StreamId) (f : Stream → Stream) : (k.modStream x f).latch = k.latch := by cases x <;> rfl
@[simp] theorem Core.modStream_nestSet (k : Core) (x : StreamId) (f : Stream → Stream) : (k.modStream x f).nestSet = k.nestSet := by cases x <;> rfl
@[simp] theorem Core.modStream_nestBand (k : Core) (x : StreamId) (f : Stream → Stream) : (k.modStream x f).nestBand = k.nestBand := by cases x <;> rfl
@[simp] theorem Core.modStream_nestPoison (k : Core) (x : StreamId) (f : Stream → Stream) : (k.modStream x f).nestPoison = k.nestPoison := by cases x <;> rfl
@[simp] theorem Core.modStream_npck (k : Core) (x : StreamId) (f : Stream → Stream) : (k.modStream x f).npck = k.npck := by cases x <;> rfl
@[simp] theorem Core.modStream_ngrp (k : Core) (x : StreamId) (f : Stream → Stream) : (k.modStream x f).ngrp = k.ngrp := by cases x <;> rfl
@[simp] theorem Core.modStream_nfault (k : Core) (x : StreamId) (f : Stream → Stream) : (k.modStream x f).nfault = k.nfault := by cases x <;> rfl
@[simp] theorem Core.modStream_pumpq (k : Core) (x : StreamId) (f : Stream → Stream) : (k.modStream x f).pumpq = k.pumpq := by cases x <;> rfl
@[simp] theorem Core.modStream_pump0 (k : Core) (x : StreamId) (f : Stream → Stream) : (k.modStream x f).pump0 = k.pump0 := by cases x <;> rfl
@[simp] theorem Core.modStream_pump1 (k : Core) (x : StreamId) (f : Stream → Stream) : (k.modStream x f).pump1 = k.pump1 := by cases x <;> rfl
@[simp] theorem Core.modStream_landed (k : Core) (x : StreamId) (f : Stream → Stream) : (k.modStream x f).landed = k.landed := by cases x <;> rfl
@[simp] theorem Core.modStream_geom (k : Core) (x : StreamId) (f : Stream → Stream) : (k.modStream x f).geom = k.geom := by cases x <;> rfl
@[simp] theorem Core.modStream_gstat (k : Core) (x : StreamId) (f : Stream → Stream) : (k.modStream x f).gstat = k.gstat := by cases x <;> rfl
@[simp] theorem Core.modStream_vwrites (k : Core) (x : StreamId) (f : Stream → Stream) : (k.modStream x f).vwrites = k.vwrites := by cases x <;> rfl
@[simp] theorem Core.modStream_interval (k : Core) (x : StreamId) (f : Stream → Stream) : (k.modStream x f).interval = k.interval := by cases x <;> rfl
@[simp] theorem Core.modStream_loads (k : Core) (x : StreamId) (f : Stream → Stream) : (k.modStream x f).loads = k.loads := by cases x <;> rfl
@[simp] theorem Core.modStream_seq (k : Core) (x : StreamId) (f : Stream → Stream) : (k.modStream x f).seq = k.seq := by cases x <;> rfl
@[simp] theorem Core.modStream_wdSince (k : Core) (x : StreamId) (f : Stream → Stream) : (k.modStream x f).wdSince = k.wdSince := by cases x <;> rfl
@[simp] theorem Core.modStream_tlb (k : Core) (x : StreamId) (f : Stream → Stream) : (k.modStream x f).tlb = k.tlb := by cases x <;> rfl
@[simp] theorem Core.modStream_icache (k : Core) (x : StreamId) (f : Stream → Stream) : (k.modStream x f).icache = k.icache := by cases x <;> rfl
@[simp] theorem Core.modStream_codeView (k : Core) (x : StreamId) (f : Stream → Stream) : (k.modStream x f).codeView = k.codeView := by cases x <;> rfl
@[simp] theorem Core.modStream_task (k : Core) (x : StreamId) (f : Stream → Stream) : (k.modStream x f).task = k.task := by cases x <;> rfl
@[simp] theorem Core.modStream_drainSince (k : Core) (x : StreamId) (f : Stream → Stream) : (k.modStream x f).drainSince = k.drainSince := by cases x <;> rfl
@[simp] theorem Core.modStream_saving (k : Core) (x : StreamId) (f : Stream → Stream) : (k.modStream x f).saving = k.saving := by cases x <;> rfl
@[simp] theorem Core.modStream_zeroing (k : Core) (x : StreamId) (f : Stream → Stream) : (k.modStream x f).zeroing = k.zeroing := by cases x <;> rfl
@[simp] theorem Core.modStream_lastPart (k : Core) (x : StreamId) (f : Stream → Stream) : (k.modStream x f).lastPart = k.lastPart := by cases x <;> rfl
@[simp] theorem Core.modStream_offline (k : Core) (x : StreamId) (f : Stream → Stream) : (k.modStream x f).offline = k.offline := by cases x <;> rfl
@[simp] theorem Core.modStream_mismatches (k : Core) (x : StreamId) (f : Stream → Stream) : (k.modStream x f).mismatches = k.mismatches := by cases x <;> rfl
@[simp] theorem Core.modStream_worn (k : Core) (x : StreamId) (f : Stream → Stream) : (k.modStream x f).worn = k.worn := by cases x <;> rfl
@[simp] theorem Core.modStream_gated (k : Core) (x : StreamId) (f : Stream → Stream) : (k.modStream x f).gated = k.gated := by cases x <;> rfl

/-! ## Core.writeS -/

@[simp] theorem Core.writeS_m (k : Core) (x : StreamId) (r : SReg) (v : Word) : (k.writeS x r v).m = k.m := by cases x <;> simp only [Core.writeS] <;> (repeat' split) <;> rfl
@[simp] theorem Core.writeS_tiles (k : Core) (x : StreamId) (r : SReg) (v : Word) : (k.writeS x r v).tiles = k.tiles := by cases x <;> simp only [Core.writeS] <;> (repeat' split) <;> rfl
@[simp] theorem Core.writeS_accs (k : Core) (x : StreamId) (r : SReg) (v : Word) : (k.writeS x r v).accs = k.accs := by cases x <;> simp only [Core.writeS] <;> (repeat' split) <;> rfl
@[simp] theorem Core.writeS_sigs (k : Core) (x : StreamId) (r : SReg) (v : Word) : (k.writeS x r v).sigs = k.sigs := by cases x <;> simp only [Core.writeS] <;> (repeat' split) <;> rfl
@[simp] theorem Core.writeS_cistern (k : Core) (x : StreamId) (r : SReg) (v : Word) : (k.writeS x r v).cistern = k.cistern := by cases x <;> simp only [Core.writeS] <;> (repeat' split) <;> rfl
@[simp] theorem Core.writeS_tags (k : Core) (x : StreamId) (r : SReg) (v : Word) : (k.writeS x r v).tags = k.tags := by cases x <;> simp only [Core.writeS] <;> (repeat' split) <;> rfl
@[simp] theorem Core.writeS_wbuf (k : Core) (x : StreamId) (r : SReg) (v : Word) : (k.writeS x r v).wbuf = k.wbuf := by cases x <;> simp only [Core.writeS] <;> (repeat' split) <;> rfl
@[simp] theorem Core.writeS_cells (k : Core) (x : StreamId) (r : SReg) (v : Word) : (k.writeS x r v).cells = k.cells := by cases x <;> simp only [Core.writeS] <;> (repeat' split) <;> rfl
@[simp] theorem Core.writeS_gmode (k : Core) (x : StreamId) (r : SReg) (v : Word) : (k.writeS x r v).gmode = k.gmode := by cases x <;> simp only [Core.writeS] <;> (repeat' split) <;> rfl
@[simp] theorem Core.writeS_pqlim (k : Core) (x : StreamId) (r : SReg) (v : Word) : (k.writeS x r v).pqlim = k.pqlim := by cases x <;> simp only [Core.writeS] <;> (repeat' split) <;> rfl
@[simp] theorem Core.writeS_uhvec (k : Core) (x : StreamId) (r : SReg) (v : Word) : (k.writeS x r v).uhvec = k.uhvec := by cases x <;> simp only [Core.writeS] <;> (repeat' split) <;> rfl
@[simp] theorem Core.writeS_udeleg0 (k : Core) (x : StreamId) (r : SReg) (v : Word) : (k.writeS x r v).udeleg0 = k.udeleg0 := by cases x <;> simp only [Core.writeS] <;> (repeat' split) <;> rfl
@[simp] theorem Core.writeS_udeleg1 (k : Core) (x : StreamId) (r : SReg) (v : Word) : (k.writeS x r v).udeleg1 = k.udeleg1 := by cases x <;> simp only [Core.writeS] <;> (repeat' split) <;> rfl
@[simp] theorem Core.writeS_shvec (k : Core) (x : StreamId) (r : SReg) (v : Word) : (k.writeS x r v).shvec = k.shvec := by cases x <;> simp only [Core.writeS] <;> (repeat' split) <;> rfl
@[simp] theorem Core.writeS_dlwait (k : Core) (x : StreamId) (r : SReg) (v : Word) : (k.writeS x r v).dlwait = k.dlwait := by cases x <;> simp only [Core.writeS] <;> (repeat' split) <;> rfl
@[simp] theorem Core.writeS_hl (k : Core) (x : StreamId) (r : SReg) (v : Word) : (k.writeS x r v).hl = k.hl := by cases x <;> simp only [Core.writeS] <;> (repeat' split) <;> rfl
@[simp] theorem Core.writeS_entry1 (k : Core) (x : StreamId) (r : SReg) (v : Word) : (k.writeS x r v).entry1 = k.entry1 := by cases x <;> simp only [Core.writeS] <;> (repeat' split) <;> rfl
@[simp] theorem Core.writeS_entry2 (k : Core) (x : StreamId) (r : SReg) (v : Word) : (k.writeS x r v).entry2 = k.entry2 := by cases x <;> simp only [Core.writeS] <;> (repeat' split) <;> rfl
@[simp] theorem Core.writeS_trap1 (k : Core) (x : StreamId) (r : SReg) (v : Word) : (k.writeS x r v).trap1 = k.trap1 := by cases x <;> simp only [Core.writeS] <;> (repeat' split) <;> rfl
@[simp] theorem Core.writeS_trap2 (k : Core) (x : StreamId) (r : SReg) (v : Word) : (k.writeS x r v).trap2 = k.trap2 := by cases x <;> simp only [Core.writeS] <;> (repeat' split) <;> rfl
@[simp] theorem Core.writeS_held (k : Core) (x : StreamId) (r : SReg) (v : Word) : (k.writeS x r v).held = k.held := by cases x <;> simp only [Core.writeS] <;> (repeat' split) <;> rfl
@[simp] theorem Core.writeS_escal (k : Core) (x : StreamId) (r : SReg) (v : Word) : (k.writeS x r v).escal = k.escal := by cases x <;> simp only [Core.writeS] <;> (repeat' split) <;> rfl
@[simp] theorem Core.writeS_ctrlEsc (k : Core) (x : StreamId) (r : SReg) (v : Word) : (k.writeS x r v).ctrlEsc = k.ctrlEsc := by cases x <;> simp only [Core.writeS] <;> (repeat' split) <;> rfl
@[simp] theorem Core.writeS_posted (k : Core) (x : StreamId) (r : SReg) (v : Word) : (k.writeS x r v).posted = k.posted := by cases x <;> simp only [Core.writeS] <;> (repeat' split) <;> rfl
@[simp] theorem Core.writeS_forked (k : Core) (x : StreamId) (r : SReg) (v : Word) : (k.writeS x r v).forked = k.forked := by cases x <;> simp only [Core.writeS] <;> (repeat' split) <;> rfl
@[simp] theorem Core.writeS_barOrd (k : Core) (x : StreamId) (r : SReg) (v : Word) : (k.writeS x r v).barOrd = k.barOrd := by cases x <;> simp only [Core.writeS] <;> (repeat' split) <;> rfl
@[simp] theorem Core.writeS_barArr (k : Core) (x : StreamId) (r : SReg) (v : Word) : (k.writeS x r v).barArr = k.barArr := by cases x <;> simp only [Core.writeS] <;> (repeat' split) <;> rfl
@[simp] theorem Core.writeS_aq (k : Core) (x : StreamId) (r : SReg) (v : Word) : (k.writeS x r v).aq = k.aq := by cases x <;> simp only [Core.writeS] <;> (repeat' split) <;> rfl
@[simp] theorem Core.writeS_platch (k : Core) (x : StreamId) (r : SReg) (v : Word) : (k.writeS x r v).platch = k.platch := by cases x <;> simp only [Core.writeS] <;> (repeat' split) <;> rfl
@[simp] theorem Core.writeS_latch (k : Core) (x : StreamId) (r : SReg) (v : Word) : (k.writeS x r v).latch = k.latch := by cases x <;> simp only [Core.writeS] <;> (repeat' split) <;> rfl
@[simp] theorem Core.writeS_nestSet (k : Core) (x : StreamId) (r : SReg) (v : Word) : (k.writeS x r v).nestSet = k.nestSet := by cases x <;> simp only [Core.writeS] <;> (repeat' split) <;> rfl
@[simp] theorem Core.writeS_nestBand (k : Core) (x : StreamId) (r : SReg) (v : Word) : (k.writeS x r v).nestBand = k.nestBand := by cases x <;> simp only [Core.writeS] <;> (repeat' split) <;> rfl
@[simp] theorem Core.writeS_nestPoison (k : Core) (x : StreamId) (r : SReg) (v : Word) : (k.writeS x r v).nestPoison = k.nestPoison := by cases x <;> simp only [Core.writeS] <;> (repeat' split) <;> rfl
@[simp] theorem Core.writeS_npck (k : Core) (x : StreamId) (r : SReg) (v : Word) : (k.writeS x r v).npck = k.npck := by cases x <;> simp only [Core.writeS] <;> (repeat' split) <;> rfl
@[simp] theorem Core.writeS_ngrp (k : Core) (x : StreamId) (r : SReg) (v : Word) : (k.writeS x r v).ngrp = k.ngrp := by cases x <;> simp only [Core.writeS] <;> (repeat' split) <;> rfl
@[simp] theorem Core.writeS_nfault (k : Core) (x : StreamId) (r : SReg) (v : Word) : (k.writeS x r v).nfault = k.nfault := by cases x <;> simp only [Core.writeS] <;> (repeat' split) <;> rfl
@[simp] theorem Core.writeS_pumpq (k : Core) (x : StreamId) (r : SReg) (v : Word) : (k.writeS x r v).pumpq = k.pumpq := by cases x <;> simp only [Core.writeS] <;> (repeat' split) <;> rfl
@[simp] theorem Core.writeS_pump0 (k : Core) (x : StreamId) (r : SReg) (v : Word) : (k.writeS x r v).pump0 = k.pump0 := by cases x <;> simp only [Core.writeS] <;> (repeat' split) <;> rfl
@[simp] theorem Core.writeS_pump1 (k : Core) (x : StreamId) (r : SReg) (v : Word) : (k.writeS x r v).pump1 = k.pump1 := by cases x <;> simp only [Core.writeS] <;> (repeat' split) <;> rfl
@[simp] theorem Core.writeS_landed (k : Core) (x : StreamId) (r : SReg) (v : Word) : (k.writeS x r v).landed = k.landed := by cases x <;> simp only [Core.writeS] <;> (repeat' split) <;> rfl
@[simp] theorem Core.writeS_geom (k : Core) (x : StreamId) (r : SReg) (v : Word) : (k.writeS x r v).geom = k.geom := by cases x <;> simp only [Core.writeS] <;> (repeat' split) <;> rfl
@[simp] theorem Core.writeS_gstat (k : Core) (x : StreamId) (r : SReg) (v : Word) : (k.writeS x r v).gstat = k.gstat := by cases x <;> simp only [Core.writeS] <;> (repeat' split) <;> rfl
@[simp] theorem Core.writeS_vwrites (k : Core) (x : StreamId) (r : SReg) (v : Word) : (k.writeS x r v).vwrites = k.vwrites := by cases x <;> simp only [Core.writeS] <;> (repeat' split) <;> rfl
@[simp] theorem Core.writeS_interval (k : Core) (x : StreamId) (r : SReg) (v : Word) : (k.writeS x r v).interval = k.interval := by cases x <;> simp only [Core.writeS] <;> (repeat' split) <;> rfl
@[simp] theorem Core.writeS_loads (k : Core) (x : StreamId) (r : SReg) (v : Word) : (k.writeS x r v).loads = k.loads := by cases x <;> simp only [Core.writeS] <;> (repeat' split) <;> rfl
@[simp] theorem Core.writeS_seq (k : Core) (x : StreamId) (r : SReg) (v : Word) : (k.writeS x r v).seq = k.seq := by cases x <;> simp only [Core.writeS] <;> (repeat' split) <;> rfl
@[simp] theorem Core.writeS_wdSince (k : Core) (x : StreamId) (r : SReg) (v : Word) : (k.writeS x r v).wdSince = k.wdSince := by cases x <;> simp only [Core.writeS] <;> (repeat' split) <;> rfl
@[simp] theorem Core.writeS_tlb (k : Core) (x : StreamId) (r : SReg) (v : Word) : (k.writeS x r v).tlb = k.tlb := by cases x <;> simp only [Core.writeS] <;> (repeat' split) <;> rfl
@[simp] theorem Core.writeS_icache (k : Core) (x : StreamId) (r : SReg) (v : Word) : (k.writeS x r v).icache = k.icache := by cases x <;> simp only [Core.writeS] <;> (repeat' split) <;> rfl
@[simp] theorem Core.writeS_codeView (k : Core) (x : StreamId) (r : SReg) (v : Word) : (k.writeS x r v).codeView = k.codeView := by cases x <;> simp only [Core.writeS] <;> (repeat' split) <;> rfl
@[simp] theorem Core.writeS_task (k : Core) (x : StreamId) (r : SReg) (v : Word) : (k.writeS x r v).task = k.task := by cases x <;> simp only [Core.writeS] <;> (repeat' split) <;> rfl
@[simp] theorem Core.writeS_drainSince (k : Core) (x : StreamId) (r : SReg) (v : Word) : (k.writeS x r v).drainSince = k.drainSince := by cases x <;> simp only [Core.writeS] <;> (repeat' split) <;> rfl
@[simp] theorem Core.writeS_saving (k : Core) (x : StreamId) (r : SReg) (v : Word) : (k.writeS x r v).saving = k.saving := by cases x <;> simp only [Core.writeS] <;> (repeat' split) <;> rfl
@[simp] theorem Core.writeS_zeroing (k : Core) (x : StreamId) (r : SReg) (v : Word) : (k.writeS x r v).zeroing = k.zeroing := by cases x <;> simp only [Core.writeS] <;> (repeat' split) <;> rfl
@[simp] theorem Core.writeS_lastPart (k : Core) (x : StreamId) (r : SReg) (v : Word) : (k.writeS x r v).lastPart = k.lastPart := by cases x <;> simp only [Core.writeS] <;> (repeat' split) <;> rfl
@[simp] theorem Core.writeS_offline (k : Core) (x : StreamId) (r : SReg) (v : Word) : (k.writeS x r v).offline = k.offline := by cases x <;> simp only [Core.writeS] <;> (repeat' split) <;> rfl
@[simp] theorem Core.writeS_mismatches (k : Core) (x : StreamId) (r : SReg) (v : Word) : (k.writeS x r v).mismatches = k.mismatches := by cases x <;> simp only [Core.writeS] <;> (repeat' split) <;> rfl
@[simp] theorem Core.writeS_worn (k : Core) (x : StreamId) (r : SReg) (v : Word) : (k.writeS x r v).worn = k.worn := by cases x <;> simp only [Core.writeS] <;> (repeat' split) <;> rfl
@[simp] theorem Core.writeS_gated (k : Core) (x : StreamId) (r : SReg) (v : Word) : (k.writeS x r v).gated = k.gated := by cases x <;> simp only [Core.writeS] <;> (repeat' split) <;> rfl

/-! ## Core.writeP -/

@[simp] theorem Core.writeP_m (k : Core) (x : StreamId) (r : PReg) (v : Bool) : (k.writeP x r v).m = k.m := by cases x <;> simp only [Core.writeP] <;> (repeat' split) <;> rfl
@[simp] theorem Core.writeP_tiles (k : Core) (x : StreamId) (r : PReg) (v : Bool) : (k.writeP x r v).tiles = k.tiles := by cases x <;> simp only [Core.writeP] <;> (repeat' split) <;> rfl
@[simp] theorem Core.writeP_accs (k : Core) (x : StreamId) (r : PReg) (v : Bool) : (k.writeP x r v).accs = k.accs := by cases x <;> simp only [Core.writeP] <;> (repeat' split) <;> rfl
@[simp] theorem Core.writeP_sigs (k : Core) (x : StreamId) (r : PReg) (v : Bool) : (k.writeP x r v).sigs = k.sigs := by cases x <;> simp only [Core.writeP] <;> (repeat' split) <;> rfl
@[simp] theorem Core.writeP_cistern (k : Core) (x : StreamId) (r : PReg) (v : Bool) : (k.writeP x r v).cistern = k.cistern := by cases x <;> simp only [Core.writeP] <;> (repeat' split) <;> rfl
@[simp] theorem Core.writeP_tags (k : Core) (x : StreamId) (r : PReg) (v : Bool) : (k.writeP x r v).tags = k.tags := by cases x <;> simp only [Core.writeP] <;> (repeat' split) <;> rfl
@[simp] theorem Core.writeP_wbuf (k : Core) (x : StreamId) (r : PReg) (v : Bool) : (k.writeP x r v).wbuf = k.wbuf := by cases x <;> simp only [Core.writeP] <;> (repeat' split) <;> rfl
@[simp] theorem Core.writeP_cells (k : Core) (x : StreamId) (r : PReg) (v : Bool) : (k.writeP x r v).cells = k.cells := by cases x <;> simp only [Core.writeP] <;> (repeat' split) <;> rfl
@[simp] theorem Core.writeP_gmode (k : Core) (x : StreamId) (r : PReg) (v : Bool) : (k.writeP x r v).gmode = k.gmode := by cases x <;> simp only [Core.writeP] <;> (repeat' split) <;> rfl
@[simp] theorem Core.writeP_pqlim (k : Core) (x : StreamId) (r : PReg) (v : Bool) : (k.writeP x r v).pqlim = k.pqlim := by cases x <;> simp only [Core.writeP] <;> (repeat' split) <;> rfl
@[simp] theorem Core.writeP_uhvec (k : Core) (x : StreamId) (r : PReg) (v : Bool) : (k.writeP x r v).uhvec = k.uhvec := by cases x <;> simp only [Core.writeP] <;> (repeat' split) <;> rfl
@[simp] theorem Core.writeP_udeleg0 (k : Core) (x : StreamId) (r : PReg) (v : Bool) : (k.writeP x r v).udeleg0 = k.udeleg0 := by cases x <;> simp only [Core.writeP] <;> (repeat' split) <;> rfl
@[simp] theorem Core.writeP_udeleg1 (k : Core) (x : StreamId) (r : PReg) (v : Bool) : (k.writeP x r v).udeleg1 = k.udeleg1 := by cases x <;> simp only [Core.writeP] <;> (repeat' split) <;> rfl
@[simp] theorem Core.writeP_shvec (k : Core) (x : StreamId) (r : PReg) (v : Bool) : (k.writeP x r v).shvec = k.shvec := by cases x <;> simp only [Core.writeP] <;> (repeat' split) <;> rfl
@[simp] theorem Core.writeP_dlwait (k : Core) (x : StreamId) (r : PReg) (v : Bool) : (k.writeP x r v).dlwait = k.dlwait := by cases x <;> simp only [Core.writeP] <;> (repeat' split) <;> rfl
@[simp] theorem Core.writeP_hl (k : Core) (x : StreamId) (r : PReg) (v : Bool) : (k.writeP x r v).hl = k.hl := by cases x <;> simp only [Core.writeP] <;> (repeat' split) <;> rfl
@[simp] theorem Core.writeP_entry1 (k : Core) (x : StreamId) (r : PReg) (v : Bool) : (k.writeP x r v).entry1 = k.entry1 := by cases x <;> simp only [Core.writeP] <;> (repeat' split) <;> rfl
@[simp] theorem Core.writeP_entry2 (k : Core) (x : StreamId) (r : PReg) (v : Bool) : (k.writeP x r v).entry2 = k.entry2 := by cases x <;> simp only [Core.writeP] <;> (repeat' split) <;> rfl
@[simp] theorem Core.writeP_trap1 (k : Core) (x : StreamId) (r : PReg) (v : Bool) : (k.writeP x r v).trap1 = k.trap1 := by cases x <;> simp only [Core.writeP] <;> (repeat' split) <;> rfl
@[simp] theorem Core.writeP_trap2 (k : Core) (x : StreamId) (r : PReg) (v : Bool) : (k.writeP x r v).trap2 = k.trap2 := by cases x <;> simp only [Core.writeP] <;> (repeat' split) <;> rfl
@[simp] theorem Core.writeP_held (k : Core) (x : StreamId) (r : PReg) (v : Bool) : (k.writeP x r v).held = k.held := by cases x <;> simp only [Core.writeP] <;> (repeat' split) <;> rfl
@[simp] theorem Core.writeP_escal (k : Core) (x : StreamId) (r : PReg) (v : Bool) : (k.writeP x r v).escal = k.escal := by cases x <;> simp only [Core.writeP] <;> (repeat' split) <;> rfl
@[simp] theorem Core.writeP_ctrlEsc (k : Core) (x : StreamId) (r : PReg) (v : Bool) : (k.writeP x r v).ctrlEsc = k.ctrlEsc := by cases x <;> simp only [Core.writeP] <;> (repeat' split) <;> rfl
@[simp] theorem Core.writeP_posted (k : Core) (x : StreamId) (r : PReg) (v : Bool) : (k.writeP x r v).posted = k.posted := by cases x <;> simp only [Core.writeP] <;> (repeat' split) <;> rfl
@[simp] theorem Core.writeP_forked (k : Core) (x : StreamId) (r : PReg) (v : Bool) : (k.writeP x r v).forked = k.forked := by cases x <;> simp only [Core.writeP] <;> (repeat' split) <;> rfl
@[simp] theorem Core.writeP_barOrd (k : Core) (x : StreamId) (r : PReg) (v : Bool) : (k.writeP x r v).barOrd = k.barOrd := by cases x <;> simp only [Core.writeP] <;> (repeat' split) <;> rfl
@[simp] theorem Core.writeP_barArr (k : Core) (x : StreamId) (r : PReg) (v : Bool) : (k.writeP x r v).barArr = k.barArr := by cases x <;> simp only [Core.writeP] <;> (repeat' split) <;> rfl
@[simp] theorem Core.writeP_aq (k : Core) (x : StreamId) (r : PReg) (v : Bool) : (k.writeP x r v).aq = k.aq := by cases x <;> simp only [Core.writeP] <;> (repeat' split) <;> rfl
@[simp] theorem Core.writeP_platch (k : Core) (x : StreamId) (r : PReg) (v : Bool) : (k.writeP x r v).platch = k.platch := by cases x <;> simp only [Core.writeP] <;> (repeat' split) <;> rfl
@[simp] theorem Core.writeP_latch (k : Core) (x : StreamId) (r : PReg) (v : Bool) : (k.writeP x r v).latch = k.latch := by cases x <;> simp only [Core.writeP] <;> (repeat' split) <;> rfl
@[simp] theorem Core.writeP_nestSet (k : Core) (x : StreamId) (r : PReg) (v : Bool) : (k.writeP x r v).nestSet = k.nestSet := by cases x <;> simp only [Core.writeP] <;> (repeat' split) <;> rfl
@[simp] theorem Core.writeP_nestBand (k : Core) (x : StreamId) (r : PReg) (v : Bool) : (k.writeP x r v).nestBand = k.nestBand := by cases x <;> simp only [Core.writeP] <;> (repeat' split) <;> rfl
@[simp] theorem Core.writeP_nestPoison (k : Core) (x : StreamId) (r : PReg) (v : Bool) : (k.writeP x r v).nestPoison = k.nestPoison := by cases x <;> simp only [Core.writeP] <;> (repeat' split) <;> rfl
@[simp] theorem Core.writeP_npck (k : Core) (x : StreamId) (r : PReg) (v : Bool) : (k.writeP x r v).npck = k.npck := by cases x <;> simp only [Core.writeP] <;> (repeat' split) <;> rfl
@[simp] theorem Core.writeP_ngrp (k : Core) (x : StreamId) (r : PReg) (v : Bool) : (k.writeP x r v).ngrp = k.ngrp := by cases x <;> simp only [Core.writeP] <;> (repeat' split) <;> rfl
@[simp] theorem Core.writeP_nfault (k : Core) (x : StreamId) (r : PReg) (v : Bool) : (k.writeP x r v).nfault = k.nfault := by cases x <;> simp only [Core.writeP] <;> (repeat' split) <;> rfl
@[simp] theorem Core.writeP_pumpq (k : Core) (x : StreamId) (r : PReg) (v : Bool) : (k.writeP x r v).pumpq = k.pumpq := by cases x <;> simp only [Core.writeP] <;> (repeat' split) <;> rfl
@[simp] theorem Core.writeP_pump0 (k : Core) (x : StreamId) (r : PReg) (v : Bool) : (k.writeP x r v).pump0 = k.pump0 := by cases x <;> simp only [Core.writeP] <;> (repeat' split) <;> rfl
@[simp] theorem Core.writeP_pump1 (k : Core) (x : StreamId) (r : PReg) (v : Bool) : (k.writeP x r v).pump1 = k.pump1 := by cases x <;> simp only [Core.writeP] <;> (repeat' split) <;> rfl
@[simp] theorem Core.writeP_landed (k : Core) (x : StreamId) (r : PReg) (v : Bool) : (k.writeP x r v).landed = k.landed := by cases x <;> simp only [Core.writeP] <;> (repeat' split) <;> rfl
@[simp] theorem Core.writeP_geom (k : Core) (x : StreamId) (r : PReg) (v : Bool) : (k.writeP x r v).geom = k.geom := by cases x <;> simp only [Core.writeP] <;> (repeat' split) <;> rfl
@[simp] theorem Core.writeP_gstat (k : Core) (x : StreamId) (r : PReg) (v : Bool) : (k.writeP x r v).gstat = k.gstat := by cases x <;> simp only [Core.writeP] <;> (repeat' split) <;> rfl
@[simp] theorem Core.writeP_vwrites (k : Core) (x : StreamId) (r : PReg) (v : Bool) : (k.writeP x r v).vwrites = k.vwrites := by cases x <;> simp only [Core.writeP] <;> (repeat' split) <;> rfl
@[simp] theorem Core.writeP_interval (k : Core) (x : StreamId) (r : PReg) (v : Bool) : (k.writeP x r v).interval = k.interval := by cases x <;> simp only [Core.writeP] <;> (repeat' split) <;> rfl
@[simp] theorem Core.writeP_loads (k : Core) (x : StreamId) (r : PReg) (v : Bool) : (k.writeP x r v).loads = k.loads := by cases x <;> simp only [Core.writeP] <;> (repeat' split) <;> rfl
@[simp] theorem Core.writeP_seq (k : Core) (x : StreamId) (r : PReg) (v : Bool) : (k.writeP x r v).seq = k.seq := by cases x <;> simp only [Core.writeP] <;> (repeat' split) <;> rfl
@[simp] theorem Core.writeP_wdSince (k : Core) (x : StreamId) (r : PReg) (v : Bool) : (k.writeP x r v).wdSince = k.wdSince := by cases x <;> simp only [Core.writeP] <;> (repeat' split) <;> rfl
@[simp] theorem Core.writeP_tlb (k : Core) (x : StreamId) (r : PReg) (v : Bool) : (k.writeP x r v).tlb = k.tlb := by cases x <;> simp only [Core.writeP] <;> (repeat' split) <;> rfl
@[simp] theorem Core.writeP_icache (k : Core) (x : StreamId) (r : PReg) (v : Bool) : (k.writeP x r v).icache = k.icache := by cases x <;> simp only [Core.writeP] <;> (repeat' split) <;> rfl
@[simp] theorem Core.writeP_codeView (k : Core) (x : StreamId) (r : PReg) (v : Bool) : (k.writeP x r v).codeView = k.codeView := by cases x <;> simp only [Core.writeP] <;> (repeat' split) <;> rfl
@[simp] theorem Core.writeP_task (k : Core) (x : StreamId) (r : PReg) (v : Bool) : (k.writeP x r v).task = k.task := by cases x <;> simp only [Core.writeP] <;> (repeat' split) <;> rfl
@[simp] theorem Core.writeP_drainSince (k : Core) (x : StreamId) (r : PReg) (v : Bool) : (k.writeP x r v).drainSince = k.drainSince := by cases x <;> simp only [Core.writeP] <;> (repeat' split) <;> rfl
@[simp] theorem Core.writeP_saving (k : Core) (x : StreamId) (r : PReg) (v : Bool) : (k.writeP x r v).saving = k.saving := by cases x <;> simp only [Core.writeP] <;> (repeat' split) <;> rfl
@[simp] theorem Core.writeP_zeroing (k : Core) (x : StreamId) (r : PReg) (v : Bool) : (k.writeP x r v).zeroing = k.zeroing := by cases x <;> simp only [Core.writeP] <;> (repeat' split) <;> rfl
@[simp] theorem Core.writeP_lastPart (k : Core) (x : StreamId) (r : PReg) (v : Bool) : (k.writeP x r v).lastPart = k.lastPart := by cases x <;> simp only [Core.writeP] <;> (repeat' split) <;> rfl
@[simp] theorem Core.writeP_offline (k : Core) (x : StreamId) (r : PReg) (v : Bool) : (k.writeP x r v).offline = k.offline := by cases x <;> simp only [Core.writeP] <;> (repeat' split) <;> rfl
@[simp] theorem Core.writeP_mismatches (k : Core) (x : StreamId) (r : PReg) (v : Bool) : (k.writeP x r v).mismatches = k.mismatches := by cases x <;> simp only [Core.writeP] <;> (repeat' split) <;> rfl
@[simp] theorem Core.writeP_worn (k : Core) (x : StreamId) (r : PReg) (v : Bool) : (k.writeP x r v).worn = k.worn := by cases x <;> simp only [Core.writeP] <;> (repeat' split) <;> rfl
@[simp] theorem Core.writeP_gated (k : Core) (x : StreamId) (r : PReg) (v : Bool) : (k.writeP x r v).gated = k.gated := by cases x <;> simp only [Core.writeP] <;> (repeat' split) <;> rfl

/-! ## Core.setCnt -/

@[simp] theorem Core.setCnt_load (k : Core) (x : CReg) (n : Count) : (k.setCnt x n).load = k.load := by cases x <;> rfl
@[simp] theorem Core.setCnt_exec (k : Core) (x : CReg) (n : Count) : (k.setCnt x n).exec = k.exec := by cases x <;> rfl
@[simp] theorem Core.setCnt_store (k : Core) (x : CReg) (n : Count) : (k.setCnt x n).store = k.store := by cases x <;> rfl
@[simp] theorem Core.setCnt_ctrl (k : Core) (x : CReg) (n : Count) : (k.setCnt x n).ctrl = k.ctrl := by cases x <;> rfl
@[simp] theorem Core.setCnt_m (k : Core) (x : CReg) (n : Count) : (k.setCnt x n).m = k.m := by cases x <;> rfl
@[simp] theorem Core.setCnt_cistern (k : Core) (x : CReg) (n : Count) : (k.setCnt x n).cistern = k.cistern := by cases x <;> rfl
@[simp] theorem Core.setCnt_tags (k : Core) (x : CReg) (n : Count) : (k.setCnt x n).tags = k.tags := by cases x <;> rfl
@[simp] theorem Core.setCnt_wbuf (k : Core) (x : CReg) (n : Count) : (k.setCnt x n).wbuf = k.wbuf := by cases x <;> rfl
@[simp] theorem Core.setCnt_cells (k : Core) (x : CReg) (n : Count) : (k.setCnt x n).cells = k.cells := by cases x <;> rfl
@[simp] theorem Core.setCnt_gmode (k : Core) (x : CReg) (n : Count) : (k.setCnt x n).gmode = k.gmode := by cases x <;> rfl
@[simp] theorem Core.setCnt_pqlim (k : Core) (x : CReg) (n : Count) : (k.setCnt x n).pqlim = k.pqlim := by cases x <;> rfl
@[simp] theorem Core.setCnt_uhvec (k : Core) (x : CReg) (n : Count) : (k.setCnt x n).uhvec = k.uhvec := by cases x <;> rfl
@[simp] theorem Core.setCnt_udeleg0 (k : Core) (x : CReg) (n : Count) : (k.setCnt x n).udeleg0 = k.udeleg0 := by cases x <;> rfl
@[simp] theorem Core.setCnt_udeleg1 (k : Core) (x : CReg) (n : Count) : (k.setCnt x n).udeleg1 = k.udeleg1 := by cases x <;> rfl
@[simp] theorem Core.setCnt_shvec (k : Core) (x : CReg) (n : Count) : (k.setCnt x n).shvec = k.shvec := by cases x <;> rfl
@[simp] theorem Core.setCnt_dlwait (k : Core) (x : CReg) (n : Count) : (k.setCnt x n).dlwait = k.dlwait := by cases x <;> rfl
@[simp] theorem Core.setCnt_hl (k : Core) (x : CReg) (n : Count) : (k.setCnt x n).hl = k.hl := by cases x <;> rfl
@[simp] theorem Core.setCnt_entry1 (k : Core) (x : CReg) (n : Count) : (k.setCnt x n).entry1 = k.entry1 := by cases x <;> rfl
@[simp] theorem Core.setCnt_entry2 (k : Core) (x : CReg) (n : Count) : (k.setCnt x n).entry2 = k.entry2 := by cases x <;> rfl
@[simp] theorem Core.setCnt_bank1 (k : Core) (x : CReg) (n : Count) : (k.setCnt x n).bank1 = k.bank1 := by cases x <;> rfl
@[simp] theorem Core.setCnt_bank2 (k : Core) (x : CReg) (n : Count) : (k.setCnt x n).bank2 = k.bank2 := by cases x <;> rfl
@[simp] theorem Core.setCnt_trap1 (k : Core) (x : CReg) (n : Count) : (k.setCnt x n).trap1 = k.trap1 := by cases x <;> rfl
@[simp] theorem Core.setCnt_trap2 (k : Core) (x : CReg) (n : Count) : (k.setCnt x n).trap2 = k.trap2 := by cases x <;> rfl
@[simp] theorem Core.setCnt_held (k : Core) (x : CReg) (n : Count) : (k.setCnt x n).held = k.held := by cases x <;> rfl
@[simp] theorem Core.setCnt_escal (k : Core) (x : CReg) (n : Count) : (k.setCnt x n).escal = k.escal := by cases x <;> rfl
@[simp] theorem Core.setCnt_ctrlEsc (k : Core) (x : CReg) (n : Count) : (k.setCnt x n).ctrlEsc = k.ctrlEsc := by cases x <;> rfl
@[simp] theorem Core.setCnt_posted (k : Core) (x : CReg) (n : Count) : (k.setCnt x n).posted = k.posted := by cases x <;> rfl
@[simp] theorem Core.setCnt_forked (k : Core) (x : CReg) (n : Count) : (k.setCnt x n).forked = k.forked := by cases x <;> rfl
@[simp] theorem Core.setCnt_barOrd (k : Core) (x : CReg) (n : Count) : (k.setCnt x n).barOrd = k.barOrd := by cases x <;> rfl
@[simp] theorem Core.setCnt_barArr (k : Core) (x : CReg) (n : Count) : (k.setCnt x n).barArr = k.barArr := by cases x <;> rfl
@[simp] theorem Core.setCnt_aq (k : Core) (x : CReg) (n : Count) : (k.setCnt x n).aq = k.aq := by cases x <;> rfl
@[simp] theorem Core.setCnt_platch (k : Core) (x : CReg) (n : Count) : (k.setCnt x n).platch = k.platch := by cases x <;> rfl
@[simp] theorem Core.setCnt_latch (k : Core) (x : CReg) (n : Count) : (k.setCnt x n).latch = k.latch := by cases x <;> rfl
@[simp] theorem Core.setCnt_nestSet (k : Core) (x : CReg) (n : Count) : (k.setCnt x n).nestSet = k.nestSet := by cases x <;> rfl
@[simp] theorem Core.setCnt_nestBand (k : Core) (x : CReg) (n : Count) : (k.setCnt x n).nestBand = k.nestBand := by cases x <;> rfl
@[simp] theorem Core.setCnt_nestPoison (k : Core) (x : CReg) (n : Count) : (k.setCnt x n).nestPoison = k.nestPoison := by cases x <;> rfl
@[simp] theorem Core.setCnt_npck (k : Core) (x : CReg) (n : Count) : (k.setCnt x n).npck = k.npck := by cases x <;> rfl
@[simp] theorem Core.setCnt_ngrp (k : Core) (x : CReg) (n : Count) : (k.setCnt x n).ngrp = k.ngrp := by cases x <;> rfl
@[simp] theorem Core.setCnt_nfault (k : Core) (x : CReg) (n : Count) : (k.setCnt x n).nfault = k.nfault := by cases x <;> rfl
@[simp] theorem Core.setCnt_pumpq (k : Core) (x : CReg) (n : Count) : (k.setCnt x n).pumpq = k.pumpq := by cases x <;> rfl
@[simp] theorem Core.setCnt_pump0 (k : Core) (x : CReg) (n : Count) : (k.setCnt x n).pump0 = k.pump0 := by cases x <;> rfl
@[simp] theorem Core.setCnt_pump1 (k : Core) (x : CReg) (n : Count) : (k.setCnt x n).pump1 = k.pump1 := by cases x <;> rfl
@[simp] theorem Core.setCnt_landed (k : Core) (x : CReg) (n : Count) : (k.setCnt x n).landed = k.landed := by cases x <;> rfl
@[simp] theorem Core.setCnt_geom (k : Core) (x : CReg) (n : Count) : (k.setCnt x n).geom = k.geom := by cases x <;> rfl
@[simp] theorem Core.setCnt_gstat (k : Core) (x : CReg) (n : Count) : (k.setCnt x n).gstat = k.gstat := by cases x <;> rfl
@[simp] theorem Core.setCnt_vwrites (k : Core) (x : CReg) (n : Count) : (k.setCnt x n).vwrites = k.vwrites := by cases x <;> rfl
@[simp] theorem Core.setCnt_interval (k : Core) (x : CReg) (n : Count) : (k.setCnt x n).interval = k.interval := by cases x <;> rfl
@[simp] theorem Core.setCnt_loads (k : Core) (x : CReg) (n : Count) : (k.setCnt x n).loads = k.loads := by cases x <;> rfl
@[simp] theorem Core.setCnt_seq (k : Core) (x : CReg) (n : Count) : (k.setCnt x n).seq = k.seq := by cases x <;> rfl
@[simp] theorem Core.setCnt_wdSince (k : Core) (x : CReg) (n : Count) : (k.setCnt x n).wdSince = k.wdSince := by cases x <;> rfl
@[simp] theorem Core.setCnt_tlb (k : Core) (x : CReg) (n : Count) : (k.setCnt x n).tlb = k.tlb := by cases x <;> rfl
@[simp] theorem Core.setCnt_icache (k : Core) (x : CReg) (n : Count) : (k.setCnt x n).icache = k.icache := by cases x <;> rfl
@[simp] theorem Core.setCnt_codeView (k : Core) (x : CReg) (n : Count) : (k.setCnt x n).codeView = k.codeView := by cases x <;> rfl
@[simp] theorem Core.setCnt_task (k : Core) (x : CReg) (n : Count) : (k.setCnt x n).task = k.task := by cases x <;> rfl
@[simp] theorem Core.setCnt_drainSince (k : Core) (x : CReg) (n : Count) : (k.setCnt x n).drainSince = k.drainSince := by cases x <;> rfl
@[simp] theorem Core.setCnt_saving (k : Core) (x : CReg) (n : Count) : (k.setCnt x n).saving = k.saving := by cases x <;> rfl
@[simp] theorem Core.setCnt_zeroing (k : Core) (x : CReg) (n : Count) : (k.setCnt x n).zeroing = k.zeroing := by cases x <;> rfl
@[simp] theorem Core.setCnt_lastPart (k : Core) (x : CReg) (n : Count) : (k.setCnt x n).lastPart = k.lastPart := by cases x <;> rfl
@[simp] theorem Core.setCnt_offline (k : Core) (x : CReg) (n : Count) : (k.setCnt x n).offline = k.offline := by cases x <;> rfl
@[simp] theorem Core.setCnt_mismatches (k : Core) (x : CReg) (n : Count) : (k.setCnt x n).mismatches = k.mismatches := by cases x <;> rfl
@[simp] theorem Core.setCnt_worn (k : Core) (x : CReg) (n : Count) : (k.setCnt x n).worn = k.worn := by cases x <;> rfl
@[simp] theorem Core.setCnt_gated (k : Core) (x : CReg) (n : Count) : (k.setCnt x n).gated = k.gated := by cases x <;> rfl

/-! ## Core.putData -/

@[simp] theorem Core.putData_load (k : Core) (x : CReg) (d : WriteData) : (k.putData x d).load = k.load := by cases x <;> cases d <;> rfl
@[simp] theorem Core.putData_exec (k : Core) (x : CReg) (d : WriteData) : (k.putData x d).exec = k.exec := by cases x <;> cases d <;> rfl
@[simp] theorem Core.putData_store (k : Core) (x : CReg) (d : WriteData) : (k.putData x d).store = k.store := by cases x <;> cases d <;> rfl
@[simp] theorem Core.putData_ctrl (k : Core) (x : CReg) (d : WriteData) : (k.putData x d).ctrl = k.ctrl := by cases x <;> cases d <;> rfl
@[simp] theorem Core.putData_m (k : Core) (x : CReg) (d : WriteData) : (k.putData x d).m = k.m := by cases x <;> cases d <;> rfl
@[simp] theorem Core.putData_cistern (k : Core) (x : CReg) (d : WriteData) : (k.putData x d).cistern = k.cistern := by cases x <;> cases d <;> rfl
@[simp] theorem Core.putData_tags (k : Core) (x : CReg) (d : WriteData) : (k.putData x d).tags = k.tags := by cases x <;> cases d <;> rfl
@[simp] theorem Core.putData_wbuf (k : Core) (x : CReg) (d : WriteData) : (k.putData x d).wbuf = k.wbuf := by cases x <;> cases d <;> rfl
@[simp] theorem Core.putData_cells (k : Core) (x : CReg) (d : WriteData) : (k.putData x d).cells = k.cells := by cases x <;> cases d <;> rfl
@[simp] theorem Core.putData_gmode (k : Core) (x : CReg) (d : WriteData) : (k.putData x d).gmode = k.gmode := by cases x <;> cases d <;> rfl
@[simp] theorem Core.putData_pqlim (k : Core) (x : CReg) (d : WriteData) : (k.putData x d).pqlim = k.pqlim := by cases x <;> cases d <;> rfl
@[simp] theorem Core.putData_uhvec (k : Core) (x : CReg) (d : WriteData) : (k.putData x d).uhvec = k.uhvec := by cases x <;> cases d <;> rfl
@[simp] theorem Core.putData_udeleg0 (k : Core) (x : CReg) (d : WriteData) : (k.putData x d).udeleg0 = k.udeleg0 := by cases x <;> cases d <;> rfl
@[simp] theorem Core.putData_udeleg1 (k : Core) (x : CReg) (d : WriteData) : (k.putData x d).udeleg1 = k.udeleg1 := by cases x <;> cases d <;> rfl
@[simp] theorem Core.putData_shvec (k : Core) (x : CReg) (d : WriteData) : (k.putData x d).shvec = k.shvec := by cases x <;> cases d <;> rfl
@[simp] theorem Core.putData_dlwait (k : Core) (x : CReg) (d : WriteData) : (k.putData x d).dlwait = k.dlwait := by cases x <;> cases d <;> rfl
@[simp] theorem Core.putData_hl (k : Core) (x : CReg) (d : WriteData) : (k.putData x d).hl = k.hl := by cases x <;> cases d <;> rfl
@[simp] theorem Core.putData_entry1 (k : Core) (x : CReg) (d : WriteData) : (k.putData x d).entry1 = k.entry1 := by cases x <;> cases d <;> rfl
@[simp] theorem Core.putData_entry2 (k : Core) (x : CReg) (d : WriteData) : (k.putData x d).entry2 = k.entry2 := by cases x <;> cases d <;> rfl
@[simp] theorem Core.putData_bank1 (k : Core) (x : CReg) (d : WriteData) : (k.putData x d).bank1 = k.bank1 := by cases x <;> cases d <;> rfl
@[simp] theorem Core.putData_bank2 (k : Core) (x : CReg) (d : WriteData) : (k.putData x d).bank2 = k.bank2 := by cases x <;> cases d <;> rfl
@[simp] theorem Core.putData_trap1 (k : Core) (x : CReg) (d : WriteData) : (k.putData x d).trap1 = k.trap1 := by cases x <;> cases d <;> rfl
@[simp] theorem Core.putData_trap2 (k : Core) (x : CReg) (d : WriteData) : (k.putData x d).trap2 = k.trap2 := by cases x <;> cases d <;> rfl
@[simp] theorem Core.putData_held (k : Core) (x : CReg) (d : WriteData) : (k.putData x d).held = k.held := by cases x <;> cases d <;> rfl
@[simp] theorem Core.putData_escal (k : Core) (x : CReg) (d : WriteData) : (k.putData x d).escal = k.escal := by cases x <;> cases d <;> rfl
@[simp] theorem Core.putData_ctrlEsc (k : Core) (x : CReg) (d : WriteData) : (k.putData x d).ctrlEsc = k.ctrlEsc := by cases x <;> cases d <;> rfl
@[simp] theorem Core.putData_posted (k : Core) (x : CReg) (d : WriteData) : (k.putData x d).posted = k.posted := by cases x <;> cases d <;> rfl
@[simp] theorem Core.putData_forked (k : Core) (x : CReg) (d : WriteData) : (k.putData x d).forked = k.forked := by cases x <;> cases d <;> rfl
@[simp] theorem Core.putData_barOrd (k : Core) (x : CReg) (d : WriteData) : (k.putData x d).barOrd = k.barOrd := by cases x <;> cases d <;> rfl
@[simp] theorem Core.putData_barArr (k : Core) (x : CReg) (d : WriteData) : (k.putData x d).barArr = k.barArr := by cases x <;> cases d <;> rfl
@[simp] theorem Core.putData_aq (k : Core) (x : CReg) (d : WriteData) : (k.putData x d).aq = k.aq := by cases x <;> cases d <;> rfl
@[simp] theorem Core.putData_platch (k : Core) (x : CReg) (d : WriteData) : (k.putData x d).platch = k.platch := by cases x <;> cases d <;> rfl
@[simp] theorem Core.putData_latch (k : Core) (x : CReg) (d : WriteData) : (k.putData x d).latch = k.latch := by cases x <;> cases d <;> rfl
@[simp] theorem Core.putData_nestSet (k : Core) (x : CReg) (d : WriteData) : (k.putData x d).nestSet = k.nestSet := by cases x <;> cases d <;> rfl
@[simp] theorem Core.putData_nestBand (k : Core) (x : CReg) (d : WriteData) : (k.putData x d).nestBand = k.nestBand := by cases x <;> cases d <;> rfl
@[simp] theorem Core.putData_nestPoison (k : Core) (x : CReg) (d : WriteData) : (k.putData x d).nestPoison = k.nestPoison := by cases x <;> cases d <;> rfl
@[simp] theorem Core.putData_npck (k : Core) (x : CReg) (d : WriteData) : (k.putData x d).npck = k.npck := by cases x <;> cases d <;> rfl
@[simp] theorem Core.putData_ngrp (k : Core) (x : CReg) (d : WriteData) : (k.putData x d).ngrp = k.ngrp := by cases x <;> cases d <;> rfl
@[simp] theorem Core.putData_nfault (k : Core) (x : CReg) (d : WriteData) : (k.putData x d).nfault = k.nfault := by cases x <;> cases d <;> rfl
@[simp] theorem Core.putData_pumpq (k : Core) (x : CReg) (d : WriteData) : (k.putData x d).pumpq = k.pumpq := by cases x <;> cases d <;> rfl
@[simp] theorem Core.putData_pump0 (k : Core) (x : CReg) (d : WriteData) : (k.putData x d).pump0 = k.pump0 := by cases x <;> cases d <;> rfl
@[simp] theorem Core.putData_pump1 (k : Core) (x : CReg) (d : WriteData) : (k.putData x d).pump1 = k.pump1 := by cases x <;> cases d <;> rfl
@[simp] theorem Core.putData_landed (k : Core) (x : CReg) (d : WriteData) : (k.putData x d).landed = k.landed := by cases x <;> cases d <;> rfl
@[simp] theorem Core.putData_geom (k : Core) (x : CReg) (d : WriteData) : (k.putData x d).geom = k.geom := by cases x <;> cases d <;> rfl
@[simp] theorem Core.putData_gstat (k : Core) (x : CReg) (d : WriteData) : (k.putData x d).gstat = k.gstat := by cases x <;> cases d <;> rfl
@[simp] theorem Core.putData_vwrites (k : Core) (x : CReg) (d : WriteData) : (k.putData x d).vwrites = k.vwrites := by cases x <;> cases d <;> rfl
@[simp] theorem Core.putData_interval (k : Core) (x : CReg) (d : WriteData) : (k.putData x d).interval = k.interval := by cases x <;> cases d <;> rfl
@[simp] theorem Core.putData_loads (k : Core) (x : CReg) (d : WriteData) : (k.putData x d).loads = k.loads := by cases x <;> cases d <;> rfl
@[simp] theorem Core.putData_seq (k : Core) (x : CReg) (d : WriteData) : (k.putData x d).seq = k.seq := by cases x <;> cases d <;> rfl
@[simp] theorem Core.putData_wdSince (k : Core) (x : CReg) (d : WriteData) : (k.putData x d).wdSince = k.wdSince := by cases x <;> cases d <;> rfl
@[simp] theorem Core.putData_tlb (k : Core) (x : CReg) (d : WriteData) : (k.putData x d).tlb = k.tlb := by cases x <;> cases d <;> rfl
@[simp] theorem Core.putData_icache (k : Core) (x : CReg) (d : WriteData) : (k.putData x d).icache = k.icache := by cases x <;> cases d <;> rfl
@[simp] theorem Core.putData_codeView (k : Core) (x : CReg) (d : WriteData) : (k.putData x d).codeView = k.codeView := by cases x <;> cases d <;> rfl
@[simp] theorem Core.putData_task (k : Core) (x : CReg) (d : WriteData) : (k.putData x d).task = k.task := by cases x <;> cases d <;> rfl
@[simp] theorem Core.putData_drainSince (k : Core) (x : CReg) (d : WriteData) : (k.putData x d).drainSince = k.drainSince := by cases x <;> cases d <;> rfl
@[simp] theorem Core.putData_saving (k : Core) (x : CReg) (d : WriteData) : (k.putData x d).saving = k.saving := by cases x <;> cases d <;> rfl
@[simp] theorem Core.putData_zeroing (k : Core) (x : CReg) (d : WriteData) : (k.putData x d).zeroing = k.zeroing := by cases x <;> cases d <;> rfl
@[simp] theorem Core.putData_lastPart (k : Core) (x : CReg) (d : WriteData) : (k.putData x d).lastPart = k.lastPart := by cases x <;> cases d <;> rfl
@[simp] theorem Core.putData_offline (k : Core) (x : CReg) (d : WriteData) : (k.putData x d).offline = k.offline := by cases x <;> cases d <;> rfl
@[simp] theorem Core.putData_mismatches (k : Core) (x : CReg) (d : WriteData) : (k.putData x d).mismatches = k.mismatches := by cases x <;> cases d <;> rfl
@[simp] theorem Core.putData_worn (k : Core) (x : CReg) (d : WriteData) : (k.putData x d).worn = k.worn := by cases x <;> cases d <;> rfl
@[simp] theorem Core.putData_gated (k : Core) (x : CReg) (d : WriteData) : (k.putData x d).gated = k.gated := by cases x <;> cases d <;> rfl

/-! ## Core.completeWrite -/

@[simp] theorem Core.completeWrite_load (k : Core) (x : CReg) (rdr : BitVec 3) (d : WriteData) : (k.completeWrite x rdr d).load = k.load := by simp [Core.completeWrite]
@[simp] theorem Core.completeWrite_exec (k : Core) (x : CReg) (rdr : BitVec 3) (d : WriteData) : (k.completeWrite x rdr d).exec = k.exec := by simp [Core.completeWrite]
@[simp] theorem Core.completeWrite_store (k : Core) (x : CReg) (rdr : BitVec 3) (d : WriteData) : (k.completeWrite x rdr d).store = k.store := by simp [Core.completeWrite]
@[simp] theorem Core.completeWrite_ctrl (k : Core) (x : CReg) (rdr : BitVec 3) (d : WriteData) : (k.completeWrite x rdr d).ctrl = k.ctrl := by simp [Core.completeWrite]
@[simp] theorem Core.completeWrite_m (k : Core) (x : CReg) (rdr : BitVec 3) (d : WriteData) : (k.completeWrite x rdr d).m = k.m := by simp [Core.completeWrite]
@[simp] theorem Core.completeWrite_cistern (k : Core) (x : CReg) (rdr : BitVec 3) (d : WriteData) : (k.completeWrite x rdr d).cistern = k.cistern := by simp [Core.completeWrite]
@[simp] theorem Core.completeWrite_tags (k : Core) (x : CReg) (rdr : BitVec 3) (d : WriteData) : (k.completeWrite x rdr d).tags = k.tags := by simp [Core.completeWrite]
@[simp] theorem Core.completeWrite_wbuf (k : Core) (x : CReg) (rdr : BitVec 3) (d : WriteData) : (k.completeWrite x rdr d).wbuf = k.wbuf := by simp [Core.completeWrite]
@[simp] theorem Core.completeWrite_cells (k : Core) (x : CReg) (rdr : BitVec 3) (d : WriteData) : (k.completeWrite x rdr d).cells = k.cells := by simp [Core.completeWrite]
@[simp] theorem Core.completeWrite_gmode (k : Core) (x : CReg) (rdr : BitVec 3) (d : WriteData) : (k.completeWrite x rdr d).gmode = k.gmode := by simp [Core.completeWrite]
@[simp] theorem Core.completeWrite_pqlim (k : Core) (x : CReg) (rdr : BitVec 3) (d : WriteData) : (k.completeWrite x rdr d).pqlim = k.pqlim := by simp [Core.completeWrite]
@[simp] theorem Core.completeWrite_uhvec (k : Core) (x : CReg) (rdr : BitVec 3) (d : WriteData) : (k.completeWrite x rdr d).uhvec = k.uhvec := by simp [Core.completeWrite]
@[simp] theorem Core.completeWrite_udeleg0 (k : Core) (x : CReg) (rdr : BitVec 3) (d : WriteData) : (k.completeWrite x rdr d).udeleg0 = k.udeleg0 := by simp [Core.completeWrite]
@[simp] theorem Core.completeWrite_udeleg1 (k : Core) (x : CReg) (rdr : BitVec 3) (d : WriteData) : (k.completeWrite x rdr d).udeleg1 = k.udeleg1 := by simp [Core.completeWrite]
@[simp] theorem Core.completeWrite_shvec (k : Core) (x : CReg) (rdr : BitVec 3) (d : WriteData) : (k.completeWrite x rdr d).shvec = k.shvec := by simp [Core.completeWrite]
@[simp] theorem Core.completeWrite_dlwait (k : Core) (x : CReg) (rdr : BitVec 3) (d : WriteData) : (k.completeWrite x rdr d).dlwait = k.dlwait := by simp [Core.completeWrite]
@[simp] theorem Core.completeWrite_hl (k : Core) (x : CReg) (rdr : BitVec 3) (d : WriteData) : (k.completeWrite x rdr d).hl = k.hl := by simp [Core.completeWrite]
@[simp] theorem Core.completeWrite_entry1 (k : Core) (x : CReg) (rdr : BitVec 3) (d : WriteData) : (k.completeWrite x rdr d).entry1 = k.entry1 := by simp [Core.completeWrite]
@[simp] theorem Core.completeWrite_entry2 (k : Core) (x : CReg) (rdr : BitVec 3) (d : WriteData) : (k.completeWrite x rdr d).entry2 = k.entry2 := by simp [Core.completeWrite]
@[simp] theorem Core.completeWrite_bank1 (k : Core) (x : CReg) (rdr : BitVec 3) (d : WriteData) : (k.completeWrite x rdr d).bank1 = k.bank1 := by simp [Core.completeWrite]
@[simp] theorem Core.completeWrite_bank2 (k : Core) (x : CReg) (rdr : BitVec 3) (d : WriteData) : (k.completeWrite x rdr d).bank2 = k.bank2 := by simp [Core.completeWrite]
@[simp] theorem Core.completeWrite_trap1 (k : Core) (x : CReg) (rdr : BitVec 3) (d : WriteData) : (k.completeWrite x rdr d).trap1 = k.trap1 := by simp [Core.completeWrite]
@[simp] theorem Core.completeWrite_trap2 (k : Core) (x : CReg) (rdr : BitVec 3) (d : WriteData) : (k.completeWrite x rdr d).trap2 = k.trap2 := by simp [Core.completeWrite]
@[simp] theorem Core.completeWrite_held (k : Core) (x : CReg) (rdr : BitVec 3) (d : WriteData) : (k.completeWrite x rdr d).held = k.held := by simp [Core.completeWrite]
@[simp] theorem Core.completeWrite_escal (k : Core) (x : CReg) (rdr : BitVec 3) (d : WriteData) : (k.completeWrite x rdr d).escal = k.escal := by simp [Core.completeWrite]
@[simp] theorem Core.completeWrite_ctrlEsc (k : Core) (x : CReg) (rdr : BitVec 3) (d : WriteData) : (k.completeWrite x rdr d).ctrlEsc = k.ctrlEsc := by simp [Core.completeWrite]
@[simp] theorem Core.completeWrite_posted (k : Core) (x : CReg) (rdr : BitVec 3) (d : WriteData) : (k.completeWrite x rdr d).posted = k.posted := by simp [Core.completeWrite]
@[simp] theorem Core.completeWrite_forked (k : Core) (x : CReg) (rdr : BitVec 3) (d : WriteData) : (k.completeWrite x rdr d).forked = k.forked := by simp [Core.completeWrite]
@[simp] theorem Core.completeWrite_barOrd (k : Core) (x : CReg) (rdr : BitVec 3) (d : WriteData) : (k.completeWrite x rdr d).barOrd = k.barOrd := by simp [Core.completeWrite]
@[simp] theorem Core.completeWrite_barArr (k : Core) (x : CReg) (rdr : BitVec 3) (d : WriteData) : (k.completeWrite x rdr d).barArr = k.barArr := by simp [Core.completeWrite]
@[simp] theorem Core.completeWrite_aq (k : Core) (x : CReg) (rdr : BitVec 3) (d : WriteData) : (k.completeWrite x rdr d).aq = k.aq := by simp [Core.completeWrite]
@[simp] theorem Core.completeWrite_platch (k : Core) (x : CReg) (rdr : BitVec 3) (d : WriteData) : (k.completeWrite x rdr d).platch = k.platch := by simp [Core.completeWrite]
@[simp] theorem Core.completeWrite_latch (k : Core) (x : CReg) (rdr : BitVec 3) (d : WriteData) : (k.completeWrite x rdr d).latch = k.latch := by simp [Core.completeWrite]
@[simp] theorem Core.completeWrite_nestSet (k : Core) (x : CReg) (rdr : BitVec 3) (d : WriteData) : (k.completeWrite x rdr d).nestSet = k.nestSet := by simp [Core.completeWrite]
@[simp] theorem Core.completeWrite_nestBand (k : Core) (x : CReg) (rdr : BitVec 3) (d : WriteData) : (k.completeWrite x rdr d).nestBand = k.nestBand := by simp [Core.completeWrite]
@[simp] theorem Core.completeWrite_nestPoison (k : Core) (x : CReg) (rdr : BitVec 3) (d : WriteData) : (k.completeWrite x rdr d).nestPoison = k.nestPoison := by simp [Core.completeWrite]
@[simp] theorem Core.completeWrite_npck (k : Core) (x : CReg) (rdr : BitVec 3) (d : WriteData) : (k.completeWrite x rdr d).npck = k.npck := by simp [Core.completeWrite]
@[simp] theorem Core.completeWrite_ngrp (k : Core) (x : CReg) (rdr : BitVec 3) (d : WriteData) : (k.completeWrite x rdr d).ngrp = k.ngrp := by simp [Core.completeWrite]
@[simp] theorem Core.completeWrite_nfault (k : Core) (x : CReg) (rdr : BitVec 3) (d : WriteData) : (k.completeWrite x rdr d).nfault = k.nfault := by simp [Core.completeWrite]
@[simp] theorem Core.completeWrite_pumpq (k : Core) (x : CReg) (rdr : BitVec 3) (d : WriteData) : (k.completeWrite x rdr d).pumpq = k.pumpq := by simp [Core.completeWrite]
@[simp] theorem Core.completeWrite_pump0 (k : Core) (x : CReg) (rdr : BitVec 3) (d : WriteData) : (k.completeWrite x rdr d).pump0 = k.pump0 := by simp [Core.completeWrite]
@[simp] theorem Core.completeWrite_pump1 (k : Core) (x : CReg) (rdr : BitVec 3) (d : WriteData) : (k.completeWrite x rdr d).pump1 = k.pump1 := by simp [Core.completeWrite]
@[simp] theorem Core.completeWrite_landed (k : Core) (x : CReg) (rdr : BitVec 3) (d : WriteData) : (k.completeWrite x rdr d).landed = k.landed := by simp [Core.completeWrite]
@[simp] theorem Core.completeWrite_geom (k : Core) (x : CReg) (rdr : BitVec 3) (d : WriteData) : (k.completeWrite x rdr d).geom = k.geom := by simp [Core.completeWrite]
@[simp] theorem Core.completeWrite_gstat (k : Core) (x : CReg) (rdr : BitVec 3) (d : WriteData) : (k.completeWrite x rdr d).gstat = k.gstat := by simp [Core.completeWrite]
@[simp] theorem Core.completeWrite_vwrites (k : Core) (x : CReg) (rdr : BitVec 3) (d : WriteData) : (k.completeWrite x rdr d).vwrites = k.vwrites := by simp [Core.completeWrite]
@[simp] theorem Core.completeWrite_interval (k : Core) (x : CReg) (rdr : BitVec 3) (d : WriteData) : (k.completeWrite x rdr d).interval = k.interval := by simp [Core.completeWrite]
@[simp] theorem Core.completeWrite_loads (k : Core) (x : CReg) (rdr : BitVec 3) (d : WriteData) : (k.completeWrite x rdr d).loads = k.loads := by simp [Core.completeWrite]
@[simp] theorem Core.completeWrite_seq (k : Core) (x : CReg) (rdr : BitVec 3) (d : WriteData) : (k.completeWrite x rdr d).seq = k.seq := by simp [Core.completeWrite]
@[simp] theorem Core.completeWrite_wdSince (k : Core) (x : CReg) (rdr : BitVec 3) (d : WriteData) : (k.completeWrite x rdr d).wdSince = k.wdSince := by simp [Core.completeWrite]
@[simp] theorem Core.completeWrite_tlb (k : Core) (x : CReg) (rdr : BitVec 3) (d : WriteData) : (k.completeWrite x rdr d).tlb = k.tlb := by simp [Core.completeWrite]
@[simp] theorem Core.completeWrite_icache (k : Core) (x : CReg) (rdr : BitVec 3) (d : WriteData) : (k.completeWrite x rdr d).icache = k.icache := by simp [Core.completeWrite]
@[simp] theorem Core.completeWrite_codeView (k : Core) (x : CReg) (rdr : BitVec 3) (d : WriteData) : (k.completeWrite x rdr d).codeView = k.codeView := by simp [Core.completeWrite]
@[simp] theorem Core.completeWrite_task (k : Core) (x : CReg) (rdr : BitVec 3) (d : WriteData) : (k.completeWrite x rdr d).task = k.task := by simp [Core.completeWrite]
@[simp] theorem Core.completeWrite_drainSince (k : Core) (x : CReg) (rdr : BitVec 3) (d : WriteData) : (k.completeWrite x rdr d).drainSince = k.drainSince := by simp [Core.completeWrite]
@[simp] theorem Core.completeWrite_saving (k : Core) (x : CReg) (rdr : BitVec 3) (d : WriteData) : (k.completeWrite x rdr d).saving = k.saving := by simp [Core.completeWrite]
@[simp] theorem Core.completeWrite_zeroing (k : Core) (x : CReg) (rdr : BitVec 3) (d : WriteData) : (k.completeWrite x rdr d).zeroing = k.zeroing := by simp [Core.completeWrite]
@[simp] theorem Core.completeWrite_lastPart (k : Core) (x : CReg) (rdr : BitVec 3) (d : WriteData) : (k.completeWrite x rdr d).lastPart = k.lastPart := by simp [Core.completeWrite]
@[simp] theorem Core.completeWrite_offline (k : Core) (x : CReg) (rdr : BitVec 3) (d : WriteData) : (k.completeWrite x rdr d).offline = k.offline := by simp [Core.completeWrite]
@[simp] theorem Core.completeWrite_mismatches (k : Core) (x : CReg) (rdr : BitVec 3) (d : WriteData) : (k.completeWrite x rdr d).mismatches = k.mismatches := by simp [Core.completeWrite]
@[simp] theorem Core.completeWrite_worn (k : Core) (x : CReg) (rdr : BitVec 3) (d : WriteData) : (k.completeWrite x rdr d).worn = k.worn := by simp [Core.completeWrite]
@[simp] theorem Core.completeWrite_gated (k : Core) (x : CReg) (rdr : BitVec 3) (d : WriteData) : (k.completeWrite x rdr d).gated = k.gated := by simp [Core.completeWrite]

/-! ## Core.reserve -/

@[simp] theorem Core.reserve_load (k : Core) (x : CReg) : (k.reserve x).load = k.load := by simp [Core.reserve]
@[simp] theorem Core.reserve_exec (k : Core) (x : CReg) : (k.reserve x).exec = k.exec := by simp [Core.reserve]
@[simp] theorem Core.reserve_store (k : Core) (x : CReg) : (k.reserve x).store = k.store := by simp [Core.reserve]
@[simp] theorem Core.reserve_ctrl (k : Core) (x : CReg) : (k.reserve x).ctrl = k.ctrl := by simp [Core.reserve]
@[simp] theorem Core.reserve_m (k : Core) (x : CReg) : (k.reserve x).m = k.m := by simp [Core.reserve]
@[simp] theorem Core.reserve_cistern (k : Core) (x : CReg) : (k.reserve x).cistern = k.cistern := by simp [Core.reserve]
@[simp] theorem Core.reserve_tags (k : Core) (x : CReg) : (k.reserve x).tags = k.tags := by simp [Core.reserve]
@[simp] theorem Core.reserve_wbuf (k : Core) (x : CReg) : (k.reserve x).wbuf = k.wbuf := by simp [Core.reserve]
@[simp] theorem Core.reserve_cells (k : Core) (x : CReg) : (k.reserve x).cells = k.cells := by simp [Core.reserve]
@[simp] theorem Core.reserve_gmode (k : Core) (x : CReg) : (k.reserve x).gmode = k.gmode := by simp [Core.reserve]
@[simp] theorem Core.reserve_pqlim (k : Core) (x : CReg) : (k.reserve x).pqlim = k.pqlim := by simp [Core.reserve]
@[simp] theorem Core.reserve_uhvec (k : Core) (x : CReg) : (k.reserve x).uhvec = k.uhvec := by simp [Core.reserve]
@[simp] theorem Core.reserve_udeleg0 (k : Core) (x : CReg) : (k.reserve x).udeleg0 = k.udeleg0 := by simp [Core.reserve]
@[simp] theorem Core.reserve_udeleg1 (k : Core) (x : CReg) : (k.reserve x).udeleg1 = k.udeleg1 := by simp [Core.reserve]
@[simp] theorem Core.reserve_shvec (k : Core) (x : CReg) : (k.reserve x).shvec = k.shvec := by simp [Core.reserve]
@[simp] theorem Core.reserve_dlwait (k : Core) (x : CReg) : (k.reserve x).dlwait = k.dlwait := by simp [Core.reserve]
@[simp] theorem Core.reserve_hl (k : Core) (x : CReg) : (k.reserve x).hl = k.hl := by simp [Core.reserve]
@[simp] theorem Core.reserve_entry1 (k : Core) (x : CReg) : (k.reserve x).entry1 = k.entry1 := by simp [Core.reserve]
@[simp] theorem Core.reserve_entry2 (k : Core) (x : CReg) : (k.reserve x).entry2 = k.entry2 := by simp [Core.reserve]
@[simp] theorem Core.reserve_bank1 (k : Core) (x : CReg) : (k.reserve x).bank1 = k.bank1 := by simp [Core.reserve]
@[simp] theorem Core.reserve_bank2 (k : Core) (x : CReg) : (k.reserve x).bank2 = k.bank2 := by simp [Core.reserve]
@[simp] theorem Core.reserve_trap1 (k : Core) (x : CReg) : (k.reserve x).trap1 = k.trap1 := by simp [Core.reserve]
@[simp] theorem Core.reserve_trap2 (k : Core) (x : CReg) : (k.reserve x).trap2 = k.trap2 := by simp [Core.reserve]
@[simp] theorem Core.reserve_held (k : Core) (x : CReg) : (k.reserve x).held = k.held := by simp [Core.reserve]
@[simp] theorem Core.reserve_escal (k : Core) (x : CReg) : (k.reserve x).escal = k.escal := by simp [Core.reserve]
@[simp] theorem Core.reserve_ctrlEsc (k : Core) (x : CReg) : (k.reserve x).ctrlEsc = k.ctrlEsc := by simp [Core.reserve]
@[simp] theorem Core.reserve_posted (k : Core) (x : CReg) : (k.reserve x).posted = k.posted := by simp [Core.reserve]
@[simp] theorem Core.reserve_forked (k : Core) (x : CReg) : (k.reserve x).forked = k.forked := by simp [Core.reserve]
@[simp] theorem Core.reserve_barOrd (k : Core) (x : CReg) : (k.reserve x).barOrd = k.barOrd := by simp [Core.reserve]
@[simp] theorem Core.reserve_barArr (k : Core) (x : CReg) : (k.reserve x).barArr = k.barArr := by simp [Core.reserve]
@[simp] theorem Core.reserve_aq (k : Core) (x : CReg) : (k.reserve x).aq = k.aq := by simp [Core.reserve]
@[simp] theorem Core.reserve_platch (k : Core) (x : CReg) : (k.reserve x).platch = k.platch := by simp [Core.reserve]
@[simp] theorem Core.reserve_latch (k : Core) (x : CReg) : (k.reserve x).latch = k.latch := by simp [Core.reserve]
@[simp] theorem Core.reserve_nestSet (k : Core) (x : CReg) : (k.reserve x).nestSet = k.nestSet := by simp [Core.reserve]
@[simp] theorem Core.reserve_nestBand (k : Core) (x : CReg) : (k.reserve x).nestBand = k.nestBand := by simp [Core.reserve]
@[simp] theorem Core.reserve_nestPoison (k : Core) (x : CReg) : (k.reserve x).nestPoison = k.nestPoison := by simp [Core.reserve]
@[simp] theorem Core.reserve_npck (k : Core) (x : CReg) : (k.reserve x).npck = k.npck := by simp [Core.reserve]
@[simp] theorem Core.reserve_ngrp (k : Core) (x : CReg) : (k.reserve x).ngrp = k.ngrp := by simp [Core.reserve]
@[simp] theorem Core.reserve_nfault (k : Core) (x : CReg) : (k.reserve x).nfault = k.nfault := by simp [Core.reserve]
@[simp] theorem Core.reserve_pumpq (k : Core) (x : CReg) : (k.reserve x).pumpq = k.pumpq := by simp [Core.reserve]
@[simp] theorem Core.reserve_pump0 (k : Core) (x : CReg) : (k.reserve x).pump0 = k.pump0 := by simp [Core.reserve]
@[simp] theorem Core.reserve_pump1 (k : Core) (x : CReg) : (k.reserve x).pump1 = k.pump1 := by simp [Core.reserve]
@[simp] theorem Core.reserve_landed (k : Core) (x : CReg) : (k.reserve x).landed = k.landed := by simp [Core.reserve]
@[simp] theorem Core.reserve_geom (k : Core) (x : CReg) : (k.reserve x).geom = k.geom := by simp [Core.reserve]
@[simp] theorem Core.reserve_gstat (k : Core) (x : CReg) : (k.reserve x).gstat = k.gstat := by simp [Core.reserve]
@[simp] theorem Core.reserve_vwrites (k : Core) (x : CReg) : (k.reserve x).vwrites = k.vwrites := by simp [Core.reserve]
@[simp] theorem Core.reserve_interval (k : Core) (x : CReg) : (k.reserve x).interval = k.interval := by simp [Core.reserve]
@[simp] theorem Core.reserve_loads (k : Core) (x : CReg) : (k.reserve x).loads = k.loads := by simp [Core.reserve]
@[simp] theorem Core.reserve_seq (k : Core) (x : CReg) : (k.reserve x).seq = k.seq := by simp [Core.reserve]
@[simp] theorem Core.reserve_wdSince (k : Core) (x : CReg) : (k.reserve x).wdSince = k.wdSince := by simp [Core.reserve]
@[simp] theorem Core.reserve_tlb (k : Core) (x : CReg) : (k.reserve x).tlb = k.tlb := by simp [Core.reserve]
@[simp] theorem Core.reserve_icache (k : Core) (x : CReg) : (k.reserve x).icache = k.icache := by simp [Core.reserve]
@[simp] theorem Core.reserve_codeView (k : Core) (x : CReg) : (k.reserve x).codeView = k.codeView := by simp [Core.reserve]
@[simp] theorem Core.reserve_task (k : Core) (x : CReg) : (k.reserve x).task = k.task := by simp [Core.reserve]
@[simp] theorem Core.reserve_drainSince (k : Core) (x : CReg) : (k.reserve x).drainSince = k.drainSince := by simp [Core.reserve]
@[simp] theorem Core.reserve_saving (k : Core) (x : CReg) : (k.reserve x).saving = k.saving := by simp [Core.reserve]
@[simp] theorem Core.reserve_zeroing (k : Core) (x : CReg) : (k.reserve x).zeroing = k.zeroing := by simp [Core.reserve]
@[simp] theorem Core.reserve_lastPart (k : Core) (x : CReg) : (k.reserve x).lastPart = k.lastPart := by simp [Core.reserve]
@[simp] theorem Core.reserve_offline (k : Core) (x : CReg) : (k.reserve x).offline = k.offline := by simp [Core.reserve]
@[simp] theorem Core.reserve_mismatches (k : Core) (x : CReg) : (k.reserve x).mismatches = k.mismatches := by simp [Core.reserve]
@[simp] theorem Core.reserve_worn (k : Core) (x : CReg) : (k.reserve x).worn = k.worn := by simp [Core.reserve]
@[simp] theorem Core.reserve_gated (k : Core) (x : CReg) : (k.reserve x).gated = k.gated := by simp [Core.reserve]

/-! ## Registers of a core -/

@[simp] theorem Core.readS_zero (k : Core) (x : StreamId) : k.readS x 0#5 = 0#64 := rfl

@[simp] theorem Core.readP_zero (k : Core) (x : StreamId) : k.readP x 0#3 = true := rfl

@[simp] theorem Core.writeS_zero (k : Core) (x : StreamId) (v : Word) : k.writeS x 0#5 v = k := rfl

@[simp] theorem Core.writeP_zero (k : Core) (x : StreamId) (v : Bool) : k.writeP x 0#3 v = k := rfl

end Sys2Proof.Machine
end

