-- ==== Sys2Proof/Laws/State.lean ====
section
/-! SUPPORT. The state record under its updates: one lemma for each field and each update. -/

namespace Sys2Proof.Machine

/-! ## Cores within the state -/

@[simp] theorem State.core_setCore_self (s : State) (c : CoreId) (k : Core) : (s.setCore c k).core c = k := by
  simp [State.core, State.setCore]

theorem State.core_setCore_ne (s : State) (k : Core) {c d : CoreId} (h : d ≠ c) :
    (s.setCore c k).core d = s.core d := by
  simp only [State.core, State.setCore]
  exact Vector.getElem_set_ne _ _ fun e => h (Fin.ext e.symm)

theorem State.core_setCore (s : State) (c d : CoreId) (k : Core) :
    (s.setCore c k).core d = if d = c then k else s.core d := by
  split
  · next h => rw [h, State.core_setCore_self]
  · next h => exact State.core_setCore_ne s k h

@[simp] theorem State.setCore_setCore (s : State) (c : CoreId) (k l : Core) :
    (s.setCore c k).setCore c l = s.setCore c l := by
  simp [State.setCore]

@[simp] theorem State.setCore_core (s : State) (c : CoreId) : s.setCore c (s.core c) = s := by
  simp [State.setCore, State.core]

theorem State.modCore_eq (s : State) (c : CoreId) (f : Core → Core) :
    s.modCore c f = s.setCore c (f (s.core c)) := rfl

@[simp] theorem State.core_modCore_self (s : State) (c : CoreId) (f : Core → Core) :
    (s.modCore c f).core c = f (s.core c) := State.core_setCore_self ..

theorem State.core_modCore_ne (s : State) (f : Core → Core) {c d : CoreId} (h : d ≠ c) :
    (s.modCore c f).core d = s.core d := State.core_setCore_ne _ _ h

@[simp] theorem State.modCore_modCore (s : State) (c : CoreId) (f g : Core → Core) :
    (s.modCore c f).modCore c g = s.modCore c fun k => g (f k) := by
  simp [State.modCore]

/-! ## Streams within a core -/

@[simp] theorem Core.stream_setStream_self (k : Core) (x : StreamId) (v : Stream) :
    (k.setStream x v).stream x = v := by cases x <;> rfl

theorem Core.stream_setStream_ne (k : Core) (v : Stream) {x y : StreamId} (h : y ≠ x) :
    (k.setStream x v).stream y = k.stream y := by cases x <;> cases y <;> first | rfl | exact absurd rfl h

@[simp] theorem Core.stream_modStream_self (k : Core) (x : StreamId) (f : Stream → Stream) :
    (k.modStream x f).stream x = f (k.stream x) := Core.stream_setStream_self ..

theorem Core.stream_modStream_ne (k : Core) (f : Stream → Stream) {x y : StreamId} (h : y ≠ x) :
    (k.modStream x f).stream y = k.stream y := Core.stream_setStream_ne _ _ h

@[simp] theorem Core.setStream_setStream (k : Core) (x : StreamId) (v w : Stream) :
    (k.setStream x v).setStream x w = k.setStream x w := by cases x <;> rfl

@[simp] theorem Core.setStream_stream (k : Core) (x : StreamId) : k.setStream x (k.stream x) = k := by
  cases x <;> rfl

@[simp] theorem State.stream_modStream_self (s : State) (c : CoreId) (x : StreamId) (f : Stream → Stream) :
    (s.modStream c x f).stream c x = f (s.stream c x) := by
  simp [State.stream, State.modStream]

@[simp] theorem State.core_modStream_self (s : State) (c : CoreId) (x : StreamId) (f : Stream → Stream) :
    (s.modStream c x f).core c = (s.core c).modStream x f := State.core_modCore_self ..

@[simp] theorem State.part_modPart_self (s : State) (p : PartId) (f : Partition → Partition) :
    (s.modPart p f).part p = f (s.part p) := by
  simp [State.part, State.modPart]

/-! ## State.setCore -/

@[simp] theorem State.setCore_tick (s : State) (c : CoreId) (k : Core) : (s.setCore c k).tick = s.tick := rfl
@[simp] theorem State.setCore_gmem (s : State) (c : CoreId) (k : Core) : (s.setCore c k).gmem = s.gmem := rfl
@[simp] theorem State.setCore_codeViews (s : State) (c : CoreId) (k : Core) : (s.setCore c k).codeViews = s.codeViews := rfl
@[simp] theorem State.setCore_l2 (s : State) (c : CoreId) (k : Core) : (s.setCore c k).l2 = s.l2 := rfl
@[simp] theorem State.setCore_ats (s : State) (c : CoreId) (k : Core) : (s.setCore c k).ats = s.ats := rfl
@[simp] theorem State.setCore_watches (s : State) (c : CoreId) (k : Core) : (s.setCore c k).watches = s.watches := rfl
@[simp] theorem State.setCore_lateTraps (s : State) (c : CoreId) (k : Core) : (s.setCore c k).lateTraps = s.lateTraps := rfl
@[simp] theorem State.setCore_turns (s : State) (c : CoreId) (k : Core) : (s.setCore c k).turns = s.turns := rfl
@[simp] theorem State.setCore_later (s : State) (c : CoreId) (k : Core) : (s.setCore c k).later = s.later := rfl
@[simp] theorem State.setCore_ticked (s : State) (c : CoreId) (k : Core) : (s.setCore c k).ticked = s.ticked := rfl
@[simp] theorem State.setCore_injected (s : State) (c : CoreId) (k : Core) : (s.setCore c k).injected = s.injected := rfl
@[simp] theorem State.setCore_parts (s : State) (c : CoreId) (k : Core) : (s.setCore c k).parts = s.parts := rfl
@[simp] theorem State.setCore_groups (s : State) (c : CoreId) (k : Core) : (s.setCore c k).groups = s.groups := rfl
@[simp] theorem State.setCore_queues (s : State) (c : CoreId) (k : Core) : (s.setCore c k).queues = s.queues := rfl
@[simp] theorem State.setCore_launches (s : State) (c : CoreId) (k : Core) : (s.setCore c k).launches = s.launches := rfl
@[simp] theorem State.setCore_nodes (s : State) (c : CoreId) (k : Core) : (s.setCore c k).nodes = s.nodes := rfl
@[simp] theorem State.setCore_ports (s : State) (c : CoreId) (k : Core) : (s.setCore c k).ports = s.ports := rfl
@[simp] theorem State.setCore_fns (s : State) (c : CoreId) (k : Core) : (s.setCore c k).fns = s.fns := rfl
@[simp] theorem State.setCore_mboxes (s : State) (c : CoreId) (k : Core) : (s.setCore c k).mboxes = s.mboxes := rfl
@[simp] theorem State.setCore_fmbox (s : State) (c : CoreId) (k : Core) : (s.setCore c k).fmbox = s.fmbox := rfl
@[simp] theorem State.setCore_answers (s : State) (c : CoreId) (k : Core) : (s.setCore c k).answers = s.answers := rfl
@[simp] theorem State.setCore_binderr (s : State) (c : CoreId) (k : Core) : (s.setCore c k).binderr = s.binderr := rfl
@[simp] theorem State.setCore_parterr (s : State) (c : CoreId) (k : Core) : (s.setCore c k).parterr = s.parterr := rfl
@[simp] theorem State.setCore_bankerr (s : State) (c : CoreId) (k : Core) : (s.setCore c k).bankerr = s.bankerr := rfl
@[simp] theorem State.setCore_remapEn (s : State) (c : CoreId) (k : Core) : (s.setCore c k).remapEn = s.remapEn := rfl
@[simp] theorem State.setCore_remap (s : State) (c : CoreId) (k : Core) : (s.setCore c k).remap = s.remap := rfl
@[simp] theorem State.setCore_irqs (s : State) (c : CoreId) (k : Core) : (s.setCore c k).irqs = s.irqs := rfl
@[simp] theorem State.setCore_irqDropped (s : State) (c : CoreId) (k : Core) : (s.setCore c k).irqDropped = s.irqDropped := rfl
@[simp] theorem State.setCore_aer (s : State) (c : CoreId) (k : Core) : (s.setCore c k).aer = s.aer := rfl
@[simp] theorem State.setCore_fabric (s : State) (c : CoreId) (k : Core) : (s.setCore c k).fabric = s.fabric := rfl
@[simp] theorem State.setCore_boot (s : State) (c : CoreId) (k : Core) : (s.setCore c k).boot = s.boot := rfl
@[simp] theorem State.setCore_attests (s : State) (c : CoreId) (k : Core) : (s.setCore c k).attests = s.attests := rfl
@[simp] theorem State.setCore_banks (s : State) (c : CoreId) (k : Core) : (s.setCore c k).banks = s.banks := rfl
@[simp] theorem State.setCore_errs (s : State) (c : CoreId) (k : Core) : (s.setCore c k).errs = s.errs := rfl
@[simp] theorem State.setCore_scrub (s : State) (c : CoreId) (k : Core) : (s.setCore c k).scrub = s.scrub := rfl
@[simp] theorem State.setCore_power (s : State) (c : CoreId) (k : Core) : (s.setCore c k).power = s.power := rfl
@[simp] theorem State.setCore_nextKey (s : State) (c : CoreId) (k : Core) : (s.setCore c k).nextKey = s.nextKey := rfl
@[simp] theorem State.setCore_nextDom (s : State) (c : CoreId) (k : Core) : (s.setCore c k).nextDom = s.nextDom := rfl
@[simp] theorem State.setCore_hostRead (s : State) (c : CoreId) (k : Core) : (s.setCore c k).hostRead = s.hostRead := rfl
@[simp] theorem State.setCore_sched (s : State) (c : CoreId) (k : Core) : (s.setCore c k).sched = s.sched := rfl
@[simp] theorem State.setCore_cur (s : State) (c : CoreId) (k : Core) : (s.setCore c k).cur = s.cur := rfl
@[simp] theorem State.setCore_fresh (s : State) (c : CoreId) (k : Core) : (s.setCore c k).fresh = s.fresh := rfl

/-! ## State.modCore -/

@[simp] theorem State.modCore_tick (s : State) (c : CoreId) (f : Core → Core) : (s.modCore c f).tick = s.tick := rfl
@[simp] theorem State.modCore_gmem (s : State) (c : CoreId) (f : Core → Core) : (s.modCore c f).gmem = s.gmem := rfl
@[simp] theorem State.modCore_codeViews (s : State) (c : CoreId) (f : Core → Core) : (s.modCore c f).codeViews = s.codeViews := rfl
@[simp] theorem State.modCore_l2 (s : State) (c : CoreId) (f : Core → Core) : (s.modCore c f).l2 = s.l2 := rfl
@[simp] theorem State.modCore_ats (s : State) (c : CoreId) (f : Core → Core) : (s.modCore c f).ats = s.ats := rfl
@[simp] theorem State.modCore_watches (s : State) (c : CoreId) (f : Core → Core) : (s.modCore c f).watches = s.watches := rfl
@[simp] theorem State.modCore_lateTraps (s : State) (c : CoreId) (f : Core → Core) : (s.modCore c f).lateTraps = s.lateTraps := rfl
@[simp] theorem State.modCore_turns (s : State) (c : CoreId) (f : Core → Core) : (s.modCore c f).turns = s.turns := rfl
@[simp] theorem State.modCore_later (s : State) (c : CoreId) (f : Core → Core) : (s.modCore c f).later = s.later := rfl
@[simp] theorem State.modCore_ticked (s : State) (c : CoreId) (f : Core → Core) : (s.modCore c f).ticked = s.ticked := rfl
@[simp] theorem State.modCore_injected (s : State) (c : CoreId) (f : Core → Core) : (s.modCore c f).injected = s.injected := rfl
@[simp] theorem State.modCore_parts (s : State) (c : CoreId) (f : Core → Core) : (s.modCore c f).parts = s.parts := rfl
@[simp] theorem State.modCore_groups (s : State) (c : CoreId) (f : Core → Core) : (s.modCore c f).groups = s.groups := rfl
@[simp] theorem State.modCore_queues (s : State) (c : CoreId) (f : Core → Core) : (s.modCore c f).queues = s.queues := rfl
@[simp] theorem State.modCore_launches (s : State) (c : CoreId) (f : Core → Core) : (s.modCore c f).launches = s.launches := rfl
@[simp] theorem State.modCore_nodes (s : State) (c : CoreId) (f : Core → Core) : (s.modCore c f).nodes = s.nodes := rfl
@[simp] theorem State.modCore_ports (s : State) (c : CoreId) (f : Core → Core) : (s.modCore c f).ports = s.ports := rfl
@[simp] theorem State.modCore_fns (s : State) (c : CoreId) (f : Core → Core) : (s.modCore c f).fns = s.fns := rfl
@[simp] theorem State.modCore_mboxes (s : State) (c : CoreId) (f : Core → Core) : (s.modCore c f).mboxes = s.mboxes := rfl
@[simp] theorem State.modCore_fmbox (s : State) (c : CoreId) (f : Core → Core) : (s.modCore c f).fmbox = s.fmbox := rfl
@[simp] theorem State.modCore_answers (s : State) (c : CoreId) (f : Core → Core) : (s.modCore c f).answers = s.answers := rfl
@[simp] theorem State.modCore_binderr (s : State) (c : CoreId) (f : Core → Core) : (s.modCore c f).binderr = s.binderr := rfl
@[simp] theorem State.modCore_parterr (s : State) (c : CoreId) (f : Core → Core) : (s.modCore c f).parterr = s.parterr := rfl
@[simp] theorem State.modCore_bankerr (s : State) (c : CoreId) (f : Core → Core) : (s.modCore c f).bankerr = s.bankerr := rfl
@[simp] theorem State.modCore_remapEn (s : State) (c : CoreId) (f : Core → Core) : (s.modCore c f).remapEn = s.remapEn := rfl
@[simp] theorem State.modCore_remap (s : State) (c : CoreId) (f : Core → Core) : (s.modCore c f).remap = s.remap := rfl
@[simp] theorem State.modCore_irqs (s : State) (c : CoreId) (f : Core → Core) : (s.modCore c f).irqs = s.irqs := rfl
@[simp] theorem State.modCore_irqDropped (s : State) (c : CoreId) (f : Core → Core) : (s.modCore c f).irqDropped = s.irqDropped := rfl
@[simp] theorem State.modCore_aer (s : State) (c : CoreId) (f : Core → Core) : (s.modCore c f).aer = s.aer := rfl
@[simp] theorem State.modCore_fabric (s : State) (c : CoreId) (f : Core → Core) : (s.modCore c f).fabric = s.fabric := rfl
@[simp] theorem State.modCore_boot (s : State) (c : CoreId) (f : Core → Core) : (s.modCore c f).boot = s.boot := rfl
@[simp] theorem State.modCore_attests (s : State) (c : CoreId) (f : Core → Core) : (s.modCore c f).attests = s.attests := rfl
@[simp] theorem State.modCore_banks (s : State) (c : CoreId) (f : Core → Core) : (s.modCore c f).banks = s.banks := rfl
@[simp] theorem State.modCore_errs (s : State) (c : CoreId) (f : Core → Core) : (s.modCore c f).errs = s.errs := rfl
@[simp] theorem State.modCore_scrub (s : State) (c : CoreId) (f : Core → Core) : (s.modCore c f).scrub = s.scrub := rfl
@[simp] theorem State.modCore_power (s : State) (c : CoreId) (f : Core → Core) : (s.modCore c f).power = s.power := rfl
@[simp] theorem State.modCore_nextKey (s : State) (c : CoreId) (f : Core → Core) : (s.modCore c f).nextKey = s.nextKey := rfl
@[simp] theorem State.modCore_nextDom (s : State) (c : CoreId) (f : Core → Core) : (s.modCore c f).nextDom = s.nextDom := rfl
@[simp] theorem State.modCore_hostRead (s : State) (c : CoreId) (f : Core → Core) : (s.modCore c f).hostRead = s.hostRead := rfl
@[simp] theorem State.modCore_sched (s : State) (c : CoreId) (f : Core → Core) : (s.modCore c f).sched = s.sched := rfl
@[simp] theorem State.modCore_cur (s : State) (c : CoreId) (f : Core → Core) : (s.modCore c f).cur = s.cur := rfl
@[simp] theorem State.modCore_fresh (s : State) (c : CoreId) (f : Core → Core) : (s.modCore c f).fresh = s.fresh := rfl

/-! ## State.modStream -/

@[simp] theorem State.modStream_tick (s : State) (c : CoreId) (x : StreamId) (f : Stream → Stream) : (s.modStream c x f).tick = s.tick := rfl
@[simp] theorem State.modStream_gmem (s : State) (c : CoreId) (x : StreamId) (f : Stream → Stream) : (s.modStream c x f).gmem = s.gmem := rfl
@[simp] theorem State.modStream_codeViews (s : State) (c : CoreId) (x : StreamId) (f : Stream → Stream) : (s.modStream c x f).codeViews = s.codeViews := rfl
@[simp] theorem State.modStream_l2 (s : State) (c : CoreId) (x : StreamId) (f : Stream → Stream) : (s.modStream c x f).l2 = s.l2 := rfl
@[simp] theorem State.modStream_ats (s : State) (c : CoreId) (x : StreamId) (f : Stream → Stream) : (s.modStream c x f).ats = s.ats := rfl
@[simp] theorem State.modStream_watches (s : State) (c : CoreId) (x : StreamId) (f : Stream → Stream) : (s.modStream c x f).watches = s.watches := rfl
@[simp] theorem State.modStream_lateTraps (s : State) (c : CoreId) (x : StreamId) (f : Stream → Stream) : (s.modStream c x f).lateTraps = s.lateTraps := rfl
@[simp] theorem State.modStream_turns (s : State) (c : CoreId) (x : StreamId) (f : Stream → Stream) : (s.modStream c x f).turns = s.turns := rfl
@[simp] theorem State.modStream_later (s : State) (c : CoreId) (x : StreamId) (f : Stream → Stream) : (s.modStream c x f).later = s.later := rfl
@[simp] theorem State.modStream_ticked (s : State) (c : CoreId) (x : StreamId) (f : Stream → Stream) : (s.modStream c x f).ticked = s.ticked := rfl
@[simp] theorem State.modStream_injected (s : State) (c : CoreId) (x : StreamId) (f : Stream → Stream) : (s.modStream c x f).injected = s.injected := rfl
@[simp] theorem State.modStream_parts (s : State) (c : CoreId) (x : StreamId) (f : Stream → Stream) : (s.modStream c x f).parts = s.parts := rfl
@[simp] theorem State.modStream_groups (s : State) (c : CoreId) (x : StreamId) (f : Stream → Stream) : (s.modStream c x f).groups = s.groups := rfl
@[simp] theorem State.modStream_queues (s : State) (c : CoreId) (x : StreamId) (f : Stream → Stream) : (s.modStream c x f).queues = s.queues := rfl
@[simp] theorem State.modStream_launches (s : State) (c : CoreId) (x : StreamId) (f : Stream → Stream) : (s.modStream c x f).launches = s.launches := rfl
@[simp] theorem State.modStream_nodes (s : State) (c : CoreId) (x : StreamId) (f : Stream → Stream) : (s.modStream c x f).nodes = s.nodes := rfl
@[simp] theorem State.modStream_ports (s : State) (c : CoreId) (x : StreamId) (f : Stream → Stream) : (s.modStream c x f).ports = s.ports := rfl
@[simp] theorem State.modStream_fns (s : State) (c : CoreId) (x : StreamId) (f : Stream → Stream) : (s.modStream c x f).fns = s.fns := rfl
@[simp] theorem State.modStream_mboxes (s : State) (c : CoreId) (x : StreamId) (f : Stream → Stream) : (s.modStream c x f).mboxes = s.mboxes := rfl
@[simp] theorem State.modStream_fmbox (s : State) (c : CoreId) (x : StreamId) (f : Stream → Stream) : (s.modStream c x f).fmbox = s.fmbox := rfl
@[simp] theorem State.modStream_answers (s : State) (c : CoreId) (x : StreamId) (f : Stream → Stream) : (s.modStream c x f).answers = s.answers := rfl
@[simp] theorem State.modStream_binderr (s : State) (c : CoreId) (x : StreamId) (f : Stream → Stream) : (s.modStream c x f).binderr = s.binderr := rfl
@[simp] theorem State.modStream_parterr (s : State) (c : CoreId) (x : StreamId) (f : Stream → Stream) : (s.modStream c x f).parterr = s.parterr := rfl
@[simp] theorem State.modStream_bankerr (s : State) (c : CoreId) (x : StreamId) (f : Stream → Stream) : (s.modStream c x f).bankerr = s.bankerr := rfl
@[simp] theorem State.modStream_remapEn (s : State) (c : CoreId) (x : StreamId) (f : Stream → Stream) : (s.modStream c x f).remapEn = s.remapEn := rfl
@[simp] theorem State.modStream_remap (s : State) (c : CoreId) (x : StreamId) (f : Stream → Stream) : (s.modStream c x f).remap = s.remap := rfl
@[simp] theorem State.modStream_irqs (s : State) (c : CoreId) (x : StreamId) (f : Stream → Stream) : (s.modStream c x f).irqs = s.irqs := rfl
@[simp] theorem State.modStream_irqDropped (s : State) (c : CoreId) (x : StreamId) (f : Stream → Stream) : (s.modStream c x f).irqDropped = s.irqDropped := rfl
@[simp] theorem State.modStream_aer (s : State) (c : CoreId) (x : StreamId) (f : Stream → Stream) : (s.modStream c x f).aer = s.aer := rfl
@[simp] theorem State.modStream_fabric (s : State) (c : CoreId) (x : StreamId) (f : Stream → Stream) : (s.modStream c x f).fabric = s.fabric := rfl
@[simp] theorem State.modStream_boot (s : State) (c : CoreId) (x : StreamId) (f : Stream → Stream) : (s.modStream c x f).boot = s.boot := rfl
@[simp] theorem State.modStream_attests (s : State) (c : CoreId) (x : StreamId) (f : Stream → Stream) : (s.modStream c x f).attests = s.attests := rfl
@[simp] theorem State.modStream_banks (s : State) (c : CoreId) (x : StreamId) (f : Stream → Stream) : (s.modStream c x f).banks = s.banks := rfl
@[simp] theorem State.modStream_errs (s : State) (c : CoreId) (x : StreamId) (f : Stream → Stream) : (s.modStream c x f).errs = s.errs := rfl
@[simp] theorem State.modStream_scrub (s : State) (c : CoreId) (x : StreamId) (f : Stream → Stream) : (s.modStream c x f).scrub = s.scrub := rfl
@[simp] theorem State.modStream_power (s : State) (c : CoreId) (x : StreamId) (f : Stream → Stream) : (s.modStream c x f).power = s.power := rfl
@[simp] theorem State.modStream_nextKey (s : State) (c : CoreId) (x : StreamId) (f : Stream → Stream) : (s.modStream c x f).nextKey = s.nextKey := rfl
@[simp] theorem State.modStream_nextDom (s : State) (c : CoreId) (x : StreamId) (f : Stream → Stream) : (s.modStream c x f).nextDom = s.nextDom := rfl
@[simp] theorem State.modStream_hostRead (s : State) (c : CoreId) (x : StreamId) (f : Stream → Stream) : (s.modStream c x f).hostRead = s.hostRead := rfl
@[simp] theorem State.modStream_sched (s : State) (c : CoreId) (x : StreamId) (f : Stream → Stream) : (s.modStream c x f).sched = s.sched := rfl
@[simp] theorem State.modStream_cur (s : State) (c : CoreId) (x : StreamId) (f : Stream → Stream) : (s.modStream c x f).cur = s.cur := rfl
@[simp] theorem State.modStream_fresh (s : State) (c : CoreId) (x : StreamId) (f : Stream → Stream) : (s.modStream c x f).fresh = s.fresh := rfl

/-! ## State.ws -/

@[simp] theorem State.ws_tick (s : State) (r : SReg) (v : Word) : (s.ws r v).tick = s.tick := rfl
@[simp] theorem State.ws_gmem (s : State) (r : SReg) (v : Word) : (s.ws r v).gmem = s.gmem := rfl
@[simp] theorem State.ws_codeViews (s : State) (r : SReg) (v : Word) : (s.ws r v).codeViews = s.codeViews := rfl
@[simp] theorem State.ws_l2 (s : State) (r : SReg) (v : Word) : (s.ws r v).l2 = s.l2 := rfl
@[simp] theorem State.ws_ats (s : State) (r : SReg) (v : Word) : (s.ws r v).ats = s.ats := rfl
@[simp] theorem State.ws_watches (s : State) (r : SReg) (v : Word) : (s.ws r v).watches = s.watches := rfl
@[simp] theorem State.ws_lateTraps (s : State) (r : SReg) (v : Word) : (s.ws r v).lateTraps = s.lateTraps := rfl
@[simp] theorem State.ws_turns (s : State) (r : SReg) (v : Word) : (s.ws r v).turns = s.turns := rfl
@[simp] theorem State.ws_later (s : State) (r : SReg) (v : Word) : (s.ws r v).later = s.later := rfl
@[simp] theorem State.ws_ticked (s : State) (r : SReg) (v : Word) : (s.ws r v).ticked = s.ticked := rfl
@[simp] theorem State.ws_injected (s : State) (r : SReg) (v : Word) : (s.ws r v).injected = s.injected := rfl
@[simp] theorem State.ws_parts (s : State) (r : SReg) (v : Word) : (s.ws r v).parts = s.parts := rfl
@[simp] theorem State.ws_groups (s : State) (r : SReg) (v : Word) : (s.ws r v).groups = s.groups := rfl
@[simp] theorem State.ws_queues (s : State) (r : SReg) (v : Word) : (s.ws r v).queues = s.queues := rfl
@[simp] theorem State.ws_launches (s : State) (r : SReg) (v : Word) : (s.ws r v).launches = s.launches := rfl
@[simp] theorem State.ws_nodes (s : State) (r : SReg) (v : Word) : (s.ws r v).nodes = s.nodes := rfl
@[simp] theorem State.ws_ports (s : State) (r : SReg) (v : Word) : (s.ws r v).ports = s.ports := rfl
@[simp] theorem State.ws_fns (s : State) (r : SReg) (v : Word) : (s.ws r v).fns = s.fns := rfl
@[simp] theorem State.ws_mboxes (s : State) (r : SReg) (v : Word) : (s.ws r v).mboxes = s.mboxes := rfl
@[simp] theorem State.ws_fmbox (s : State) (r : SReg) (v : Word) : (s.ws r v).fmbox = s.fmbox := rfl
@[simp] theorem State.ws_answers (s : State) (r : SReg) (v : Word) : (s.ws r v).answers = s.answers := rfl
@[simp] theorem State.ws_binderr (s : State) (r : SReg) (v : Word) : (s.ws r v).binderr = s.binderr := rfl
@[simp] theorem State.ws_parterr (s : State) (r : SReg) (v : Word) : (s.ws r v).parterr = s.parterr := rfl
@[simp] theorem State.ws_bankerr (s : State) (r : SReg) (v : Word) : (s.ws r v).bankerr = s.bankerr := rfl
@[simp] theorem State.ws_remapEn (s : State) (r : SReg) (v : Word) : (s.ws r v).remapEn = s.remapEn := rfl
@[simp] theorem State.ws_remap (s : State) (r : SReg) (v : Word) : (s.ws r v).remap = s.remap := rfl
@[simp] theorem State.ws_irqs (s : State) (r : SReg) (v : Word) : (s.ws r v).irqs = s.irqs := rfl
@[simp] theorem State.ws_irqDropped (s : State) (r : SReg) (v : Word) : (s.ws r v).irqDropped = s.irqDropped := rfl
@[simp] theorem State.ws_aer (s : State) (r : SReg) (v : Word) : (s.ws r v).aer = s.aer := rfl
@[simp] theorem State.ws_fabric (s : State) (r : SReg) (v : Word) : (s.ws r v).fabric = s.fabric := rfl
@[simp] theorem State.ws_boot (s : State) (r : SReg) (v : Word) : (s.ws r v).boot = s.boot := rfl
@[simp] theorem State.ws_attests (s : State) (r : SReg) (v : Word) : (s.ws r v).attests = s.attests := rfl
@[simp] theorem State.ws_banks (s : State) (r : SReg) (v : Word) : (s.ws r v).banks = s.banks := rfl
@[simp] theorem State.ws_errs (s : State) (r : SReg) (v : Word) : (s.ws r v).errs = s.errs := rfl
@[simp] theorem State.ws_scrub (s : State) (r : SReg) (v : Word) : (s.ws r v).scrub = s.scrub := rfl
@[simp] theorem State.ws_power (s : State) (r : SReg) (v : Word) : (s.ws r v).power = s.power := rfl
@[simp] theorem State.ws_nextKey (s : State) (r : SReg) (v : Word) : (s.ws r v).nextKey = s.nextKey := rfl
@[simp] theorem State.ws_nextDom (s : State) (r : SReg) (v : Word) : (s.ws r v).nextDom = s.nextDom := rfl
@[simp] theorem State.ws_hostRead (s : State) (r : SReg) (v : Word) : (s.ws r v).hostRead = s.hostRead := rfl
@[simp] theorem State.ws_sched (s : State) (r : SReg) (v : Word) : (s.ws r v).sched = s.sched := rfl
@[simp] theorem State.ws_cur (s : State) (r : SReg) (v : Word) : (s.ws r v).cur = s.cur := rfl
@[simp] theorem State.ws_fresh (s : State) (r : SReg) (v : Word) : (s.ws r v).fresh = s.fresh := rfl

/-! ## State.wp -/

@[simp] theorem State.wp_tick (s : State) (r : PReg) (v : Bool) : (s.wp r v).tick = s.tick := rfl
@[simp] theorem State.wp_gmem (s : State) (r : PReg) (v : Bool) : (s.wp r v).gmem = s.gmem := rfl
@[simp] theorem State.wp_codeViews (s : State) (r : PReg) (v : Bool) : (s.wp r v).codeViews = s.codeViews := rfl
@[simp] theorem State.wp_l2 (s : State) (r : PReg) (v : Bool) : (s.wp r v).l2 = s.l2 := rfl
@[simp] theorem State.wp_ats (s : State) (r : PReg) (v : Bool) : (s.wp r v).ats = s.ats := rfl
@[simp] theorem State.wp_watches (s : State) (r : PReg) (v : Bool) : (s.wp r v).watches = s.watches := rfl
@[simp] theorem State.wp_lateTraps (s : State) (r : PReg) (v : Bool) : (s.wp r v).lateTraps = s.lateTraps := rfl
@[simp] theorem State.wp_turns (s : State) (r : PReg) (v : Bool) : (s.wp r v).turns = s.turns := rfl
@[simp] theorem State.wp_later (s : State) (r : PReg) (v : Bool) : (s.wp r v).later = s.later := rfl
@[simp] theorem State.wp_ticked (s : State) (r : PReg) (v : Bool) : (s.wp r v).ticked = s.ticked := rfl
@[simp] theorem State.wp_injected (s : State) (r : PReg) (v : Bool) : (s.wp r v).injected = s.injected := rfl
@[simp] theorem State.wp_parts (s : State) (r : PReg) (v : Bool) : (s.wp r v).parts = s.parts := rfl
@[simp] theorem State.wp_groups (s : State) (r : PReg) (v : Bool) : (s.wp r v).groups = s.groups := rfl
@[simp] theorem State.wp_queues (s : State) (r : PReg) (v : Bool) : (s.wp r v).queues = s.queues := rfl
@[simp] theorem State.wp_launches (s : State) (r : PReg) (v : Bool) : (s.wp r v).launches = s.launches := rfl
@[simp] theorem State.wp_nodes (s : State) (r : PReg) (v : Bool) : (s.wp r v).nodes = s.nodes := rfl
@[simp] theorem State.wp_ports (s : State) (r : PReg) (v : Bool) : (s.wp r v).ports = s.ports := rfl
@[simp] theorem State.wp_fns (s : State) (r : PReg) (v : Bool) : (s.wp r v).fns = s.fns := rfl
@[simp] theorem State.wp_mboxes (s : State) (r : PReg) (v : Bool) : (s.wp r v).mboxes = s.mboxes := rfl
@[simp] theorem State.wp_fmbox (s : State) (r : PReg) (v : Bool) : (s.wp r v).fmbox = s.fmbox := rfl
@[simp] theorem State.wp_answers (s : State) (r : PReg) (v : Bool) : (s.wp r v).answers = s.answers := rfl
@[simp] theorem State.wp_binderr (s : State) (r : PReg) (v : Bool) : (s.wp r v).binderr = s.binderr := rfl
@[simp] theorem State.wp_parterr (s : State) (r : PReg) (v : Bool) : (s.wp r v).parterr = s.parterr := rfl
@[simp] theorem State.wp_bankerr (s : State) (r : PReg) (v : Bool) : (s.wp r v).bankerr = s.bankerr := rfl
@[simp] theorem State.wp_remapEn (s : State) (r : PReg) (v : Bool) : (s.wp r v).remapEn = s.remapEn := rfl
@[simp] theorem State.wp_remap (s : State) (r : PReg) (v : Bool) : (s.wp r v).remap = s.remap := rfl
@[simp] theorem State.wp_irqs (s : State) (r : PReg) (v : Bool) : (s.wp r v).irqs = s.irqs := rfl
@[simp] theorem State.wp_irqDropped (s : State) (r : PReg) (v : Bool) : (s.wp r v).irqDropped = s.irqDropped := rfl
@[simp] theorem State.wp_aer (s : State) (r : PReg) (v : Bool) : (s.wp r v).aer = s.aer := rfl
@[simp] theorem State.wp_fabric (s : State) (r : PReg) (v : Bool) : (s.wp r v).fabric = s.fabric := rfl
@[simp] theorem State.wp_boot (s : State) (r : PReg) (v : Bool) : (s.wp r v).boot = s.boot := rfl
@[simp] theorem State.wp_attests (s : State) (r : PReg) (v : Bool) : (s.wp r v).attests = s.attests := rfl
@[simp] theorem State.wp_banks (s : State) (r : PReg) (v : Bool) : (s.wp r v).banks = s.banks := rfl
@[simp] theorem State.wp_errs (s : State) (r : PReg) (v : Bool) : (s.wp r v).errs = s.errs := rfl
@[simp] theorem State.wp_scrub (s : State) (r : PReg) (v : Bool) : (s.wp r v).scrub = s.scrub := rfl
@[simp] theorem State.wp_power (s : State) (r : PReg) (v : Bool) : (s.wp r v).power = s.power := rfl
@[simp] theorem State.wp_nextKey (s : State) (r : PReg) (v : Bool) : (s.wp r v).nextKey = s.nextKey := rfl
@[simp] theorem State.wp_nextDom (s : State) (r : PReg) (v : Bool) : (s.wp r v).nextDom = s.nextDom := rfl
@[simp] theorem State.wp_hostRead (s : State) (r : PReg) (v : Bool) : (s.wp r v).hostRead = s.hostRead := rfl
@[simp] theorem State.wp_sched (s : State) (r : PReg) (v : Bool) : (s.wp r v).sched = s.sched := rfl
@[simp] theorem State.wp_cur (s : State) (r : PReg) (v : Bool) : (s.wp r v).cur = s.cur := rfl
@[simp] theorem State.wp_fresh (s : State) (r : PReg) (v : Bool) : (s.wp r v).fresh = s.fresh := rfl

/-! ## State.wk -/

@[simp] theorem State.wk_tick (s : State) (r : KReg) (v : BitVec 16) : (s.wk r v).tick = s.tick := rfl
@[simp] theorem State.wk_gmem (s : State) (r : KReg) (v : BitVec 16) : (s.wk r v).gmem = s.gmem := rfl
@[simp] theorem State.wk_codeViews (s : State) (r : KReg) (v : BitVec 16) : (s.wk r v).codeViews = s.codeViews := rfl
@[simp] theorem State.wk_l2 (s : State) (r : KReg) (v : BitVec 16) : (s.wk r v).l2 = s.l2 := rfl
@[simp] theorem State.wk_ats (s : State) (r : KReg) (v : BitVec 16) : (s.wk r v).ats = s.ats := rfl
@[simp] theorem State.wk_watches (s : State) (r : KReg) (v : BitVec 16) : (s.wk r v).watches = s.watches := rfl
@[simp] theorem State.wk_lateTraps (s : State) (r : KReg) (v : BitVec 16) : (s.wk r v).lateTraps = s.lateTraps := rfl
@[simp] theorem State.wk_turns (s : State) (r : KReg) (v : BitVec 16) : (s.wk r v).turns = s.turns := rfl
@[simp] theorem State.wk_later (s : State) (r : KReg) (v : BitVec 16) : (s.wk r v).later = s.later := rfl
@[simp] theorem State.wk_ticked (s : State) (r : KReg) (v : BitVec 16) : (s.wk r v).ticked = s.ticked := rfl
@[simp] theorem State.wk_injected (s : State) (r : KReg) (v : BitVec 16) : (s.wk r v).injected = s.injected := rfl
@[simp] theorem State.wk_parts (s : State) (r : KReg) (v : BitVec 16) : (s.wk r v).parts = s.parts := rfl
@[simp] theorem State.wk_groups (s : State) (r : KReg) (v : BitVec 16) : (s.wk r v).groups = s.groups := rfl
@[simp] theorem State.wk_queues (s : State) (r : KReg) (v : BitVec 16) : (s.wk r v).queues = s.queues := rfl
@[simp] theorem State.wk_launches (s : State) (r : KReg) (v : BitVec 16) : (s.wk r v).launches = s.launches := rfl
@[simp] theorem State.wk_nodes (s : State) (r : KReg) (v : BitVec 16) : (s.wk r v).nodes = s.nodes := rfl
@[simp] theorem State.wk_ports (s : State) (r : KReg) (v : BitVec 16) : (s.wk r v).ports = s.ports := rfl
@[simp] theorem State.wk_fns (s : State) (r : KReg) (v : BitVec 16) : (s.wk r v).fns = s.fns := rfl
@[simp] theorem State.wk_mboxes (s : State) (r : KReg) (v : BitVec 16) : (s.wk r v).mboxes = s.mboxes := rfl
@[simp] theorem State.wk_fmbox (s : State) (r : KReg) (v : BitVec 16) : (s.wk r v).fmbox = s.fmbox := rfl
@[simp] theorem State.wk_answers (s : State) (r : KReg) (v : BitVec 16) : (s.wk r v).answers = s.answers := rfl
@[simp] theorem State.wk_binderr (s : State) (r : KReg) (v : BitVec 16) : (s.wk r v).binderr = s.binderr := rfl
@[simp] theorem State.wk_parterr (s : State) (r : KReg) (v : BitVec 16) : (s.wk r v).parterr = s.parterr := rfl
@[simp] theorem State.wk_bankerr (s : State) (r : KReg) (v : BitVec 16) : (s.wk r v).bankerr = s.bankerr := rfl
@[simp] theorem State.wk_remapEn (s : State) (r : KReg) (v : BitVec 16) : (s.wk r v).remapEn = s.remapEn := rfl
@[simp] theorem State.wk_remap (s : State) (r : KReg) (v : BitVec 16) : (s.wk r v).remap = s.remap := rfl
@[simp] theorem State.wk_irqs (s : State) (r : KReg) (v : BitVec 16) : (s.wk r v).irqs = s.irqs := rfl
@[simp] theorem State.wk_irqDropped (s : State) (r : KReg) (v : BitVec 16) : (s.wk r v).irqDropped = s.irqDropped := rfl
@[simp] theorem State.wk_aer (s : State) (r : KReg) (v : BitVec 16) : (s.wk r v).aer = s.aer := rfl
@[simp] theorem State.wk_fabric (s : State) (r : KReg) (v : BitVec 16) : (s.wk r v).fabric = s.fabric := rfl
@[simp] theorem State.wk_boot (s : State) (r : KReg) (v : BitVec 16) : (s.wk r v).boot = s.boot := rfl
@[simp] theorem State.wk_attests (s : State) (r : KReg) (v : BitVec 16) : (s.wk r v).attests = s.attests := rfl
@[simp] theorem State.wk_banks (s : State) (r : KReg) (v : BitVec 16) : (s.wk r v).banks = s.banks := rfl
@[simp] theorem State.wk_errs (s : State) (r : KReg) (v : BitVec 16) : (s.wk r v).errs = s.errs := rfl
@[simp] theorem State.wk_scrub (s : State) (r : KReg) (v : BitVec 16) : (s.wk r v).scrub = s.scrub := rfl
@[simp] theorem State.wk_power (s : State) (r : KReg) (v : BitVec 16) : (s.wk r v).power = s.power := rfl
@[simp] theorem State.wk_nextKey (s : State) (r : KReg) (v : BitVec 16) : (s.wk r v).nextKey = s.nextKey := rfl
@[simp] theorem State.wk_nextDom (s : State) (r : KReg) (v : BitVec 16) : (s.wk r v).nextDom = s.nextDom := rfl
@[simp] theorem State.wk_hostRead (s : State) (r : KReg) (v : BitVec 16) : (s.wk r v).hostRead = s.hostRead := rfl
@[simp] theorem State.wk_sched (s : State) (r : KReg) (v : BitVec 16) : (s.wk r v).sched = s.sched := rfl
@[simp] theorem State.wk_cur (s : State) (r : KReg) (v : BitVec 16) : (s.wk r v).cur = s.cur := rfl
@[simp] theorem State.wk_fresh (s : State) (r : KReg) (v : BitVec 16) : (s.wk r v).fresh = s.fresh := rfl

/-! ## State.goto -/

@[simp] theorem State.goto_tick (s : State) (a : VAddr) : (s.goto a).tick = s.tick := rfl
@[simp] theorem State.goto_gmem (s : State) (a : VAddr) : (s.goto a).gmem = s.gmem := rfl
@[simp] theorem State.goto_codeViews (s : State) (a : VAddr) : (s.goto a).codeViews = s.codeViews := rfl
@[simp] theorem State.goto_l2 (s : State) (a : VAddr) : (s.goto a).l2 = s.l2 := rfl
@[simp] theorem State.goto_ats (s : State) (a : VAddr) : (s.goto a).ats = s.ats := rfl
@[simp] theorem State.goto_watches (s : State) (a : VAddr) : (s.goto a).watches = s.watches := rfl
@[simp] theorem State.goto_lateTraps (s : State) (a : VAddr) : (s.goto a).lateTraps = s.lateTraps := rfl
@[simp] theorem State.goto_turns (s : State) (a : VAddr) : (s.goto a).turns = s.turns := rfl
@[simp] theorem State.goto_later (s : State) (a : VAddr) : (s.goto a).later = s.later := rfl
@[simp] theorem State.goto_ticked (s : State) (a : VAddr) : (s.goto a).ticked = s.ticked := rfl
@[simp] theorem State.goto_injected (s : State) (a : VAddr) : (s.goto a).injected = s.injected := rfl
@[simp] theorem State.goto_parts (s : State) (a : VAddr) : (s.goto a).parts = s.parts := rfl
@[simp] theorem State.goto_groups (s : State) (a : VAddr) : (s.goto a).groups = s.groups := rfl
@[simp] theorem State.goto_queues (s : State) (a : VAddr) : (s.goto a).queues = s.queues := rfl
@[simp] theorem State.goto_launches (s : State) (a : VAddr) : (s.goto a).launches = s.launches := rfl
@[simp] theorem State.goto_nodes (s : State) (a : VAddr) : (s.goto a).nodes = s.nodes := rfl
@[simp] theorem State.goto_ports (s : State) (a : VAddr) : (s.goto a).ports = s.ports := rfl
@[simp] theorem State.goto_fns (s : State) (a : VAddr) : (s.goto a).fns = s.fns := rfl
@[simp] theorem State.goto_mboxes (s : State) (a : VAddr) : (s.goto a).mboxes = s.mboxes := rfl
@[simp] theorem State.goto_fmbox (s : State) (a : VAddr) : (s.goto a).fmbox = s.fmbox := rfl
@[simp] theorem State.goto_answers (s : State) (a : VAddr) : (s.goto a).answers = s.answers := rfl
@[simp] theorem State.goto_binderr (s : State) (a : VAddr) : (s.goto a).binderr = s.binderr := rfl
@[simp] theorem State.goto_parterr (s : State) (a : VAddr) : (s.goto a).parterr = s.parterr := rfl
@[simp] theorem State.goto_bankerr (s : State) (a : VAddr) : (s.goto a).bankerr = s.bankerr := rfl
@[simp] theorem State.goto_remapEn (s : State) (a : VAddr) : (s.goto a).remapEn = s.remapEn := rfl
@[simp] theorem State.goto_remap (s : State) (a : VAddr) : (s.goto a).remap = s.remap := rfl
@[simp] theorem State.goto_irqs (s : State) (a : VAddr) : (s.goto a).irqs = s.irqs := rfl
@[simp] theorem State.goto_irqDropped (s : State) (a : VAddr) : (s.goto a).irqDropped = s.irqDropped := rfl
@[simp] theorem State.goto_aer (s : State) (a : VAddr) : (s.goto a).aer = s.aer := rfl
@[simp] theorem State.goto_fabric (s : State) (a : VAddr) : (s.goto a).fabric = s.fabric := rfl
@[simp] theorem State.goto_boot (s : State) (a : VAddr) : (s.goto a).boot = s.boot := rfl
@[simp] theorem State.goto_attests (s : State) (a : VAddr) : (s.goto a).attests = s.attests := rfl
@[simp] theorem State.goto_banks (s : State) (a : VAddr) : (s.goto a).banks = s.banks := rfl
@[simp] theorem State.goto_errs (s : State) (a : VAddr) : (s.goto a).errs = s.errs := rfl
@[simp] theorem State.goto_scrub (s : State) (a : VAddr) : (s.goto a).scrub = s.scrub := rfl
@[simp] theorem State.goto_power (s : State) (a : VAddr) : (s.goto a).power = s.power := rfl
@[simp] theorem State.goto_nextKey (s : State) (a : VAddr) : (s.goto a).nextKey = s.nextKey := rfl
@[simp] theorem State.goto_nextDom (s : State) (a : VAddr) : (s.goto a).nextDom = s.nextDom := rfl
@[simp] theorem State.goto_hostRead (s : State) (a : VAddr) : (s.goto a).hostRead = s.hostRead := rfl
@[simp] theorem State.goto_sched (s : State) (a : VAddr) : (s.goto a).sched = s.sched := rfl
@[simp] theorem State.goto_cur (s : State) (a : VAddr) : (s.goto a).cur = s.cur := rfl
@[simp] theorem State.goto_fresh (s : State) (a : VAddr) : (s.goto a).fresh = s.fresh := rfl

/-! ## State.adv -/

@[simp] theorem State.adv_tick (s : State) : (s.adv).tick = s.tick := rfl
@[simp] theorem State.adv_gmem (s : State) : (s.adv).gmem = s.gmem := rfl
@[simp] theorem State.adv_codeViews (s : State) : (s.adv).codeViews = s.codeViews := rfl
@[simp] theorem State.adv_l2 (s : State) : (s.adv).l2 = s.l2 := rfl
@[simp] theorem State.adv_ats (s : State) : (s.adv).ats = s.ats := rfl
@[simp] theorem State.adv_watches (s : State) : (s.adv).watches = s.watches := rfl
@[simp] theorem State.adv_lateTraps (s : State) : (s.adv).lateTraps = s.lateTraps := rfl
@[simp] theorem State.adv_turns (s : State) : (s.adv).turns = s.turns := rfl
@[simp] theorem State.adv_later (s : State) : (s.adv).later = s.later := rfl
@[simp] theorem State.adv_ticked (s : State) : (s.adv).ticked = s.ticked := rfl
@[simp] theorem State.adv_injected (s : State) : (s.adv).injected = s.injected := rfl
@[simp] theorem State.adv_parts (s : State) : (s.adv).parts = s.parts := rfl
@[simp] theorem State.adv_groups (s : State) : (s.adv).groups = s.groups := rfl
@[simp] theorem State.adv_queues (s : State) : (s.adv).queues = s.queues := rfl
@[simp] theorem State.adv_launches (s : State) : (s.adv).launches = s.launches := rfl
@[simp] theorem State.adv_nodes (s : State) : (s.adv).nodes = s.nodes := rfl
@[simp] theorem State.adv_ports (s : State) : (s.adv).ports = s.ports := rfl
@[simp] theorem State.adv_fns (s : State) : (s.adv).fns = s.fns := rfl
@[simp] theorem State.adv_mboxes (s : State) : (s.adv).mboxes = s.mboxes := rfl
@[simp] theorem State.adv_fmbox (s : State) : (s.adv).fmbox = s.fmbox := rfl
@[simp] theorem State.adv_answers (s : State) : (s.adv).answers = s.answers := rfl
@[simp] theorem State.adv_binderr (s : State) : (s.adv).binderr = s.binderr := rfl
@[simp] theorem State.adv_parterr (s : State) : (s.adv).parterr = s.parterr := rfl
@[simp] theorem State.adv_bankerr (s : State) : (s.adv).bankerr = s.bankerr := rfl
@[simp] theorem State.adv_remapEn (s : State) : (s.adv).remapEn = s.remapEn := rfl
@[simp] theorem State.adv_remap (s : State) : (s.adv).remap = s.remap := rfl
@[simp] theorem State.adv_irqs (s : State) : (s.adv).irqs = s.irqs := rfl
@[simp] theorem State.adv_irqDropped (s : State) : (s.adv).irqDropped = s.irqDropped := rfl
@[simp] theorem State.adv_aer (s : State) : (s.adv).aer = s.aer := rfl
@[simp] theorem State.adv_fabric (s : State) : (s.adv).fabric = s.fabric := rfl
@[simp] theorem State.adv_boot (s : State) : (s.adv).boot = s.boot := rfl
@[simp] theorem State.adv_attests (s : State) : (s.adv).attests = s.attests := rfl
@[simp] theorem State.adv_banks (s : State) : (s.adv).banks = s.banks := rfl
@[simp] theorem State.adv_errs (s : State) : (s.adv).errs = s.errs := rfl
@[simp] theorem State.adv_scrub (s : State) : (s.adv).scrub = s.scrub := rfl
@[simp] theorem State.adv_power (s : State) : (s.adv).power = s.power := rfl
@[simp] theorem State.adv_nextKey (s : State) : (s.adv).nextKey = s.nextKey := rfl
@[simp] theorem State.adv_nextDom (s : State) : (s.adv).nextDom = s.nextDom := rfl
@[simp] theorem State.adv_hostRead (s : State) : (s.adv).hostRead = s.hostRead := rfl
@[simp] theorem State.adv_sched (s : State) : (s.adv).sched = s.sched := rfl
@[simp] theorem State.adv_cur (s : State) : (s.adv).cur = s.cur := rfl
@[simp] theorem State.adv_fresh (s : State) : (s.adv).fresh = s.fresh := rfl

/-! ## State.useFresh -/

@[simp] theorem State.useFresh_tick (s : State) : (s.useFresh).tick = s.tick := rfl
@[simp] theorem State.useFresh_cores (s : State) : (s.useFresh).cores = s.cores := rfl
@[simp] theorem State.useFresh_gmem (s : State) : (s.useFresh).gmem = s.gmem := rfl
@[simp] theorem State.useFresh_codeViews (s : State) : (s.useFresh).codeViews = s.codeViews := rfl
@[simp] theorem State.useFresh_l2 (s : State) : (s.useFresh).l2 = s.l2 := rfl
@[simp] theorem State.useFresh_ats (s : State) : (s.useFresh).ats = s.ats := rfl
@[simp] theorem State.useFresh_watches (s : State) : (s.useFresh).watches = s.watches := rfl
@[simp] theorem State.useFresh_lateTraps (s : State) : (s.useFresh).lateTraps = s.lateTraps := rfl
@[simp] theorem State.useFresh_turns (s : State) : (s.useFresh).turns = s.turns := rfl
@[simp] theorem State.useFresh_later (s : State) : (s.useFresh).later = s.later := rfl
@[simp] theorem State.useFresh_ticked (s : State) : (s.useFresh).ticked = s.ticked := rfl
@[simp] theorem State.useFresh_injected (s : State) : (s.useFresh).injected = s.injected := rfl
@[simp] theorem State.useFresh_parts (s : State) : (s.useFresh).parts = s.parts := rfl
@[simp] theorem State.useFresh_groups (s : State) : (s.useFresh).groups = s.groups := rfl
@[simp] theorem State.useFresh_queues (s : State) : (s.useFresh).queues = s.queues := rfl
@[simp] theorem State.useFresh_launches (s : State) : (s.useFresh).launches = s.launches := rfl
@[simp] theorem State.useFresh_nodes (s : State) : (s.useFresh).nodes = s.nodes := rfl
@[simp] theorem State.useFresh_ports (s : State) : (s.useFresh).ports = s.ports := rfl
@[simp] theorem State.useFresh_fns (s : State) : (s.useFresh).fns = s.fns := rfl
@[simp] theorem State.useFresh_mboxes (s : State) : (s.useFresh).mboxes = s.mboxes := rfl
@[simp] theorem State.useFresh_fmbox (s : State) : (s.useFresh).fmbox = s.fmbox := rfl
@[simp] theorem State.useFresh_answers (s : State) : (s.useFresh).answers = s.answers := rfl
@[simp] theorem State.useFresh_binderr (s : State) : (s.useFresh).binderr = s.binderr := rfl
@[simp] theorem State.useFresh_parterr (s : State) : (s.useFresh).parterr = s.parterr := rfl
@[simp] theorem State.useFresh_bankerr (s : State) : (s.useFresh).bankerr = s.bankerr := rfl
@[simp] theorem State.useFresh_remapEn (s : State) : (s.useFresh).remapEn = s.remapEn := rfl
@[simp] theorem State.useFresh_remap (s : State) : (s.useFresh).remap = s.remap := rfl
@[simp] theorem State.useFresh_irqs (s : State) : (s.useFresh).irqs = s.irqs := rfl
@[simp] theorem State.useFresh_irqDropped (s : State) : (s.useFresh).irqDropped = s.irqDropped := rfl
@[simp] theorem State.useFresh_aer (s : State) : (s.useFresh).aer = s.aer := rfl
@[simp] theorem State.useFresh_fabric (s : State) : (s.useFresh).fabric = s.fabric := rfl
@[simp] theorem State.useFresh_boot (s : State) : (s.useFresh).boot = s.boot := rfl
@[simp] theorem State.useFresh_attests (s : State) : (s.useFresh).attests = s.attests := rfl
@[simp] theorem State.useFresh_banks (s : State) : (s.useFresh).banks = s.banks := rfl
@[simp] theorem State.useFresh_errs (s : State) : (s.useFresh).errs = s.errs := rfl
@[simp] theorem State.useFresh_scrub (s : State) : (s.useFresh).scrub = s.scrub := rfl
@[simp] theorem State.useFresh_power (s : State) : (s.useFresh).power = s.power := rfl
@[simp] theorem State.useFresh_nextKey (s : State) : (s.useFresh).nextKey = s.nextKey := rfl
@[simp] theorem State.useFresh_nextDom (s : State) : (s.useFresh).nextDom = s.nextDom := rfl
@[simp] theorem State.useFresh_hostRead (s : State) : (s.useFresh).hostRead = s.hostRead := rfl
@[simp] theorem State.useFresh_sched (s : State) : (s.useFresh).sched = s.sched := rfl
@[simp] theorem State.useFresh_cur (s : State) : (s.useFresh).cur = s.cur := rfl

/-! ## State.modPart -/

@[simp] theorem State.modPart_tick (s : State) (p : PartId) (f : Partition → Partition) : (s.modPart p f).tick = s.tick := rfl
@[simp] theorem State.modPart_cores (s : State) (p : PartId) (f : Partition → Partition) : (s.modPart p f).cores = s.cores := rfl
@[simp] theorem State.modPart_gmem (s : State) (p : PartId) (f : Partition → Partition) : (s.modPart p f).gmem = s.gmem := rfl
@[simp] theorem State.modPart_codeViews (s : State) (p : PartId) (f : Partition → Partition) : (s.modPart p f).codeViews = s.codeViews := rfl
@[simp] theorem State.modPart_l2 (s : State) (p : PartId) (f : Partition → Partition) : (s.modPart p f).l2 = s.l2 := rfl
@[simp] theorem State.modPart_ats (s : State) (p : PartId) (f : Partition → Partition) : (s.modPart p f).ats = s.ats := rfl
@[simp] theorem State.modPart_watches (s : State) (p : PartId) (f : Partition → Partition) : (s.modPart p f).watches = s.watches := rfl
@[simp] theorem State.modPart_lateTraps (s : State) (p : PartId) (f : Partition → Partition) : (s.modPart p f).lateTraps = s.lateTraps := rfl
@[simp] theorem State.modPart_turns (s : State) (p : PartId) (f : Partition → Partition) : (s.modPart p f).turns = s.turns := rfl
@[simp] theorem State.modPart_later (s : State) (p : PartId) (f : Partition → Partition) : (s.modPart p f).later = s.later := rfl
@[simp] theorem State.modPart_ticked (s : State) (p : PartId) (f : Partition → Partition) : (s.modPart p f).ticked = s.ticked := rfl
@[simp] theorem State.modPart_injected (s : State) (p : PartId) (f : Partition → Partition) : (s.modPart p f).injected = s.injected := rfl
@[simp] theorem State.modPart_groups (s : State) (p : PartId) (f : Partition → Partition) : (s.modPart p f).groups = s.groups := rfl
@[simp] theorem State.modPart_queues (s : State) (p : PartId) (f : Partition → Partition) : (s.modPart p f).queues = s.queues := rfl
@[simp] theorem State.modPart_launches (s : State) (p : PartId) (f : Partition → Partition) : (s.modPart p f).launches = s.launches := rfl
@[simp] theorem State.modPart_nodes (s : State) (p : PartId) (f : Partition → Partition) : (s.modPart p f).nodes = s.nodes := rfl
@[simp] theorem State.modPart_ports (s : State) (p : PartId) (f : Partition → Partition) : (s.modPart p f).ports = s.ports := rfl
@[simp] theorem State.modPart_fns (s : State) (p : PartId) (f : Partition → Partition) : (s.modPart p f).fns = s.fns := rfl
@[simp] theorem State.modPart_mboxes (s : State) (p : PartId) (f : Partition → Partition) : (s.modPart p f).mboxes = s.mboxes := rfl
@[simp] theorem State.modPart_fmbox (s : State) (p : PartId) (f : Partition → Partition) : (s.modPart p f).fmbox = s.fmbox := rfl
@[simp] theorem State.modPart_answers (s : State) (p : PartId) (f : Partition → Partition) : (s.modPart p f).answers = s.answers := rfl
@[simp] theorem State.modPart_binderr (s : State) (p : PartId) (f : Partition → Partition) : (s.modPart p f).binderr = s.binderr := rfl
@[simp] theorem State.modPart_parterr (s : State) (p : PartId) (f : Partition → Partition) : (s.modPart p f).parterr = s.parterr := rfl
@[simp] theorem State.modPart_bankerr (s : State) (p : PartId) (f : Partition → Partition) : (s.modPart p f).bankerr = s.bankerr := rfl
@[simp] theorem State.modPart_remapEn (s : State) (p : PartId) (f : Partition → Partition) : (s.modPart p f).remapEn = s.remapEn := rfl
@[simp] theorem State.modPart_remap (s : State) (p : PartId) (f : Partition → Partition) : (s.modPart p f).remap = s.remap := rfl
@[simp] theorem State.modPart_irqs (s : State) (p : PartId) (f : Partition → Partition) : (s.modPart p f).irqs = s.irqs := rfl
@[simp] theorem State.modPart_irqDropped (s : State) (p : PartId) (f : Partition → Partition) : (s.modPart p f).irqDropped = s.irqDropped := rfl
@[simp] theorem State.modPart_aer (s : State) (p : PartId) (f : Partition → Partition) : (s.modPart p f).aer = s.aer := rfl
@[simp] theorem State.modPart_fabric (s : State) (p : PartId) (f : Partition → Partition) : (s.modPart p f).fabric = s.fabric := rfl
@[simp] theorem State.modPart_boot (s : State) (p : PartId) (f : Partition → Partition) : (s.modPart p f).boot = s.boot := rfl
@[simp] theorem State.modPart_attests (s : State) (p : PartId) (f : Partition → Partition) : (s.modPart p f).attests = s.attests := rfl
@[simp] theorem State.modPart_banks (s : State) (p : PartId) (f : Partition → Partition) : (s.modPart p f).banks = s.banks := rfl
@[simp] theorem State.modPart_errs (s : State) (p : PartId) (f : Partition → Partition) : (s.modPart p f).errs = s.errs := rfl
@[simp] theorem State.modPart_scrub (s : State) (p : PartId) (f : Partition → Partition) : (s.modPart p f).scrub = s.scrub := rfl
@[simp] theorem State.modPart_power (s : State) (p : PartId) (f : Partition → Partition) : (s.modPart p f).power = s.power := rfl
@[simp] theorem State.modPart_nextKey (s : State) (p : PartId) (f : Partition → Partition) : (s.modPart p f).nextKey = s.nextKey := rfl
@[simp] theorem State.modPart_nextDom (s : State) (p : PartId) (f : Partition → Partition) : (s.modPart p f).nextDom = s.nextDom := rfl
@[simp] theorem State.modPart_hostRead (s : State) (p : PartId) (f : Partition → Partition) : (s.modPart p f).hostRead = s.hostRead := rfl
@[simp] theorem State.modPart_sched (s : State) (p : PartId) (f : Partition → Partition) : (s.modPart p f).sched = s.sched := rfl
@[simp] theorem State.modPart_cur (s : State) (p : PartId) (f : Partition → Partition) : (s.modPart p f).cur = s.cur := rfl
@[simp] theorem State.modPart_fresh (s : State) (p : PartId) (f : Partition → Partition) : (s.modPart p f).fresh = s.fresh := rfl

/-! ## State.modMbox -/

@[simp] theorem State.modMbox_tick (s : State) (fn : BitVec 6) (f : Mailbox → Mailbox) : (s.modMbox fn f).tick = s.tick := rfl
@[simp] theorem State.modMbox_cores (s : State) (fn : BitVec 6) (f : Mailbox → Mailbox) : (s.modMbox fn f).cores = s.cores := rfl
@[simp] theorem State.modMbox_gmem (s : State) (fn : BitVec 6) (f : Mailbox → Mailbox) : (s.modMbox fn f).gmem = s.gmem := rfl
@[simp] theorem State.modMbox_codeViews (s : State) (fn : BitVec 6) (f : Mailbox → Mailbox) : (s.modMbox fn f).codeViews = s.codeViews := rfl
@[simp] theorem State.modMbox_l2 (s : State) (fn : BitVec 6) (f : Mailbox → Mailbox) : (s.modMbox fn f).l2 = s.l2 := rfl
@[simp] theorem State.modMbox_ats (s : State) (fn : BitVec 6) (f : Mailbox → Mailbox) : (s.modMbox fn f).ats = s.ats := rfl
@[simp] theorem State.modMbox_watches (s : State) (fn : BitVec 6) (f : Mailbox → Mailbox) : (s.modMbox fn f).watches = s.watches := rfl
@[simp] theorem State.modMbox_lateTraps (s : State) (fn : BitVec 6) (f : Mailbox → Mailbox) : (s.modMbox fn f).lateTraps = s.lateTraps := rfl
@[simp] theorem State.modMbox_turns (s : State) (fn : BitVec 6) (f : Mailbox → Mailbox) : (s.modMbox fn f).turns = s.turns := rfl
@[simp] theorem State.modMbox_later (s : State) (fn : BitVec 6) (f : Mailbox → Mailbox) : (s.modMbox fn f).later = s.later := rfl
@[simp] theorem State.modMbox_ticked (s : State) (fn : BitVec 6) (f : Mailbox → Mailbox) : (s.modMbox fn f).ticked = s.ticked := rfl
@[simp] theorem State.modMbox_injected (s : State) (fn : BitVec 6) (f : Mailbox → Mailbox) : (s.modMbox fn f).injected = s.injected := rfl
@[simp] theorem State.modMbox_parts (s : State) (fn : BitVec 6) (f : Mailbox → Mailbox) : (s.modMbox fn f).parts = s.parts := rfl
@[simp] theorem State.modMbox_groups (s : State) (fn : BitVec 6) (f : Mailbox → Mailbox) : (s.modMbox fn f).groups = s.groups := rfl
@[simp] theorem State.modMbox_queues (s : State) (fn : BitVec 6) (f : Mailbox → Mailbox) : (s.modMbox fn f).queues = s.queues := rfl
@[simp] theorem State.modMbox_launches (s : State) (fn : BitVec 6) (f : Mailbox → Mailbox) : (s.modMbox fn f).launches = s.launches := rfl
@[simp] theorem State.modMbox_nodes (s : State) (fn : BitVec 6) (f : Mailbox → Mailbox) : (s.modMbox fn f).nodes = s.nodes := rfl
@[simp] theorem State.modMbox_ports (s : State) (fn : BitVec 6) (f : Mailbox → Mailbox) : (s.modMbox fn f).ports = s.ports := rfl
@[simp] theorem State.modMbox_fns (s : State) (fn : BitVec 6) (f : Mailbox → Mailbox) : (s.modMbox fn f).fns = s.fns := rfl
@[simp] theorem State.modMbox_fmbox (s : State) (fn : BitVec 6) (f : Mailbox → Mailbox) : (s.modMbox fn f).fmbox = s.fmbox := rfl
@[simp] theorem State.modMbox_answers (s : State) (fn : BitVec 6) (f : Mailbox → Mailbox) : (s.modMbox fn f).answers = s.answers := rfl
@[simp] theorem State.modMbox_binderr (s : State) (fn : BitVec 6) (f : Mailbox → Mailbox) : (s.modMbox fn f).binderr = s.binderr := rfl
@[simp] theorem State.modMbox_parterr (s : State) (fn : BitVec 6) (f : Mailbox → Mailbox) : (s.modMbox fn f).parterr = s.parterr := rfl
@[simp] theorem State.modMbox_bankerr (s : State) (fn : BitVec 6) (f : Mailbox → Mailbox) : (s.modMbox fn f).bankerr = s.bankerr := rfl
@[simp] theorem State.modMbox_remapEn (s : State) (fn : BitVec 6) (f : Mailbox → Mailbox) : (s.modMbox fn f).remapEn = s.remapEn := rfl
@[simp] theorem State.modMbox_remap (s : State) (fn : BitVec 6) (f : Mailbox → Mailbox) : (s.modMbox fn f).remap = s.remap := rfl
@[simp] theorem State.modMbox_irqs (s : State) (fn : BitVec 6) (f : Mailbox → Mailbox) : (s.modMbox fn f).irqs = s.irqs := rfl
@[simp] theorem State.modMbox_irqDropped (s : State) (fn : BitVec 6) (f : Mailbox → Mailbox) : (s.modMbox fn f).irqDropped = s.irqDropped := rfl
@[simp] theorem State.modMbox_aer (s : State) (fn : BitVec 6) (f : Mailbox → Mailbox) : (s.modMbox fn f).aer = s.aer := rfl
@[simp] theorem State.modMbox_fabric (s : State) (fn : BitVec 6) (f : Mailbox → Mailbox) : (s.modMbox fn f).fabric = s.fabric := rfl
@[simp] theorem State.modMbox_boot (s : State) (fn : BitVec 6) (f : Mailbox → Mailbox) : (s.modMbox fn f).boot = s.boot := rfl
@[simp] theorem State.modMbox_attests (s : State) (fn : BitVec 6) (f : Mailbox → Mailbox) : (s.modMbox fn f).attests = s.attests := rfl
@[simp] theorem State.modMbox_banks (s : State) (fn : BitVec 6) (f : Mailbox → Mailbox) : (s.modMbox fn f).banks = s.banks := rfl
@[simp] theorem State.modMbox_errs (s : State) (fn : BitVec 6) (f : Mailbox → Mailbox) : (s.modMbox fn f).errs = s.errs := rfl
@[simp] theorem State.modMbox_scrub (s : State) (fn : BitVec 6) (f : Mailbox → Mailbox) : (s.modMbox fn f).scrub = s.scrub := rfl
@[simp] theorem State.modMbox_power (s : State) (fn : BitVec 6) (f : Mailbox → Mailbox) : (s.modMbox fn f).power = s.power := rfl
@[simp] theorem State.modMbox_nextKey (s : State) (fn : BitVec 6) (f : Mailbox → Mailbox) : (s.modMbox fn f).nextKey = s.nextKey := rfl
@[simp] theorem State.modMbox_nextDom (s : State) (fn : BitVec 6) (f : Mailbox → Mailbox) : (s.modMbox fn f).nextDom = s.nextDom := rfl
@[simp] theorem State.modMbox_hostRead (s : State) (fn : BitVec 6) (f : Mailbox → Mailbox) : (s.modMbox fn f).hostRead = s.hostRead := rfl
@[simp] theorem State.modMbox_sched (s : State) (fn : BitVec 6) (f : Mailbox → Mailbox) : (s.modMbox fn f).sched = s.sched := rfl
@[simp] theorem State.modMbox_cur (s : State) (fn : BitVec 6) (f : Mailbox → Mailbox) : (s.modMbox fn f).cur = s.cur := rfl
@[simp] theorem State.modMbox_fresh (s : State) (fn : BitVec 6) (f : Mailbox → Mailbox) : (s.modMbox fn f).fresh = s.fresh := rfl

end Sys2Proof.Machine
end

