-- ==== Sys2Proof/Laws/Registers.lean ====
section
/-! SUPPORT. Reading the registers of a stream after a write (Table 1.2, R117): the hard-wired register and the bank of
CTRL's handler level included. -/

namespace Sys2Proof.Machine

/-! ## Scalars of a core -/

theorem Core.readS_writeS (k : Core) (x : StreamId) (d r : SReg) (v : Word) :
    (k.writeS x d v).readS x r = if r = 0 then 0 else if r = d then v else k.readS x r := by
  by_cases hr : r = 0
  · simp [hr]
  by_cases hd : d = 0
  · subst hd
    by_cases h0 : r = 0#5 <;> simp_all
  have e : (d.toNat = r.toNat) = (r = d) := by
    rw [eq_comm (a := r)]; exact propext ⟨BitVec.eq_of_toNat_eq, fun h => h ▸ rfl⟩
  cases x <;> simp only [Core.readS, Core.writeS, Core.modStream, Core.stream, Core.setStream, beq_iff_eq, hr, hd, if_false]
  case ctrl => split <;> (try split) <;> simp_all [Vector.getElem_set]
  all_goals simp [Vector.getElem_set, e]

theorem Core.readP_writeP (k : Core) (x : StreamId) (d r : PReg) (v : Bool) :
    (k.writeP x d v).readP x r = if r = 0 then true else if r = d then v else k.readP x r := by
  by_cases hr : r = 0
  · simp [hr]
  by_cases hd : d = 0
  · subst hd
    by_cases h0 : r = 0#3 <;> simp_all
  have e : (d.toNat = r.toNat) = (r = d) := by
    rw [eq_comm (a := r)]; exact propext ⟨BitVec.eq_of_toNat_eq, fun h => h ▸ rfl⟩
  cases x <;> simp only [Core.readP, Core.writeP, Core.modStream, Core.stream, Core.setStream, beq_iff_eq, hr, hd, if_false]
  case ctrl => split <;> (try split) <;> simp_all [Vector.getElem_set]
  all_goals simp [Vector.getElem_set, e]

@[simp] theorem Core.readP_writeS (k : Core) (x : StreamId) (d : SReg) (r : PReg) (v : Word) :
    (k.writeS x d v).readP x r = k.readP x r := by
  cases x <;> simp only [Core.readP, Core.writeS, Core.modStream, Core.stream, Core.setStream] <;> repeat' split
  all_goals simp_all

@[simp] theorem Core.readS_writeP (k : Core) (x : StreamId) (d : PReg) (r : SReg) (v : Bool) :
    (k.writeP x d v).readS x r = k.readS x r := by
  cases x <;> simp only [Core.readS, Core.writeP, Core.modStream, Core.stream, Core.setStream] <;> repeat' split
  all_goals simp_all

/-- A change of a stream that keeps its scalars keeps what they read. -/
theorem Core.readS_modStream (k : Core) (x : StreamId) (f : Stream → Stream) (r : SReg) (h : ∀ v, (f v).s = v.s) :
    (k.modStream x f).readS x r = k.readS x r := by
  cases x <;> simp [Core.readS, Core.modStream, Core.stream, Core.setStream, h]

/-- A change of a stream that keeps its predicates keeps what they read. -/
theorem Core.readP_modStream (k : Core) (x : StreamId) (f : Stream → Stream) (r : PReg) (h : ∀ v, (f v).p = v.p) :
    (k.modStream x f).readP x r = k.readP x r := by
  cases x <;> simp [Core.readP, Core.modStream, Core.stream, Core.setStream, h]

/-! ## What a write of a scalar or a predicate leaves of its stream -/

/-- The stream fields that no write of a scalar changes. -/
theorem Core.stream_writeS (k : Core) (x y : StreamId) (d : SReg) (v : Word) :
    ∃ s', (k.writeS x d v).stream y = { k.stream y with s := s' } := by
  cases x <;> cases y <;> simp only [Core.writeS, Core.modStream, Core.stream, Core.setStream] <;> repeat' split
  all_goals exact ⟨_, rfl⟩

/-- The stream fields that no write of a predicate changes. -/
theorem Core.stream_writeP (k : Core) (x y : StreamId) (d : PReg) (v : Bool) :
    ∃ p', (k.writeP x d v).stream y = { k.stream y with p := p' } := by
  cases x <;> cases y <;> simp only [Core.writeP, Core.modStream, Core.stream, Core.setStream] <;> repeat' split
  all_goals exact ⟨_, rfl⟩

/-! ## The issuing stream -/

theorem State.rs_ws (s : State) (d r : SReg) (v : Word) :
    (s.ws d v).rs r = if r = 0 then 0 else if r = d then v else s.rs r := by
  simp only [State.rs, State.curCore, State.ws, State.modCore_cur, State.core_modCore_self]
  exact Core.readS_writeS ..

theorem State.rp_wp (s : State) (d r : PReg) (v : Bool) :
    (s.wp d v).rp r = if r = 0 then true else if r = d then v else s.rp r := by
  simp only [State.rp, State.curCore, State.wp, State.modCore_cur, State.core_modCore_self]
  exact Core.readP_writeP ..

@[simp] theorem State.rp_ws (s : State) (d : SReg) (r : PReg) (v : Word) : (s.ws d v).rp r = s.rp r := by
  simp [State.rp, State.curCore, State.ws]

@[simp] theorem State.rs_wp (s : State) (d : PReg) (r : SReg) (v : Bool) : (s.wp d v).rs r = s.rs r := by
  simp [State.rs, State.curCore, State.wp]

@[simp] theorem State.rs_goto (s : State) (a : VAddr) (r : SReg) : (s.goto a).rs r = s.rs r := by
  simp only [State.rs, State.curCore, State.goto, State.modStream_cur, State.core_modStream_self]
  exact Core.readS_modStream _ _ _ _ fun _ => rfl

@[simp] theorem State.rp_goto (s : State) (a : VAddr) (r : PReg) : (s.goto a).rp r = s.rp r := by
  simp only [State.rp, State.curCore, State.goto, State.modStream_cur, State.core_modStream_self]
  exact Core.readP_modStream _ _ _ _ fun _ => rfl

@[simp] theorem State.rk_goto (s : State) (a : VAddr) (r : KReg) : (s.goto a).rk r = s.rk r := by
  simp [State.rk, State.curStream, State.goto]

@[simp] theorem State.pc_goto (s : State) (a : VAddr) : (s.goto a).pc = a := by
  simp [State.pc, State.curStream, State.goto]

/-- A write of a scalar leaves the other fields of the issuing stream. -/
theorem State.curStream_ws (s : State) (d : SReg) (v : Word) :
    ∃ s', (s.ws d v).curStream = { s.curStream with s := s' } := by
  simpa [State.curStream, State.stream, State.ws] using Core.stream_writeS (s.core s.cur.1) s.cur.2 s.cur.2 d v

/-- A write of a predicate leaves the other fields of the issuing stream. -/
theorem State.curStream_wp (s : State) (d : PReg) (v : Bool) :
    ∃ p', (s.wp d v).curStream = { s.curStream with p := p' } := by
  simpa [State.curStream, State.stream, State.wp] using Core.stream_writeP (s.core s.cur.1) s.cur.2 s.cur.2 d v

@[simp] theorem State.nextPc_ws (s : State) (d : SReg) (v : Word) : (s.ws d v).nextPc = s.nextPc := by
  obtain ⟨_, e⟩ := s.curStream_ws d v
  simp [State.nextPc, e]

@[simp] theorem State.rk_ws (s : State) (d : SReg) (v : Word) (r : KReg) : (s.ws d v).rk r = s.rk r := by
  obtain ⟨_, e⟩ := s.curStream_ws d v
  simp [State.rk, e]

@[simp] theorem State.nextPc_wp (s : State) (d : PReg) (v : Bool) : (s.wp d v).nextPc = s.nextPc := by
  obtain ⟨_, e⟩ := s.curStream_wp d v
  simp [State.nextPc, e]

@[simp] theorem State.rk_wp (s : State) (d : PReg) (v : Bool) (r : KReg) : (s.wp d v).rk r = s.rk r := by
  obtain ⟨_, e⟩ := s.curStream_wp d v
  simp [State.rk, e]

theorem State.rk_wk (s : State) (d r : KReg) (v : BitVec 16) : (s.wk d v).rk r = if r = d then v else s.rk r := by
  have e : (d.val = r.val) = (r = d) := by
    rw [eq_comm (a := r)]; exact propext ⟨Fin.ext, fun h => h ▸ rfl⟩
  simp [State.rk, State.curStream, State.wk, Vector.getElem_set, e]

@[simp] theorem State.nextPc_wk (s : State) (d : KReg) (v : BitVec 16) : (s.wk d v).nextPc = s.nextPc := by
  simp [State.nextPc, State.curStream, State.wk]

@[simp] theorem State.rs_wk (s : State) (d : KReg) (v : BitVec 16) (r : SReg) : (s.wk d v).rs r = s.rs r := by
  simp only [State.rs, State.curCore, State.wk, State.modStream_cur, State.core_modStream_self]
  exact Core.readS_modStream _ _ _ _ fun _ => rfl

@[simp] theorem State.rp_wk (s : State) (d : KReg) (v : BitVec 16) (r : PReg) : (s.wk d v).rp r = s.rp r := by
  simp only [State.rp, State.curCore, State.wk, State.modStream_cur, State.core_modStream_self]
  exact Core.readP_modStream _ _ _ _ fun _ => rfl

end Sys2Proof.Machine
end

