-- ==== Sys2Proof/Laws/Frames.lean ====
section
/-! SUPPORT. What the shared shapes of the scalar instructions do, all of it: the registers after them, and that nothing
else changes. -/

namespace Sys2Proof.Machine

/-! ## Blanks -/

theorem Core.blank_writeS (k : Core) (x : StreamId) (d : SReg) (v : Word) : (k.writeS x d v).blank x = k.blank x := by
  by_cases hd : d = 0
  · subst hd; simp
  cases x <;> simp only [Core.blank, Core.writeS, Core.modStream, Core.stream, Core.setStream, beq_iff_eq, hd, if_false]
  repeat' split
  all_goals simp_all

theorem Core.blank_writeP (k : Core) (x : StreamId) (d : PReg) (v : Bool) : (k.writeP x d v).blank x = k.blank x := by
  by_cases hd : d = 0
  · subst hd; simp
  cases x <;> simp only [Core.blank, Core.writeP, Core.modStream, Core.stream, Core.setStream, beq_iff_eq, hd, if_false]
  repeat' split
  all_goals simp_all

theorem Core.blank_modStream (k : Core) (x : StreamId) (a : Stream → VAddr) (b : Stream → Vector (BitVec 16) 7) :
    (k.modStream x fun v => { v with pc := a v, k := b v }).blank x = k.blank x := by
  cases x <;> rfl

@[simp] theorem Core.blank_cistern (k : Core) (x : StreamId) : (k.blank x).cistern = k.cistern := by
  unfold Core.blank
  cases x <;> simp only [Core.modStream_cistern]
  repeat' split
  all_goals simp

@[simp] theorem State.blank_ws (s : State) (d : SReg) (v : Word) : (s.ws d v).blank = s.blank := by
  simp [State.blank, State.ws, Core.blank_writeS]

@[simp] theorem State.blank_wp (s : State) (d : PReg) (v : Bool) : (s.wp d v).blank = s.blank := by
  simp [State.blank, State.wp, Core.blank_writeP]

@[simp] theorem State.blank_goto (s : State) (a : VAddr) : (s.goto a).blank = s.blank := by
  simp only [State.blank, State.goto, State.modStream, State.modCore_cur, State.modCore_modCore]
  congr 1
  funext k
  exact Core.blank_modStream k _ (fun _ => a) (fun v => v.k)

@[simp] theorem State.blank_wk (s : State) (d : KReg) (v : BitVec 16) : (s.wk d v).blank = s.blank := by
  simp only [State.blank, State.wk, State.modStream, State.modCore_cur, State.modCore_modCore]
  congr 1
  funext k
  exact Core.blank_modStream k _ (fun v => v.pc) (fun t => t.k.set d.val v)

@[simp] theorem State.blank_adv (s : State) : s.adv.blank = s.blank := State.blank_goto ..

/-- States with equal blanks read every byte of memory alike. -/
theorem State.memSame_of_blank {s t : State} (h : t.blank = s.blank) : s.memSame t := by
  have hp : t.parts = s.parts := by simpa [State.blank] using congrArg State.parts h
  have hg : t.gmem = s.gmem := by simpa [State.blank] using congrArg State.gmem h
  have hc : t.cur = s.cur := by simpa [State.blank] using congrArg State.cur h
  refine ⟨fun p a => by simp only [State.readByte, State.keyOf, State.part, hp, hg]; rfl, fun c a => ?_⟩
  have h' := congrArg (fun s => (s.core c).cistern) h
  simp only [State.blank, State.modCore, State.core_setCore, hc] at h'
  by_cases e : c = s.cur.1
  · subst e
    simp only [if_true, Core.blank_cistern] at h'
    rw [h']
  · simp only [e, if_false] at h'
    rw [h']

/-! ## Going on, and the three shapes of a scalar instruction (R117, R118) -/

/-- A state whose registers are as given goes on to the next instruction with them. -/
theorem State.becomes_adv {s u : State} {regs : SReg → Word} {preds : PReg → Bool} {bases : KReg → BitVec 16}
    (hr : ∀ r, u.rs r = regs r) (hp : ∀ r, u.rp r = preds r) (hk : ∀ r, u.rk r = bases r) (hn : u.nextPc = s.nextPc)
    (hb : u.blank = s.blank) : s.becomes u.adv regs preds bases s.nextPc := by
  have hb' : u.adv.blank = s.blank := by rw [State.blank_adv, hb]
  exact ⟨by simpa [State.adv] using hr, by simpa [State.adv] using hp, by simpa [State.adv] using hk,
    by simpa [State.adv] using hn, hb', State.memSame_of_blank hb'⟩

/-- A state whose registers are as given goes on at an address with them. -/
theorem State.becomes_goto {s u : State} {regs : SReg → Word} {preds : PReg → Bool} {bases : KReg → BitVec 16}
    (hr : ∀ r, u.rs r = regs r) (hp : ∀ r, u.rp r = preds r) (hk : ∀ r, u.rk r = bases r) (a : VAddr)
    (hb : u.blank = s.blank) : s.becomes (u.goto a) regs preds bases a := by
  have hb' : (u.goto a).blank = s.blank := by rw [State.blank_goto, hb]
  exact ⟨by simpa using hr, by simpa using hp, by simpa using hk, by simp, hb', State.memSame_of_blank hb'⟩

theorem State.continues_adv (s : State) : s.continues s.adv s.nextPc :=
  State.becomes_adv (fun _ => rfl) (fun _ => rfl) (fun _ => rfl) rfl rfl

theorem State.continues_goto (s : State) (a : VAddr) : s.continues (s.goto a) a :=
  State.becomes_goto (fun _ => rfl) (fun _ => rfl) (fun _ => rfl) a rfl

theorem State.setS_false {s : State} {g : Guard} (d : SReg) (v : Word) (h : s.guard g = false) :
    s.setS g d v = .next s.adv := by simp [State.setS, State.doing, h]

theorem State.setP_false {s : State} {g : Guard} (d : PReg) (v : Bool) (h : s.guard g = false) :
    s.setP g d v = .next s.adv := by simp [State.setP, State.doing, h]

theorem State.setK_false {s : State} {g : Guard} (d : KReg) (v : BitVec 16) (h : s.guard g = false) :
    s.setK g d v = .next s.adv := by simp [State.setK, State.doing, h]

/-- s[D] ← v under a true guard. -/
theorem State.setS_true {s : State} {g : Guard} (d : SReg) (v : Word) (h : s.guard g = true) :
    s.setS g d v = .next (s.ws d v).adv ∧ s.scalarWritten (s.ws d v).adv d v :=
  ⟨by simp [State.setS, State.doing, h],
    State.becomes_adv (fun _ => State.rs_ws ..) (by simp) (by simp) (by simp) (by simp)⟩

/-- p[D] ← v under a true guard. -/
theorem State.setP_true {s : State} {g : Guard} (d : PReg) (v : Bool) (h : s.guard g = true) :
    s.setP g d v = .next (s.wp d v).adv ∧ s.predWritten (s.wp d v).adv d v :=
  ⟨by simp [State.setP, State.doing, h],
    State.becomes_adv (by simp) (fun _ => State.rp_wp ..) (by simp) (by simp) (by simp)⟩

/-- k[D] ← v under a true guard. -/
theorem State.setK_true {s : State} {g : Guard} (d : KReg) (v : BitVec 16) (h : s.guard g = true) :
    s.setK g d v = .next (s.wk d v).adv ∧ s.baseWritten (s.wk d v).adv d v :=
  ⟨by simp [State.setK, State.doing, h],
    State.becomes_adv (by simp) (by simp) (fun _ => State.rk_wk ..) (by simp) (by simp)⟩

/-- A division under a true guard: the trap for a zero divisor, else the value. -/
theorem State.setDiv_true {s : State} {g : Guard} (d : SReg) (b v : Word) (h : s.guard g = true) :
    s.setDiv g d b v = if b = 0 then .next (s.trap Cause.intDivZero 0) else s.setS g d v := by
  by_cases hb : b = 0 <;> simp [State.setDiv, h, hb]

end Sys2Proof.Machine
end

