-- ==== Sys2Proof/Laws/Memory.lean ====
section
/-! SUPPORT. Byte memory: every operation keeps the canonical form, a read after a write gives what was written, and a
write leaves every other byte alone. -/

namespace Sys2Proof.Machine

/-! ## The canonical form -/

/-- The canonical form in terms of the whole list. -/
theorem Memory.wf_iff (m : Memory) :
    Memory.wf m = true ↔ m.Pairwise (fun a b => a.1 < b.1) ∧ ∀ c ∈ m, c.2 ≠ Memory.unlisted := by
  induction m with
  | nil => simp [Memory.wf]
  | cons c t ih =>
    cases t with
    | nil => simp [Memory.wf]
    | cons d t =>
      simp only [Memory.wf, Bool.and_eq_true, bne_iff_ne, decide_eq_true_eq, ih, List.pairwise_cons, List.mem_cons,
        forall_eq_or_imp]
      constructor
      · rintro ⟨⟨hc, hcd⟩, ⟨hd, ht⟩, hv, hw⟩
        exact ⟨⟨⟨hcd, fun x hx => Nat.lt_trans hcd (hd x hx)⟩, hd, ht⟩, hc, hv, hw⟩
      · rintro ⟨⟨⟨hcd, _⟩, hd, ht⟩, hc, hv, hw⟩
        exact ⟨⟨hc, hcd⟩, ⟨hd, ht⟩, hv, hw⟩

theorem Memory.mem_cells {a : Nat} {bs : List Byte} {c : Host.Cell} (h : c ∈ Memory.cells a bs) :
    a ≤ c.1 ∧ c.1 < a + bs.length ∧ c.2 ≠ Memory.unlisted := by
  induction bs generalizing a with
  | nil => simp [Memory.cells] at h
  | cons b bs ih =>
    simp only [Memory.cells, List.length_cons] at h ⊢
    split at h
    · have := ih h
      exact ⟨by omega, by omega, this.2.2⟩
    · next hb =>
      rcases List.mem_cons.mp h with rfl | h
      · exact ⟨Nat.le_refl _, by simp, by simpa using hb⟩
      · have := ih h
        exact ⟨by omega, by omega, this.2.2⟩

theorem Memory.cells_rising (a : Nat) (bs : List Byte) :
    (Memory.cells a bs).Pairwise fun x y => x.1 < y.1 := by
  induction bs generalizing a with
  | nil => exact List.Pairwise.nil
  | cons b bs ih =>
    simp only [Memory.cells]
    split
    · exact ih _
    · exact List.pairwise_cons.mpr ⟨fun c hc => (Memory.mem_cells hc).1, ih _⟩

/-- A write keeps the canonical form. -/
theorem Memory.write_wf {m : Memory} (h : Memory.wf m = true) (a : Nat) (bs : List Byte) :
    Memory.wf (m.write a bs) = true := by
  obtain ⟨hp, hv⟩ := (Memory.wf_iff m).mp h
  refine (Memory.wf_iff _).mpr ⟨?_, ?_⟩
  · refine List.pairwise_append.mpr ⟨List.pairwise_append.mpr ⟨hp.filter _, Memory.cells_rising .., ?_⟩,
      hp.filter _, ?_⟩
    · intro c hc d hd
      have h1 := (List.mem_filter.mp hc).2
      have h2 := Memory.mem_cells hd
      simp at h1; omega
    · intro c hc d hd
      have h2 := (List.mem_filter.mp hd).2
      rcases List.mem_append.mp hc with hc | hc
      · have h1 := (List.mem_filter.mp hc).2
        simp at h1 h2; omega
      · have h1 := Memory.mem_cells hc
        simp at h2; omega
  · intro c hc
    rcases List.mem_append.mp hc with hc | hc
    · rcases List.mem_append.mp hc with hc | hc
      · exact hv c (List.mem_filter.mp hc).1
      · exact (Memory.mem_cells hc).2.2
    · exact hv c (List.mem_filter.mp hc).1

theorem Memory.nil_wf : Memory.wf [] = true := rfl

/-! ## Reading after a write -/

theorem Memory.find_filter {m : Memory} {x : Nat} {p : Host.Cell → Bool} (h : ∀ c : Host.Cell, c.1 = x → p c = true) :
    (m.filter p).find? (fun c => c.1 == x) = m.find? (fun c => c.1 == x) := by
  rw [List.find?_filter]
  congr 1
  funext c
  by_cases e : c.1 = x
  · simp [e, h c e]
  · simp [e]

theorem Memory.find_filter_none {m : Memory} {x : Nat} {p : Host.Cell → Bool}
    (h : ∀ c : Host.Cell, c.1 = x → p c = false) : (m.filter p).find? (fun c => c.1 == x) = none := by
  rw [List.find?_eq_none]
  intro c hc e
  have := (List.mem_filter.mp hc).2
  rw [h c (by simpa using e)] at this
  exact Bool.false_ne_true this

theorem Memory.find_cells {a : Nat} {bs : List Byte} {x : Nat} :
    ((Memory.cells a bs).find? (fun c => c.1 == x)).elim Memory.unlisted (·.2) =
      if a ≤ x ∧ x < a + bs.length then bs.getD (x - a) 0 else Memory.unlisted := by
  induction bs generalizing a with
  | nil => simp only [Memory.cells, List.find?_nil, Option.elim_none, List.length_nil]; rw [if_neg (by omega)]
  | cons b bs ih =>
    simp only [Memory.cells, List.length_cons]
    by_cases hx : x = a
    · subst hx
      have hn : (Memory.cells (x + 1) bs).find? (fun c => c.1 == x) = none := by
        rw [List.find?_eq_none]
        intro c hc e
        have := (Memory.mem_cells hc).1
        simp at e; omega
      split
      · next hb => simp [hn]; simpa using (beq_iff_eq.mp hb).symm
      · simp
    · have step : (if a + 1 ≤ x ∧ x < a + 1 + bs.length then bs.getD (x - (a + 1)) 0 else Memory.unlisted) =
          if a ≤ x ∧ x < a + (bs.length + 1) then (b :: bs).getD (x - a) 0 else Memory.unlisted := by
        by_cases hr : a + 1 ≤ x ∧ x < a + 1 + bs.length
        · have e : x - a = (x - (a + 1)) + 1 := by omega
          rw [if_pos hr, if_pos (by omega), e]; simp
        · rw [if_neg hr, if_neg (by omega)]
      split
      · rw [ih, step]
      · have : ((a == x) = false) := by simp; omega
        simp only [List.find?_cons, this]
        rw [ih, step]

theorem Memory.read_eq (m : Memory) (x : Nat) :
    m.read x = (m.find? fun c => c.1 == x).elim Memory.unlisted (·.2) := by
  unfold Memory.read
  cases m.find? fun c => c.1 == x <;> rfl

/-- A byte read after a write: what was written inside the run, what was there outside it. -/
theorem Memory.read_write (m : Memory) (a : Nat) (bs : List Byte) (x : Nat) :
    (m.write a bs).read x = if a ≤ x ∧ x < a + bs.length then bs.getD (x - a) 0 else m.read x := by
  rw [Memory.read_eq, Memory.write, List.find?_append, List.find?_append]
  by_cases h1 : x < a
  · rw [Memory.find_filter (by simp; intros; omega), if_neg (by omega), Memory.read_eq]
    have hc : (Memory.cells a bs).find? (fun c => c.1 == x) = none := by
      rw [List.find?_eq_none]; intro c hc e
      have := (Memory.mem_cells hc).1; simp at e; omega
    rw [hc, Memory.find_filter_none (by simp; intros; omega)]
    simp
  · by_cases h2 : x < a + bs.length
    · have hf : (m.filter fun c => decide (c.1 < a)).find? (fun c => c.1 == x) = none :=
        Memory.find_filter_none (by simp; intros; omega)
      have hg : (m.filter fun c => decide (a + bs.length ≤ c.1)).find? (fun c => c.1 == x) = none :=
        Memory.find_filter_none (by simp; intros; omega)
      rw [hf, hg, if_pos (by omega)]
      have := Memory.find_cells (a := a) (bs := bs) (x := x)
      rw [if_pos (by omega)] at this
      simpa using this
    · have hf : (m.filter fun c => decide (c.1 < a)).find? (fun c => c.1 == x) = none :=
        Memory.find_filter_none (by simp; intros; omega)
      have hc : (Memory.cells a bs).find? (fun c => c.1 == x) = none := by
        rw [List.find?_eq_none]; intro c hc e
        have := (Memory.mem_cells hc).2.1; simp at e; omega
      rw [hf, hc, Memory.find_filter (by simp; intros; omega), if_neg (by omega), Memory.read_eq]
      simp

/-! ## Poison granules -/

@[simp] theorem PoisonMem.mark_bytes (m : PoisonMem) (g : Nat) (b : Bool) : (m.mark g b).bytes = m.bytes := rfl

theorem PoisonMem.wf_iff (m : PoisonMem) :
    m.wf = true ↔ Memory.wf m.bytes = true ∧ m.poison.Pairwise (· < ·) := by
  simp [PoisonMem.wf]

theorem PoisonMem.mark_wf {m : PoisonMem} (h : m.wf = true) (g : Nat) (b : Bool) : (m.mark g b).wf = true := by
  obtain ⟨hb, hp⟩ := (PoisonMem.wf_iff m).mp h
  refine (PoisonMem.wf_iff _).mpr ⟨hb, ?_⟩
  have one : (if b then [g] else []).Pairwise (· < ·) := by cases b <;> simp
  refine List.pairwise_append.mpr ⟨List.pairwise_append.mpr ⟨hp.filter _, one, ?_⟩, hp.filter _, ?_⟩
  · intro x hx y hy
    have h1 := (List.mem_filter.mp hx).2
    cases b <;> simp_all
  · intro x hx y hy
    have h2 := (List.mem_filter.mp hy).2
    rcases List.mem_append.mp hx with hx | hx
    · have h1 := (List.mem_filter.mp hx).2
      simp at h1 h2; omega
    · cases b <;> simp_all

/-- The fold of store over the granules it touches keeps what holds of its start. -/
theorem PoisonMem.foldl_marks {P : PoisonMem → Prop} (hm : ∀ m g b, P m → P (m.mark g b)) (f : Nat → Bool) (p : Bool)
    (gs : List Nat) (m : PoisonMem) (h : P m) :
    P (gs.foldl (fun m g => if f g then m.mark g p else if p then m.mark g true else m) m) := by
  induction gs generalizing m with
  | nil => exact h
  | cons g gs ih =>
    simp only [List.foldl_cons]
    apply ih
    split
    · exact hm _ _ _ h
    · split
      · exact hm _ _ _ h
      · exact h

/-- A store keeps the canonical form. -/
theorem PoisonMem.store_wf {m : PoisonMem} (h : m.wf = true) (a : Nat) (bs : List Byte) (p : Bool) :
    (m.store a bs p).wf = true := by
  obtain ⟨hb, hp⟩ := (PoisonMem.wf_iff m).mp h
  exact PoisonMem.foldl_marks (P := fun m => m.wf = true) (fun _ g b h => PoisonMem.mark_wf h g b) _ p _ _
    ((PoisonMem.wf_iff _).mpr ⟨Memory.write_wf hb a bs, hp⟩)

/-- The bytes a store leaves. -/
@[simp] theorem PoisonMem.store_bytes (m : PoisonMem) (a : Nat) (bs : List Byte) (p : Bool) :
    (m.store a bs p).bytes = m.bytes.write a bs :=
  PoisonMem.foldl_marks (P := fun q => q.bytes = m.bytes.write a bs) (fun _ _ _ h => h) _ p _ _ rfl

/-! ## Runs of bytes -/

theorem Memory.bytesFrom_length (m : Memory) (a n : Nat) : (Memory.bytesFrom m a n).length = n := by
  induction n generalizing m a with
  | zero => rfl
  | succ n ih =>
    cases m with
    | nil => simp [Memory.bytesFrom, ih]
    | cons c t => simp only [Memory.bytesFrom]; split <;> simp [ih]

@[simp] theorem Memory.readRange_length (m : Memory) (a n : Nat) : (m.readRange a n).length = n :=
  Memory.bytesFrom_length ..

@[simp] theorem leBytes_length (n v : Nat) : (leBytes n v).length = n := by
  induction n generalizing v with
  | zero => rfl
  | succ n ih => simp [leBytes, ih]

/-- The value of n little-endian bytes (R3). -/
theorem leNat_leBytes (n v : Nat) : leNat (leBytes n v) = v % 256 ^ n := by
  induction n generalizing v with
  | zero => simp [leBytes, leNat, Nat.mod_one]
  | succ n ih =>
    have e : 256 ^ (n + 1) = 256 * 256 ^ n := by rw [Nat.pow_add, Nat.mul_comm]
    rw [leBytes, leNat, ih, BitVec.toNat_ofNat, e, Nat.mod_mul]

/-! ## Global memory -/

/-- Taking over a granule changes bytes of global memory only. -/
theorem State.takeGranule_rest (s : State) (p : PartId) (pa n g : Nat) :
    ∃ b, s.takeGranule p pa n g = { s with gmem := { s.gmem with mem := { s.gmem.mem with bytes := b } } } := by
  unfold State.takeGranule
  repeat' split
  all_goals exact ⟨_, rfl⟩

/-- Making a granule one's own changes bytes and keys of global memory only. -/
theorem State.ownGranule_rest (s : State) (p : PartId) (pa n g : Nat) :
    ∃ b keys, s.ownGranule p pa n g = { s with gmem := ⟨{ s.gmem.mem with bytes := b }, keys⟩ } := by
  obtain ⟨b, e⟩ := s.takeGranule_rest p pa n g
  unfold State.ownGranule State.keyGranule
  rw [e]
  repeat' split
  all_goals exact ⟨_, _, rfl⟩

/-- Making granules one's own keeps the canonical form. -/
theorem State.ownGranule_wf {s : State} (h : s.gmem.mem.wf = true) (p : PartId) (pa n g : Nat) :
    (s.ownGranule p pa n g).gmem.mem.wf = true := by
  have hw := (PoisonMem.wf_iff _).mp h
  have hb : (s.takeGranule p pa n g).gmem.mem.wf = true := by
    unfold State.takeGranule
    repeat' split
    all_goals first
      | exact h
      | exact (PoisonMem.wf_iff _).mpr ⟨Memory.write_wf hw.1 _ _, hw.2⟩
  unfold State.ownGranule State.keyGranule
  repeat' split
  all_goals first
    | exact h
    | exact hb

/-- Nothing but the bytes, the poison and the keys of global memory changes. -/
theorem State.writePhys_rest (s : State) (p : PartId) (pa : Nat) (bs : List Byte) (poison : Bool) :
    ∃ g, s.writePhys p pa bs poison = { s with gmem := g } := by
  have h : ∀ gs : List Nat, ∀ t : State, (∃ g, t = { s with gmem := g }) →
      ∃ g, gs.foldl (fun s g => s.ownGranule p pa bs.length g) t = { s with gmem := g } := by
    intro gs
    induction gs with
    | nil => exact fun t h => h
    | cons a gs ih =>
      rintro t ⟨g, rfl⟩
      obtain ⟨b, keys, e⟩ := State.ownGranule_rest { s with gmem := g } p pa bs.length a
      exact ih _ ⟨_, e⟩
  obtain ⟨g, e⟩ := h (PoisonMem.granules pa bs.length) s ⟨s.gmem, rfl⟩
  exact ⟨_, by unfold State.writePhys; rw [e]⟩

/-- A write of global memory keeps its canonical form. -/
theorem State.writePhys_wf {s : State} (h : s.gmem.mem.wf = true) (p : PartId) (pa : Nat) (bs : List Byte)
    (poison : Bool) : (s.writePhys p pa bs poison).gmem.mem.wf = true := by
  have hs : ∀ gs : List Nat, ∀ t : State, t.gmem.mem.wf = true →
      (gs.foldl (fun s g => s.ownGranule p pa bs.length g) t).gmem.mem.wf = true := by
    intro gs
    induction gs with
    | nil => exact fun t h => h
    | cons a gs ih => exact fun t ht => ih _ (State.ownGranule_wf ht p pa bs.length a)
  exact PoisonMem.store_wf (hs _ s h) pa bs poison

theorem State.reset_memWf : State.reset.memWf = true := by
  have h : State.reset.cores.toList = List.replicate 208 Core.zero := by
    simp [State.reset]
  unfold State.memWf
  rw [h, List.all_replicate]
  rfl

end Sys2Proof.Machine
end

