-- ==== Sys2Proof/Laws/Sparse.lean ====
section
/-! SUPPORT. Sparse tables, and global memory as a partition reads it after it has written (R390, R391). -/

namespace Sys2Proof.Machine

/-! ## Sparse tables -/

theorem Sparse.get?_eq {α : Type} (t : Sparse α) (k : Nat) : t.get? k = (t.find? fun c => c.1 == k).map (·.2) := by
  unfold Sparse.get?
  cases t.find? fun c => c.1 == k <;> rfl

theorem Sparse.find_filter {α : Type} {t : Sparse α} {k : Nat} {p : Nat × α → Bool} (h : ∀ c : Nat × α, c.1 = k → p c = true) :
    (t.filter p).find? (fun c => c.1 == k) = t.find? (fun c => c.1 == k) := by
  rw [List.find?_filter]
  congr 1
  funext c
  by_cases e : c.1 = k
  · simp [e, h c e]
  · simp [e]

theorem Sparse.find_filter_none {α : Type} {t : Sparse α} {k : Nat} {p : Nat × α → Bool}
    (h : ∀ c : Nat × α, c.1 = k → p c = false) : (t.filter p).find? (fun c => c.1 == k) = none := by
  rw [List.find?_eq_none]
  intro c hc e
  have := (List.mem_filter.mp hc).2
  rw [h c (by simpa using e)] at this
  exact Bool.false_ne_true this

theorem Sparse.get?_set {α : Type} (t : Sparse α) (k j : Nat) (v : α) :
    (t.set k v).get? j = if j = k then some v else t.get? j := by
  rw [Sparse.get?_eq, Sparse.set, List.find?_append, List.find?_append]
  by_cases h : j = k
  · subst h
    rw [Sparse.find_filter_none (by simp)]
    simp
  · rw [if_neg h, Sparse.get?_eq]
    have hk : ((k == j) = false) := by simpa using fun e => h e.symm
    rcases Nat.lt_or_gt_of_ne h with h' | h'
    · rw [Sparse.find_filter (by simp; intros; omega), Sparse.find_filter_none (by simp; intros; omega)]
      simp [hk]
    · rw [Sparse.find_filter_none (by simp; intros; omega), Sparse.find_filter (by simp; intros; omega)]
      simp [hk]

theorem Sparse.get?_drop {α : Type} (t : Sparse α) (k j : Nat) :
    (t.drop k).get? j = if j = k then none else t.get? j := by
  rw [Sparse.get?_eq, Sparse.drop]
  by_cases h : j = k
  · subst h
    rw [Sparse.find_filter_none (by simp)]
    simp
  · rw [if_neg h, Sparse.get?_eq, Sparse.find_filter]
    intro c hc
    simp [hc, h]

/-! ## Global memory under keys -/

theorem State.readPhys_getD (s : State) (p : PartId) (a n i : Nat) (h : i < n)
    (hk : s.gmem.keys.isEmpty = false) : (s.readPhys p a n).getD i 0 = s.readByte p (a + i) := by
  unfold State.readPhys
  rw [hk]
  simp [h]

theorem State.readPhys_length (s : State) (p : PartId) (a n : Nat) : (s.readPhys p a n).length = n := by
  unfold State.readPhys
  split <;> simp

/-- The granules of a run. -/
theorem PoisonMem.mem_granules {a n g : Nat} (h : 0 < n) :
    g ∈ PoisonMem.granules a n ↔ a / 64 ≤ g ∧ g ≤ (a + n - 1) / 64 := by
  have hn : (n == 0) = false := by simp; omega
  simp only [PoisonMem.granules, hn, Bool.false_eq_true, if_false, List.mem_map, List.mem_range]
  have hle : a / 64 ≤ (a + n - 1) / 64 := Nat.div_le_div_right (by omega)
  constructor
  · rintro ⟨x, hx, rfl⟩; omega
  · rintro ⟨h1, h2⟩; exact ⟨g - a / 64, by omega, by omega⟩

/-- A granule of the device's own memory that a partition is about to write in part or whole: it becomes the
partition's own, and every byte outside the run reads as before. -/
theorem State.readByte_own (t u : State) (p : PartId) (g y : Nat) (bytes : Memory)
    (hp : u.part p = t.part p) (hb : u.gmem.mem.bytes = bytes)
    (hk : ∀ j, u.gmem.keys.get? j = if j = g then (t.part p).key else t.gmem.keys.get? j)
    (hy : bytes.read y = if y / 64 = g then t.readByte p y else t.gmem.mem.bytes.read y) :
    u.readByte p y = t.readByte p y := by
  have key : u.keyOf p = t.keyOf p := by simp only [State.keyOf, hp]
  simp only [State.readByte, hk, hb, hy, key]
  by_cases h : y / 64 = g
  · simp only [h, if_true]
    cases hkk : (t.part p).key with
    | none => rfl
    | some k => simp [State.keyOf, hkk]
  · simp only [h, if_false]

/-- The bytes of a granule stored under another key and written in part become what the partition reads there. -/
theorem State.takeGranule_read (t : State) (p : PartId) (pa n g : Nat) :
    ∃ b, t.takeGranule p pa n g = { t with gmem := { t.gmem with mem := { t.gmem.mem with bytes := b } } } ∧
    ∀ y, ¬ (pa ≤ y ∧ y < pa + n) →
      b.read y = if y / 64 = g then t.readByte p y else t.gmem.mem.bytes.read y := by
  unfold State.takeGranule
  cases hg : t.gmem.keys.get? g with
  | none => exact ⟨_, rfl, fun y _ => by split <;> simp_all [State.readByte]⟩
  | some k =>
    dsimp only
    split
    · next h =>
      refine ⟨_, rfl, fun y hy => ?_⟩
      split
      · next hyg =>
        rcases Bool.or_eq_true_iff.mp h with h | h
        · simp [State.readByte, hyg, hg, h]
        · simp [PoisonMem.covers] at h; omega
      · rfl
    · refine ⟨_, rfl, fun y _ => ?_⟩
      rw [Memory.read_write, State.readPhys_length]
      by_cases hyg : y / 64 = g
      · have hk : t.gmem.keys.isEmpty = false := by
          cases hkk : t.gmem.keys with
          | nil => rw [hkk] at hg; exact absurd hg (by simp [Sparse.get?])
          | cons _ _ => rfl
        rw [if_pos (by omega), if_pos hyg, State.readPhys_getD _ _ _ _ _ (by omega) hk]
        congr 1; omega
      · rw [if_neg (by omega), if_neg hyg]

/-- A granule a partition makes its own carries its key from then on. -/
theorem State.keyGranule_eq (s : State) (p : PartId) (g : Nat) :
    ∃ keys, s.keyGranule p g = { s with gmem := ⟨s.gmem.mem, keys⟩ } ∧
      ∀ j, Sparse.get? keys j = if j = g then (s.part p).key else s.gmem.keys.get? j := by
  unfold State.keyGranule
  cases (s.part p).key with
  | some k => exact ⟨_, rfl, fun j => Sparse.get?_set ..⟩
  | none => exact ⟨_, rfl, fun j => Sparse.get?_drop ..⟩

/-- A byte of the device's own memory after a partition has written: its data inside the run, and outside it what the
partition read there before. -/
theorem State.readByte_writePhys (s : State) (p : PartId) (pa : Nat) (bs : List Byte) (poison : Bool)
    (hd : ∀ g ∈ PoisonMem.granules pa bs.length, inDram (64 * g) = true) (x : Nat) :
    (s.writePhys p pa bs poison).readByte p x =
      if pa ≤ x ∧ x < pa + bs.length then bs.getD (x - pa) 0 else s.readByte p x := by
  let own := fun (s : State) (g : Nat) => s.ownGranule p pa bs.length g
  let P : List Nat → State → Prop := fun done t =>
    t.part p = s.part p ∧
    (∀ y, ¬ (pa ≤ y ∧ y < pa + bs.length) → t.readByte p y = s.readByte p y) ∧
    (∀ g ∈ done, t.gmem.keys.get? g = (s.part p).key)
  have hs : ∀ gs done : List Nat, ∀ t : State, (∀ g ∈ gs, inDram (64 * g) = true) → P done t →
      P (done ++ gs) (gs.foldl own t) := by
    intro gs
    induction gs with
    | nil => intro done t _ h; simpa using h
    | cons g gs ih =>
      intro done t hg h
      have hstep : P (done ++ [g]) (t.ownGranule p pa bs.length g) := by
        obtain ⟨hp, hr, hk⟩ := h
        have hin := hg g (by simp)
        obtain ⟨b, keys, e, hkeys, hbytes⟩ : ∃ b keys,
            t.ownGranule p pa bs.length g = { t with gmem := ⟨{ t.gmem.mem with bytes := b }, keys⟩ } ∧
            (∀ j, Sparse.get? keys j = if j = g then (t.part p).key else t.gmem.keys.get? j) ∧
            ∀ y, ¬ (pa ≤ y ∧ y < pa + bs.length) →
              b.read y = if y / 64 = g then t.readByte p y else t.gmem.mem.bytes.read y := by
          obtain ⟨b, e, hb⟩ := t.takeGranule_read p pa bs.length g
          obtain ⟨keys, ek, hk⟩ := (t.takeGranule p pa bs.length g).keyGranule_eq p g
          refine ⟨b, keys, ?_, ?_, hb⟩
          · rw [State.ownGranule, if_pos hin, ek, e]
          · rw [e] at hk; exact hk
        rw [e]
        refine ⟨hp, fun y hy => ?_, fun j hj => ?_⟩
        · rw [← hr y hy]
          exact State.readByte_own t _ p g y b rfl rfl hkeys (hbytes y hy)
        · show Sparse.get? keys j = _
          rw [hkeys, hp]
          split
          · rfl
          · next hn =>
            rcases List.mem_append.mp hj with hj | hj
            · exact hk j hj
            · exact absurd (List.mem_singleton.mp hj) hn
      have := ih (done ++ [g]) _ (fun x hx => hg x (by simp [hx])) hstep
      simpa using this
  obtain ⟨hp, hr, hk⟩ := hs (PoisonMem.granules pa bs.length) [] s hd ⟨rfl, fun _ _ => rfl, by simp⟩
  let s' := (PoisonMem.granules pa bs.length).foldl own s
  change State.readByte { s' with gmem := { s'.gmem with mem := s'.gmem.mem.store pa bs poison } } p x = _
  have hread : ∀ y, State.readByte { s' with gmem := { s'.gmem with mem := s'.gmem.mem.store pa bs poison } } p y =
      match s'.gmem.keys.get? (y / 64) with
      | some k => if k == s'.keyOf p then (s'.gmem.mem.bytes.write pa bs).read y
          else Config.foreignByte k (s'.keyOf p) y ((s'.gmem.mem.bytes.write pa bs).read y)
      | none => (s'.gmem.mem.bytes.write pa bs).read y := fun y => by
    simp only [State.readByte, PoisonMem.store_bytes]; rfl
  rw [hread, Memory.read_write]
  by_cases h : pa ≤ x ∧ x < pa + bs.length
  · have hg : x / 64 ∈ PoisonMem.granules pa bs.length :=
      (PoisonMem.mem_granules (by omega)).mpr ⟨Nat.div_le_div_right h.1, Nat.div_le_div_right (by omega)⟩
    have hk' : s'.gmem.keys.get? (x / 64) = (s.part p).key := hk _ (by simpa using hg)
    have hp' : s'.part p = s.part p := hp
    rw [hk', if_pos h, if_pos h]
    cases hkk : (s.part p).key with
    | none => rfl
    | some k => simp only [State.keyOf, hp', hkk, Option.getD_some, beq_self_eq_true, if_true]
  · rw [if_neg h, if_neg h, ← hr x h]
    simp only [State.readByte]
    rfl

end Sys2Proof.Machine
end

