-- ==== Sys2Proof/Tests/Slice0.lean ====
section
/-! SUPPORT. Small tests: words of the spec decoded, ill-formed terms refused, single steps with results taken from the spec, and
a witness for the hypotheses of each statement. -/

open Sys2Proof Sys2Proof.Machine

section SmallTests

set_option Elab.async false

/-! ## Ill-formed terms: each check of WellFormed refuses one -/

theorem test_wf_loop : (Instr.loop .always 0 0 false 0).wf = false := by decide +kernel
theorem test_wf_tldp : (Instr.tldp .always ⟨0, 0⟩ 3 true 0 0 0).wf = false := by decide +kernel
theorem test_wf_tstp : (Instr.tstp .always ⟨0, .any⟩ 2 (some ⟨1, .any⟩) 0 0 0).wf = false := by decide +kernel
theorem test_wf_arith_rounding : (Instr.vadd .always ⟨0, 0⟩ ⟨0, .any⟩ ⟨0, .any⟩ .i8 .rne false none).wf = false := by
  decide +kernel
theorem test_wf_arith_type : (Instr.vfma .always ⟨0, 0⟩ ⟨0, .any⟩ ⟨0, .any⟩ ⟨0, .any⟩ .bf16 .rmode false none).wf = false := by
  decide +kernel
theorem test_wf_vmin : (Instr.vmin .always ⟨0, 0⟩ ⟨0, .any⟩ ⟨0, .any⟩ .nf24 none).wf = false := by decide +kernel
theorem test_wf_vabs_sat : (Instr.vabs .always ⟨0, 0⟩ ⟨0, .any⟩ .fp32 true none).wf = false := by decide +kernel
theorem test_wf_vdiv : (Instr.vdiv .always ⟨0, 0⟩ ⟨0, .any⟩ ⟨0, .any⟩ .i32 .rmode false none).wf = false := by decide +kernel
theorem test_wf_vrcp : (Instr.vrcp .always ⟨0, 0⟩ ⟨0, .any⟩ .nf8 false none).wf = false := by decide +kernel
theorem test_wf_vand : (Instr.vand .always ⟨0, 0⟩ ⟨0, .any⟩ ⟨0, .any⟩ .fp32 none).wf = false := by decide +kernel
theorem test_wf_vcmp : (Instr.vcmp .always ⟨0, 0⟩ ⟨0, .any⟩ ⟨0, .any⟩ .eq .e8m0 none).wf = false := by decide +kernel
theorem test_wf_vsel : (Instr.vsel .always ⟨0, 0⟩ ⟨0, .any⟩ ⟨0, .any⟩ ⟨0, .any⟩ .i4 none).wf = false := by decide +kernel
theorem test_wf_vcvt_pair : (Instr.vcvt .always ⟨0, 0⟩ ⟨0, .any⟩ .fp32 .fp32 .rmode false 0 none).wf = false := by decide +kernel
theorem test_wf_vcvt_part : (Instr.vcvt .always ⟨0, 0⟩ ⟨0, .any⟩ .fp32 .nf8 .rne false 4 none).wf = false := by decide +kernel
theorem test_wf_vred_add : (Instr.vred .always ⟨0, 0⟩ ⟨0, .any⟩ .add false .i8 .rz false none).wf = false := by decide +kernel
theorem test_wf_vred_min : (Instr.vred .always ⟨0, 0⟩ ⟨0, .any⟩ .min false .fp32 .rne false none).wf = false := by decide +kernel
theorem test_wf_vscan_xor : (Instr.vscan .always ⟨0, 0⟩ ⟨0, .any⟩ .xor false .fp32 .rmode false none).wf = false := by
  decide +kernel
theorem test_wf_vpxor : (Instr.vpxor .always ⟨0, 0⟩ ⟨0, .any⟩ false .i8 none).wf = false := by decide +kernel
theorem test_wf_vpopc : (Instr.vpopc .always ⟨0, 0⟩ ⟨0, .any⟩ .fp64 none).wf = false := by decide +kernel
theorem test_wf_vperm : (Instr.vperm .always ⟨0, 0⟩ ⟨0, .any⟩ ⟨0, .any⟩ .u4 none).wf = false := by decide +kernel
theorem test_wf_wlatch_planes : (Instr.wlatch .always ⟨0, 0⟩ ⟨0, .any⟩ 0 0 .int8 1 false).wf = false := by decide +kernel
theorem test_wf_wlatch_rn : (Instr.wlatch .always ⟨0, 0⟩ ⟨0, .any⟩ 0 0 .nf 3 true).wf = false := by decide +kernel
theorem test_wf_mma_scale : (Instr.mma .always ⟨0, 0⟩ ⟨0, .any⟩ none (some ⟨0, .any⟩) .i8 0 0 none false).wf = false := by
  decide +kernel
theorem test_wf_mma_band : (Instr.mma .always ⟨0, 0⟩ ⟨0, .any⟩ none none .fp64 2 0 none false).wf = false := by decide +kernel
theorem test_wf_mma_type : (Instr.mma .always ⟨0, 0⟩ ⟨0, .any⟩ none none .bf16 0 0 none false).wf = false := by decide +kernel
theorem test_wf_aadd : (Instr.aadd .always ⟨0, 0⟩ ⟨0, .any⟩ ⟨0, .any⟩ .nf32 .rmode false).wf = false := by decide +kernel
theorem test_wf_orient2 : (Instr.orient2 .always ⟨0, 0⟩ ⟨127, .any⟩ ⟨0, .any⟩ ⟨0, .any⟩).wf = false := by decide +kernel
theorem test_wf_orient3 : (Instr.orient3 .always ⟨0, 0⟩ ⟨0, .any⟩ ⟨126, .any⟩ ⟨0, .any⟩ ⟨0, .any⟩).wf = false := by decide +kernel
theorem test_wf_insph : (Instr.insph .always ⟨0, 0⟩ ⟨0, .any⟩ ⟨0, .any⟩ ⟨0, .any⟩ ⟨123, .any⟩).wf = false := by decide +kernel
theorem test_wf_nrnd_type : (Instr.nrnd .always ⟨0, 0⟩ ⟨0, .any⟩ .rnd .fp32 .rmode false none).wf = false := by decide +kernel
theorem test_wf_nrnd_trunc : (Instr.nrnd .always ⟨0, 0⟩ ⟨0, .any⟩ .trunc .nf8 .rne false none).wf = false := by decide +kernel
theorem test_wf_nmom : (Instr.nmom .always ⟨0, 0⟩ ⟨0, .any⟩ ⟨0, .any⟩ 0 .nf16 .rmode false none).wf = false := by decide +kernel
theorem test_wf_nupd : (Instr.nupd .always ⟨0, 0⟩ ⟨0, .any⟩ ⟨0, .any⟩ 0 .nf8 0).wf = false := by decide +kernel
theorem test_wf_fence : (Instr.fence .always .plain).wf = false := by decide +kernel

/-! ## Decoding: words of the spec's examples, and words packed by hand from the bit tables of spec/04 -/

/-- From spec/06. -/
theorem test_decode_addi : decodeBytes [0xBF, 0x59, 0x02, 0x29, 0x80, 0xFF, 0xFF, 0xFF, 0xFF, 0xFF, 0xF8, 0x00] =
    some (.addi .always 5 6 0xFFFFFFFFFFF8, 12) := by decide +kernel

/-- From spec/06. -/
theorem test_decode_cmp : decodeBytes [0x80, 0x5D, 0x03, 0x06, 0x11, 0x0A] =
    some (.cmpLtu .always 2 4 5, 6) := by decide +kernel

/-- From spec/06. -/
theorem test_decode_loop : decodeBytes [0xFF, 0x5D, 0x05, 0x04, 0x18, 0x01, 0x40, 0xFF, 0xFF, 0xFF, 0xFF, 0xFF, 0xE8, 0x00] =
    some (.loop .always 3 2 true 0xFFFFFFFFFFE8, 14) := by decide +kernel

/-- From spec/05. -/
theorem test_decode_br : decodeBytes [0x3F, 0x5A, 0x05, 0x90, 0xFF, 0xFF, 0xFF, 0xFF, 0xFF, 0xF0] =
    some (.br (.on false 2) 0xFFFFFFFFFFF0, 10) := by decide +kernel

/-- From spec/18. -/
theorem test_decode_dpt : decodeBytes [0xC0, 0x5D, 0x05, 0x05, 0x02, 0x80, 0x0B, 0x00] =
    some (.dpt 10 11, 8) := by decide +kernel

/-- From spec/05. -/
theorem test_decode_fork : decodeBytes [0x00, 0x5C, 0x05, 0x06] =
    some (.fork, 4) := by decide +kernel

/-- From spec/05. -/
theorem test_decode_join : decodeBytes [0x00, 0x5C, 0x05, 0x07] =
    some (.join, 4) := by decide +kernel

/-- From spec/05. -/
theorem test_decode_end : decodeBytes [0x00, 0x5C, 0x05, 0x08] =
    some (.endStream, 4) := by decide +kernel

/-- From spec/18. -/
theorem test_decode_cwait : decodeBytes [0xE0, 0x5E, 0x04, 0x05, 0xC8, 0x0A, 0x10, 0x80] =
    some (.cwait (.on true 1) (.tile 20) 1 1, 8) := by decide +kernel

/-- From spec/05. -/
theorem test_decode_tld : decodeBytes [0xC1, 0x59, 0x20, 0x14, 0x80, 0x50, 0x40, 0x00] =
    some (.tld .always ⟨10, 2⟩ 5 0 0x40, 8) := by decide +kernel

/-- From spec/09. -/
theorem test_decode_tldp : decodeBytes [0xCA, 0x5D, 0x20, 0x01, 0x18, 0x40, 0x50, 0x10, 0x02, 0x00] =
    some (.tldp .always ⟨12, 1⟩ 1 false 5 0 0x200, 10) := by decide +kernel

/-- From spec/09. -/
theorem test_decode_tstp : decodeBytes [0xF8, 0x5D, 0x21, 0x01, 0x50, 0x82, 0x70, 0x29, 0x41, 0x31] =
    some (.tstp .always ⟨40, .at 2 1⟩ 3 (some ⟨41, .at 2 1⟩) 7 0 0, 10) := by decide +kernel

/-- From spec/09. -/
theorem test_decode_lookup : decodeBytes [0x40, 0x59, 0x24, 0x40, 0x50, 0x00] =
    some (.lookup .always 8 5 0, 6) := by decide +kernel

/-- From spec/04. -/
theorem test_decode_vadd : decodeBytes [0xB2, 0x59, 0x40, 0x28, 0x85, 0x8B, 0x01, 0xC2] =
    some (.vadd .always ⟨20, 2⟩ ⟨10, .at 0 1⟩ ⟨11, .at 0 1⟩ .nf16 .rne false none, 8) := by decide +kernel

/-- From spec/07. -/
theorem test_decode_vcmpb : decodeBytes [0xB2, 0x5D, 0x43, 0x01, 0x3E, 0x8F, 0x9D, 0x20, 0x40, 0x00] =
    some (.vcmpb .always ⟨31, 2⟩ ⟨30, .at 0 1⟩ ⟨29, .at 1 0⟩ .eq none, 10) := by decide +kernel

/-- From spec/07. -/
theorem test_decode_vcvt : decodeBytes [0x87, 0x59, 0x44, 0x0A, 0x42, 0x1E, 0xB2, 0x02] =
    some (.vcvt .always ⟨5, 1⟩ ⟨4, .at 0 0⟩ .fp32 .nf8 .rne false 2 none, 8) := by decide +kernel

/-- From spec/15. -/
theorem test_decode_wlatch : decodeBytes [0xE1, 0x59, 0x80, 0x0E, 0x02, 0x80, 0x80, 0x9A] =
    some (.wlatch .always ⟨7, 0⟩ ⟨5, .at 0 1⟩ 0 1 .nf 1 false, 8) := by decide +kernel

/-- From spec/08. -/
theorem test_decode_mma : decodeBytes [0xB3, 0x5D, 0x80, 0x02, 0x04, 0x45, 0x82, 0x20, 0xC5, 0x02] =
    some (.mma .always ⟨2, 1⟩ ⟨10, .at 0 1⟩ (some ⟨2, .at 1 0⟩) none .nf16 1 1 none true, 10) := by decide +kernel

/-- From spec/08. -/
theorem test_decode_ngo : decodeBytes [0xA0, 0x5F, 0x81, 0x02, 0x02, 0x0A, 0x40, 0x01] =
    some (.ngo .always ⟨5, 1⟩ (.rel .gang), 8) := by decide +kernel

/-- From spec/05. -/
theorem test_decode_orient2 : decodeBytes [0xFC, 0x59, 0xA0, 0x78, 0x54, 0x10, 0x2A, 0x20, 0x58, 0x42] =
    some (.orient2 .always ⟨60, 1⟩ ⟨40, .at 1 0⟩ ⟨42, .at 1 0⟩ ⟨44, .at 1 1⟩, 10) := by decide +kernel

/-- From spec/11. -/
theorem test_decode_insph : decodeBytes [0xFE, 0x5D, 0xA0, 0x03, 0xB4, 0x9E, 0x20, 0x3F, 0x40, 0x84, 0x81, 0x15] =
    some (.insph .always ⟨90, 2⟩ ⟨60, .at 2 0⟩ ⟨63, .at 2 0⟩ ⟨66, .at 2 0⟩ ⟨69, .at 2 0⟩, 12) := by decide +kernel

/-- From spec/09. -/
theorem test_decode_nupd : decodeBytes [0xBB, 0x5D, 0xB0, 0x04, 0x50, 0x4F, 0x9F, 0x01, 0x0C, 0xF0, 0x02, 0x00] =
    some (.nupd .always ⟨40, 1⟩ ⟨30, .at 0 1⟩ ⟨31, .at 0 1⟩ 6 .fp32 2, 12) := by decide +kernel

/-- From spec/04. -/
theorem test_decode_pcopy : decodeBytes [0xE0, 0x5B, 0xC0, 0x02, 0x08, 0x4A, 0x63, 0x81] =
    some (.pcopy .always ⟨4, 1⟩ (.rel .gang) 5 6 7 0, 8) := by decide +kernel

/-- From spec/13. -/
theorem test_decode_pfill : decodeBytes [0xA1, 0x5D, 0xC0, 0x03, 0x02, 0x4A, 0x80, 0x03] =
    some (.pfill .always ⟨1, 1⟩ .plain 5 0 1 3, 8) := by decide +kernel

/-- From spec/15. -/
theorem test_decode_pwld : decodeBytes [0xE1, 0x5D, 0xC0, 0x04, 0x0A, 0x98, 0x62, 0x1C, 0x01, 0x00] =
    some (.pwld .always ⟨5, 2⟩ .plain 12 6 4 (some 7), 10) := by decide +kernel

/-- From spec/16. -/
theorem test_decode_semadd : decodeBytes [0xE0, 0x5A, 0xC1, 0xCA, 0x12, 0xD0, 0x01, 0x00] =
    some (.semadd (.on true 1) (.rel .gang) 0 9 13, 8) := by decide +kernel

/-- From spec/10. -/
theorem test_decode_semwt : decodeBytes [0xE1, 0x5E, 0xC1, 0x05, 0x01, 0x08, 0x50, 0x25, 0x03, 0x00] =
    some (.semwt .always (.acq .gang) 9 4 5 .geu, 10) := by decide +kernel

/-- From spec/10. -/
theorem test_decode_fence : decodeBytes [0x20, 0x5A, 0xC2, 0x03, 0x02, 0x00] =
    some (.fence .always (.ar .pkg), 6) := by decide +kernel

/-- From spec/10. -/
theorem test_decode_bar : decodeBytes [0x20, 0x5E, 0xC2, 0x01, 0x03, 0x01] =
    some (.bar .always true .gang, 6) := by decide +kernel

/-- From spec/14. -/
theorem test_decode_csrw : decodeBytes [0x80, 0x5D, 0xE0, 0x05, 0x05, 0x01] =
    some (.csrw .always .uhvec 20, 6) := by decide +kernel

/-- From spec/06. -/
theorem test_decode_resume : decodeBytes [0x01, 0x5C, 0xE0, 0x03, 0x01, 0x00] =
    some (.resumeRetry .always .exec 0, 6) := by decide +kernel

/-- Packed by hand from spec/04 R80 to R97. -/
theorem test_decode_add : decodeBytes [0x80, 0x59, 0x01, 0x08, 0x86, 0x00] =
    some (.add .always 1 2 3, 6) := by decide +kernel

/-- Packed by hand from spec/04 R80 to R97. -/
theorem test_decode_kset : decodeBytes [0x01, 0x59, 0x04, 0x08, 0x05, 0x00] =
    some (.kset .always 1 5, 6) := by decide +kernel

/-- Packed by hand from spec/04 R80 to R97. -/
theorem test_decode_lds : decodeBytes [0x41, 0x5D, 0x22, 0x03, 0x30, 0x50, 0x10, 0x00] =
    some (.ldsU64 .always 6 5 0x10, 8) := by decide +kernel

/-- Packed by hand from spec/04 R80 to R97. -/
theorem test_decode_sts : decodeBytes [0x41, 0x5D, 0x23, 0x02, 0x38, 0x50, 0x04, 0x00] =
    some (.stsU32 .always 7 5 4, 8) := by decide +kernel

/-- Packed by hand from spec/04 R80 to R97. -/
theorem test_decode_vrcp : decodeBytes [0xC2, 0x59, 0x41, 0x0A, 0x43, 0x70, 0xF0, 0x00] =
    some (.vrcp .always ⟨5, 1⟩ ⟨6, .any⟩ .fp32 false none, 8) := by decide +kernel

/-- Packed by hand from spec/04 R80 to R97. -/
theorem test_decode_vand : decodeBytes [0xF2, 0x59, 0x42, 0x0A, 0x43, 0x70, 0x07, 0x5F, 0xA0, 0x00] =
    some (.vand .always ⟨5, 1⟩ ⟨6, .any⟩ ⟨7, .at 2 31⟩ .u64 none, 10) := by decide +kernel

/-- Packed by hand from spec/04 R80 to R97. -/
theorem test_decode_vpopc : decodeBytes [0xE2, 0x5D, 0x45, 0x04, 0x0A, 0x43, 0x20, 0x80, 0x60, 0x00] =
    some (.vpopc .always ⟨5, 1⟩ ⟨6, .at 2 1⟩ .u16 none, 10) := by decide +kernel

/-- Packed by hand from spec/04 R80 to R97. -/
theorem test_decode_vperm : decodeBytes [0xF3, 0x59, 0x46, 0x0B, 0xC3, 0x70, 0x07, 0xE0, 0x40, 0xB0] =
    some (.vperm .always ⟨5, 7⟩ ⟨6, .any⟩ ⟨7, .any⟩ .u8 (some 3), 10) := by decide +kernel

/-! ## States of the witnesses and steps -/

/-- Core 0 with a stream at the start of the local window, about to perform an instruction of 4 bytes. -/
def Test.at (x : StreamId) (f : Core → Core) : State :=
  { State.reset.modCore 0 fun k => (f k).modStream x fun (v : Stream) =>
      { v with st := .running, pc := 0x7FFFFFC000000, len := 4 } with cur := (0, x) }

/-- Core 0 after a change. -/
def Test.core (f : Core → Core) : State := State.reset.modCore 0 f

/-- Scalars s1 to s4 of a stream: 7, −2 (as a word), −2^63 and −1. -/
def Test.scalars (v : Stream) : Stream :=
  { v with s := (((v.s.set 1 7).set 2 0xFFFFFFFFFFFFFFFE).set 3 0x8000000000000000).set 4 0xFFFFFFFFFFFFFFFF }

def Test.exec1 : State := Test.at .exec fun k => { k with exec := Test.scalars k.exec }

/-- What an outcome's state satisfies; a stop satisfies nothing. -/
def Test.next (o : Out) (p : State → Bool) : Bool :=
  match o with
  | .next s => p s
  | _ => false

/-! ## Witnesses: encoding, fetch, decode and the step -/

theorem witness_DecodeEncode :
    (Instr.loop .always 3 2 true 0xFFFFFFFFFFE8).wf = true ∧ (encode (.loop .always 3 2 true 0xFFFFFFFFFFE8)).isSome = true := by
  decide +kernel

/-- `add s1, s2, s3` at the start of core 0's cistern, LOAD about to issue it. -/
def Test.program : State := State.reset.withProgram [0x80, 0x59, 0x01, 0x08, 0x86, 0x00]

theorem witness_StepRunsDecoded_issue :
    Test.program.sched = [(0, .issue 0 .load false)] ∧ Test.program.power.stopped = false ∧
    Spec.ready ({ Test.program with sched := [] }.pass 0) 0 .load ∧
    Spec.codeAt ({ Test.program with sched := [] }.pass 0) 0 .load (({ Test.program with sched := [] }.pass 0).stream 0 .load).pc
      [0x80, 0x59, 0x01, 0x08, 0x86, 0x00] ∧
    decodeBytes [0x80, 0x59, 0x01, 0x08, 0x86, 0x00] = some (.add .always 1 2 3, 6) ∧
    StreamId.load ∈ wordStreams (unpack (headerOf [0x80, 0x59, 0x01, 0x08, 0x86, 0x00]) [0x01, 0x08, 0x86, 0x00]) := by
  unfold Spec.ready Spec.codeAt
  decide +kernel

theorem witness_StepRunsDecoded_event : encode (.joinComplete 0) = none := by decide +kernel

/-- Bytes at the start of core 0's cistern, with a stream about to fetch them. -/
def Test.code (x : StreamId) (bs : List Byte) : State :=
  State.reset.modCore 0 fun k => { k with cistern := k.cistern.store 0 bs false }.modStream x fun (v : Stream) =>
    { v with st := .running, pc := 0x7FFFFFC000000 }

theorem witness_DecodeFaults_prefix :
    Spec.ready (Test.code .load [0x80, 0x49]) 0 .load ∧
    Spec.codeAt (Test.code .load [0x80, 0x49]) 0 .load 0x7FFFFFC000000 [0x80, 0x49] ∧ prefixOk (headerOf [0x80, 0x49]) = false := by
  unfold Spec.ready Spec.codeAt
  decide +kernel

theorem witness_DecodeFaults_pad :
    let bs : List Byte := [0x00, 0x58, 0x05, 0x00, 0x00]
    let odd : List Byte := [0x01, 0x50, 0x00, 0x01]
    bs.length = 5 ∧ Spec.ready (Test.code .load odd) 0 .load ∧ Spec.codeAt (Test.code .load odd) 0 .load 0x7FFFFFC000000 odd ∧
    odd.length = roundedLen (headerOf odd) ∧ prefixOk (headerOf odd) = true ∧ padOk (headerOf odd) (odd.drop 2) = false := by
  unfold Spec.ready Spec.codeAt
  decide +kernel

theorem witness_DecodeFaults_opcode :
    let bs : List Byte := [0x00, 0x58, 0xFF, 0x00]
    Spec.ready (Test.code .load bs) 0 .load ∧ Spec.codeAt (Test.code .load bs) 0 .load 0x7FFFFFC000000 bs ∧
    bs.length = roundedLen (headerOf bs) ∧ prefixOk (headerOf bs) = true ∧ padOk (headerOf bs) (bs.drop 2) = true ∧
    (opRow (Head.ofWord (unpack (headerOf bs) (bs.drop 2))).maj (Head.ofWord (unpack (headerOf bs) (bs.drop 2))).min).isNone := by
  unfold Spec.ready Spec.codeAt
  decide +kernel

/-- A tile load in EXEC. -/
theorem witness_DecodeFaults_stream :
    let bs : List Byte := [0xC1, 0x59, 0x20, 0x14, 0x80, 0x50, 0x40, 0x00]
    Spec.ready (Test.code .exec bs) 0 .exec ∧ Spec.codeAt (Test.code .exec bs) 0 .exec 0x7FFFFFC000000 bs ∧
    bs.length = roundedLen (headerOf bs) ∧ prefixOk (headerOf bs) = true ∧ padOk (headerOf bs) (bs.drop 2) = true ∧
    (opRow 0x20 0x00).any (fun r => !r.streams.contains .exec) = true := by
  unfold Spec.ready Spec.codeAt
  decide +kernel

/-- FORK with a field that must be zero. -/
theorem witness_DecodeFaults_reserved :
    let bs : List Byte := [0x01, 0x5C, 0x05, 0x06, 0x01, 0x00]
    Spec.ready (Test.code .ctrl bs) 0 .ctrl ∧ Spec.codeAt (Test.code .ctrl bs) 0 .ctrl 0x7FFFFFC000000 bs ∧
    bs.length = roundedLen (headerOf bs) ∧ prefixOk (headerOf bs) = true ∧ padOk (headerOf bs) (bs.drop 2) = true ∧
    (opRow 0x05 0x06).any (fun r => r.streams.contains .ctrl && (r.decode (unpack (headerOf bs) (bs.drop 2))).isNone) = true := by
  unfold Spec.ready Spec.codeAt
  decide +kernel

/-- The last two bytes of the cistern's window, with a header that asks for a third. -/
def Test.edge : State :=
  State.reset.modCore 0 fun k => { k with cistern := k.cistern.store 0x1FFFFE [0x01, 0x50] false }.modStream .load
    fun (v : Stream) => { v with st := .running, pc := 0x7FFFFFC1FFFFE }

theorem witness_DecodeFaults_fetch :
    Spec.ready Test.edge 0 .load ∧ Spec.codeAt Test.edge 0 .load 0x7FFFFFC1FFFFE [0x01, 0x50] ∧
    prefixOk (headerOf [0x01, 0x50]) = true ∧ 2 < roundedLen (headerOf [0x01, 0x50]) ∧
    Test.edge.fetchByte 0 .load (Spec.codeSeen Test.edge 0 0x7FFFFFC1FFFFE) 0x7FFFFFC200000 = .fault 0x26 := by
  unfold Spec.ready Spec.codeAt
  decide +kernel

theorem witness_EveryMoveAnswers :
    ({ Test.program with power := { Test.program.power with stopped := true } }.sched).length = 1 ∧
    Test.program.power.stopped = false := by
  decide +kernel

theorem witness_WatchdogInvariant : Test.next (step Test.program) (fun _ => true) = true := by decide +kernel

theorem witness_GatedCoreStandsStill : ((Test.core fun k => { k with gated := true }).core 0).gated = true := by decide +kernel

/-! ## Witnesses and steps: scalar instructions -/

theorem witness_ScalarResult :
    Spec.scalar Test.exec1 (.add .always 5 1 2) = some (.always, 5, 5) ∧
    Spec.scalar Test.exec1 (.mulhu .always 0 2 2) = some (.always, 0, 0xFFFFFFFFFFFFFFFC) ∧ Test.exec1.guard .always = true := by
  decide +kernel

theorem witness_Divisions_result :
    Spec.division Test.exec1 (.div .always 5 3 4) = some (.always, 5, 0xFFFFFFFFFFFFFFFF, 0x8000000000000000) ∧
    Spec.division Test.exec1 (.rem .always 5 2 1) = some (.always, 5, 7, 0xFFFFFFFFFFFFFFFE) := by
  decide +kernel

theorem witness_Divisions_zero : (Spec.division Test.exec1 (.div .always 5 3 0)).any (fun r => r.2.2.1 == 0) = true := by
  decide +kernel

theorem witness_PredicateAndBase :
    Spec.predicate Test.exec1 (.cmpLt .always 3 2 1) = some (.always, 3, true) ∧
    Spec.base Test.exec1 (.kadd .always 2 0 0xFFFF) = some (.always, 2, 0xFFFF) := by
  decide +kernel

theorem witness_GuardFalseDoesNothing :
    Spec.plainGuard (.add (.on true 0) 1 2 3) = some (.on true 0) ∧ Test.exec1.guard (.on true 0) = false := by
  decide +kernel

/-- R120: −2^63 by −1 gives −2^63. -/
theorem test_div_corner : Test.next (exec (.div .always 5 3 4) Test.exec1) (fun t => t.rs 5 == 0x8000000000000000) = true := by
  decide +kernel

/-- Table 6.1: SAR keeps the sign; the distance is taken mod 64. -/
theorem test_sar : Test.next (exec (.sar .always 5 2 1) Test.exec1) (fun t => t.rs 5 == 0xFFFFFFFFFFFFFFFF) = true := by
  decide +kernel

/-- R117: a write of s0 is discarded. -/
theorem test_write_s0 : Test.next (exec (.addi .always 0 1 5) Test.exec1) (fun t => t.rs 0 == 0) = true := by decide +kernel

/-! ## Witnesses: counts -/

/-- Core 0 with tile t3 in a count state and EXEC at an instruction. -/
def Test.counted (n : Count) : State := Test.at .exec fun k => k.setCnt (.tile 3) n

theorem witness_CountInstructions_cadv_writes :
    (Test.counted ⟨9, 0, false, false, false⟩).curStream.stores = [] ∧
    (((Test.counted ⟨9, 0, false, false, false⟩).curCore.cnt (.tile 3)).p = 0 ∧
      ((Test.counted ⟨9, 0, false, false, false⟩).curCore.cnt (.tile 3)).bad = false) := by
  decide +kernel

theorem witness_CountInstructions_cadv_waits :
    ((Test.counted ⟨9, 1, false, false, false⟩).curCore.cnt (.tile 3)).p ≠ 0 ∧
    ((Test.counted ⟨9, 1, false, false, false⟩).curCore.cnt (.tile 3)).opn = false := by
  decide +kernel

theorem witness_CountInstructions_cwait :
    let e (s : State) : BitVec 16 := s.rk 0 + (9 : BitVec 5).signExtend 16
    let at9 (n : Count) := ((Test.counted n).curCore.cnt (.tile 3)).c = e (Test.counted n)
    at9 ⟨9, 0, true, false, false⟩ ∧ at9 ⟨9, 1, false, false, false⟩ ∧ at9 ⟨9, 0, false, false, false⟩ ∧
    ((10 : BitVec 16) - e Test.exec1).toNat = 1 ∧ ((0x8008 : BitVec 16) - e Test.exec1).toNat = 0x7FFF ∧
    ((0x8009 : BitVec 16) - e Test.exec1).toNat = 0x8000 := by
  decide +kernel

/-- R126, R35: a reader too many raises READER_OVERRUN (0x11), which stops the stream. -/
theorem test_cwait_overrun : Test.next (exec (.cwait .always (.tile 3) 0 9) (Test.counted ⟨9, 0, false, false, false⟩))
    (fun t => t.curStream.st == .stopped) = true := by
  decide +kernel

/-- R126: the last reader takes P from 1 to 0. -/
theorem test_cwait_debits : Test.next (exec (.cwait .always (.tile 3) 0 9) (Test.counted ⟨9, 1, false, false, false⟩))
    (fun t => (t.curCore.cnt (.tile 3)).p == 0 && t.pc == 0x7FFFFFC000004) = true := by
  decide +kernel

/-! ## Witnesses: branches, drain points and task control -/

theorem witness_BranchesAndLoop_branch :
    Spec.branch Test.exec1 (.br .always 0xFFFFFFFFFFF0) = some (.always, 0, 0x7FFFFFBFFFFE0) ∧
    Spec.branch Test.exec1 (.bri .always 2) = some (.always, 0, 0x7FFFFFFFFFFFE) ∧
    Spec.branch Test.exec1 (.ret .always 1) = some (.always, 0, 7) ∧ Spec.indirect (.ret .always 1) = true := by
  decide +kernel

theorem witness_BranchesAndLoop_loop : (1 : SReg) ≠ 0 ∧ Test.exec1.guard .always = true := by decide +kernel

/-- R129: seven passes left become six, and the branch is taken. -/
theorem test_loop : Test.next (exec (.loop .always 1 2 false 0xFFFFFFFFFFFE) Test.exec1)
    (fun t => t.rs 1 == 6 && t.rk 1 == 1 && t.rk 0 == 0 && t.pc == 0x7FFFFFBFFFFFC) = true := by
  decide +kernel

/-- A task of one role on core 0. -/
def Test.task : Task where
  key := ⟨1, 2, 0⟩
  part := 0
  pasid := 0
  image := 0
  tag := 0
  role := 0
  gsize := 1
  member := 0
  binding := [0]
  entryLoad := 0x1000
  entryExec := 0x2000
  entryStore := 0x3000
  start := 0

theorem witness_TaskControl_dpt :
    let s := Test.at .load fun k => { k with load := { k.load with dr := true } }
    ¬ (s.cur.2 = .ctrl ∧ s.curCore.hl ≠ 0) ∧ s.curStream.dr = true ∧ Test.exec1.curStream.dr = false := by
  decide +kernel

def Test.forking : State := Test.at .ctrl fun k => { k with task := some Test.task }

theorem witness_TaskControl_fork :
    Test.forking.cur.2 = .ctrl ∧ Test.forking.curCore.hl = 0 ∧ Test.forking.curCore.task = some Test.task ∧
    Test.forking.curStream.stores = [] ∧ Test.forking.curCore.forked = false ∧ Test.forking.curCore.load.st = .idle ∧
    Test.forking.curCore.exec.st = .idle ∧ Test.forking.curCore.store.st = .idle ∧
    (Test.at .ctrl fun k => { k with task := some Test.task, forked := true }).curCore.forked = true := by
  decide +kernel

theorem witness_TaskControl_handler : Spec.inHandler (Test.at .ctrl fun k => { k with hl := 2 }) := by
  unfold Spec.inHandler
  decide +kernel

theorem witness_TaskControl_joinEnd : ¬ Spec.inHandler Test.forking ∧ Spec.quiet Test.forking := by
  unfold Spec.inHandler Spec.quiet Spec.quietOn
  decide +kernel

/-- R14: FORK starts the three streams at their sections' entries. -/
theorem test_fork : Test.next (exec .fork Test.forking)
    (fun t => t.curCore.load.pc == 0x1000 && t.curCore.exec.pc == 0x2000 && t.curCore.store.pc == 0x3000 &&
      t.curCore.exec.st == .running && t.pc == 0x7FFFFFC000004) = true := by
  decide +kernel

/-- The four streams of core 0 at their first JOIN. -/
def Test.joined : State :=
  Test.core fun k =>
    let w : Stream → Stream := fun v => { v with st := .otherWait, pend := .join, len := 4 }
    { k with load := w k.load, exec := w k.exec, store := w k.store, ctrl := w k.ctrl }

theorem witness_StreamsEnd_join :
    (Test.joined.core 0).gated = false ∧
    (∀ x ∈ [StreamId.load, .exec, .store, .ctrl],
      ((Test.joined.core 0).stream x).pend = .join ∧ ((Test.joined.core 0).stream x).jord = 0) := by
  decide +kernel

theorem test_join : Test.next (exec (.joinComplete 0) Test.joined)
    (fun t => (t.core 0).exec.st == .running && (t.core 0).exec.pc == 4 && (t.core 0).ctrl.jord == 1) = true := by
  decide +kernel

theorem witness_StreamsEnd_end :
    let s := Test.core fun k => { k with exec := { k.exec with pend := .finish } }
    (s.core 0).gated = false ∧ (s.stream 0 .exec).pend = .finish ∧ (s.stream 0 .exec).stores = [] ∧ (s.core 0).loads = [] ∧
    (s.core 0).vwrites = [] ∧ (s.core 0).geom = [] ∧ (s.core 0).aq = [] ∧ (s.core 0).pumpq = [] ∧
    (s.core 0).pump0 = .idle ∧ (s.core 0).pump1 = .idle := by
  decide +kernel

/-! ## Witnesses: exceptions and control registers -/

/-- Core 0 with both vectors set, and every cause delegated. -/
def Test.vectors (k : Core) : Core :=
  { k with uhvec := 0x4000, shvec := 0x8000, udeleg0 := 0xFFFFFFFFFFFFFFFF, udeleg1 := 0xFFFFFFFFFFFFFFFF }

theorem witness_TrapReachesHandler_user :
    let k := (Test.at .exec Test.vectors).core 0
    ¬ Spec.neverDelivered 0x40 0 ∧ Spec.delegates k 0x40 = true ∧ k.uhvec ≠ 0 ∧ k.hl = 0 ∧ k.ctrlEsc = false ∧
    k.ctrlBusy = false := by
  unfold Spec.neverDelivered
  decide +kernel

theorem witness_TrapReachesHandler_supervisor :
    let k := (Test.at .exec fun k => { Test.vectors k with udeleg0 := 0 }).core 0
    ¬ Spec.neverDelivered 0x05 0x2100000000000000 ∧ Spec.delegates k 0x05 = false ∧ k.shvec ≠ 0 ∧ k.hl = 0 ∧ k.ctrlEsc = false ∧
    k.ctrlBusy = false := by
  unfold Spec.neverDelivered
  decide +kernel

theorem witness_TrapNesting_held :
    ((Test.at .exec fun k => { Test.vectors k with hl := 1 }).core 0).hl ≠ 0 ∧
    ((Test.at .exec fun k => { k with ctrlEsc := true }).core 0).ctrlEsc = true := by
  decide +kernel

theorem witness_TrapNesting_own :
    let k (l : Nat) := (Test.at .ctrl fun k => { Test.vectors k with hl := l }).core 0
    ((k 0).hl = 0 ∧ Spec.delegates (k 0) 0x07 = true ∧ (k 0).uhvec ≠ 0 ∧ (k 0).ctrlEsc = false) ∧
    ((k 1).hl ≠ 0 ∧ (k 1).hl ≠ 2 ∧ (k 1).shvec ≠ 0) ∧ (k 2).hl = 2 := by
  decide +kernel

/-- Table 20.1, R335, R336: a division by zero of EXEC, delegated, diverts CTRL to UHVEC at level 1. -/
theorem test_trap_user : Test.next (exec (.div .always 5 3 0) (Test.at .exec Test.vectors))
    (fun t => t.curCore.hl == 1 && t.curCore.ctrl.pc == 0x4000 && t.curCore.trap1.cause == 0x101 &&
      t.curCore.trap1.epc == 0x7FFFFFC000000 && t.curStream.st == .stopped) = true := by
  decide +kernel

/-- R336: a trap of CTRL inside the user handler goes to SHVEC, and ENTRY records level 1. -/
theorem test_trap_nested :
    Test.next (exec (.trap .always 0x123) (Test.at .ctrl fun k => { Test.vectors k with hl := 1 }))
      (fun t => t.curCore.hl == 2 && t.curCore.ctrl.pc == 0x8000 && t.curCore.trap2.cause == 0x1F &&
        t.curCore.trap2.eaddr == 0x123 && t.curCore.entry2 == 1) = true := by
  decide +kernel

theorem witness_HandlerReturns_eret :
    let s (l : Nat) := Test.at .ctrl fun k => { k with hl := l, trap1 := { k.trap1 with retpc := 0x100 } }
    (s 1).cur.2 = .ctrl ∧ (s 1).curStream.stores = [] ∧ (s 1).curCore.hl ≠ 0 ∧ (s 1).curCore.held = [] ∧
    (s 0).curCore.hl = 0 := by
  decide +kernel

/-- CTRL in the user handler of a trap of EXEC with a base cause, 8 bytes long. -/
def Test.handling (base : Nat) : State :=
  Test.at .ctrl fun k => { k with
    hl := 1
    exec := { k.exec with st := .stopped }
    bank1 := { k.bank1 with s := (Test.scalars k.ctrl).s }
    trap1 := ⟨BitVec.ofNat 10 (base * 4 + 1), 0x200, 0, 0, 0, 0x100, 8⟩ }

theorem witness_HandlerReturns_resume :
    Spec.resumeBar (Test.handling 0x40).curCore .exec false = none ∧ Spec.resumeBar (Test.handling 0x40).curCore .exec true = none ∧
    Spec.resumeBar (Test.handling 0x05).curCore .exec true = some 5 ∧ Spec.resumeBar (Test.handling 0x05).curCore .exec false = none ∧
    Spec.resumeBar (Test.handling 0x40).curCore .load false = some 3 ∧ Spec.resumeBar (Test.handling 0x40).curCore .ctrl false = some 3 ∧
    Spec.resumeBar Test.forking.curCore .exec false = some 2 ∧ ((Test.handling 0x40).rs 1).toNat % 2 = 1 ∧
    ((Test.handling 0x40).rs 2).toNat % 2 = 0 ∧ (Test.handling 0x40).cur.2 = .ctrl ∧
    (Test.handling 0x40).curStream.stores = [] := by
  decide +kernel

/-- R137: skip goes on after the trapped instruction. -/
theorem test_resume_skip : Test.next (exec (.resumeSkip .always .exec) (Test.handling 0x40))
    (fun t => t.curCore.exec.pc == 0x208 && t.curCore.exec.st == .running) = true := by
  decide +kernel

theorem test_eret : Test.next (exec .eret (Test.handling 0x40))
    (fun t => t.curCore.hl == 0 && t.curCore.ctrl.pc == 0x100) = true := by
  decide +kernel

theorem witness_NopTrapBkpt : Test.exec1.guard .always = true := by decide +kernel

theorem witness_CsrResult :
    Spec.csrReads Test.exec1 .status = true ∧ Spec.csrReads Test.exec1 .cause = false ∧ Spec.csrWrites Test.exec1 .rmode = true ∧
    Spec.csrWrites Test.exec1 .status = false ∧ Spec.csrRefuses .rmode 3 = false ∧ Spec.csrRefuses .rmode 4 = true ∧
    Spec.csrRefuses .uhvec 0x7FFFFFFFFFFFE = false ∧ Spec.csrRefuses .uhvec 0x8000000000000 = true := by
  decide +kernel

/-- R75, R138: RMODE has the values 0 to 3; 4 raises RESERVED_FIELD (0x02). -/
theorem test_csrw_refused : Test.next (exec (.csrw .always .rmode 1) (Test.at .exec fun k =>
    { Test.vectors k with exec := Test.scalars k.exec })) (fun t => t.curCore.trap1.cause == 0x09) = true := by
  decide +kernel

/-! ## Witnesses: loads, stores and tags -/

/-- An access of core 0 by EXEC's stand-in: size and alignment 8. -/
def Test.acc : UnitAcc :=
  { c := 0, x := ⟨0, 0, false, .read⟩, size := 8, align := 8, planed := false, engine := false, u64 := false }

/-- Core 0 with one TLB entry: page 2 at frame 5, readable and writable. -/
def Test.mapped : State := Test.core fun k => { k with tlb := [⟨0, 0, 2, 1, 5, 2, true, true, false, false⟩] }

theorem witness_AddressCheckOrder :
    0 < Test.acc.size ∧ Test.acc.size ≤ 512 ∧ Test.acc.engine = false ∧ 0 < Test.acc.align ∧
    (0x10004 : VAddr).toNat % 8 ≠ 0 ∧ (0x7FFFFFC1FFFF8 : VAddr).toNat + 8 ≤ 0x7FFFFFC200000 ∧
    (0x7FFFFFC000000 : VAddr).toNat % 8 = 0 ∧ 0x7FFFFFC200000 ≤ (0x7FFFFFC200000 : VAddr).toNat ∧
    (Test.mapped.part 0).apert.toList.all (fun a => a.isNone) = true ∧
    (Test.mapped.core 0).tlbFind Test.acc.x 0x10000 = some 0x28000 ∧ inDram 0x28000 = true ∧
    (Test.mapped.core 0).tlbFind Test.acc.x 0x7FFFFFBFFFFF8 = none := by
  decide +kernel

/-- A stream whose s5 holds the start of the local window, s6 its last tile, s7 a global address and s8 an odd one. -/
def Test.bases (v : Stream) : Stream :=
  { v with s := (((v.s.set 5 0x7FFFFFC000000).set 6 0x7FFFFFC1FF000).set 7 0x10000).set 8 0x10001 }

def Test.loading : State := Test.at .load fun k => { k with load := Test.bases k.load }
def Test.storing : State := Test.at .store fun k => { k with store := Test.bases k.store }

/-- What a check of addresses comes to: every unit fine, a cause, a miss. -/
def Test.unitCase (r : UnitRes) : Nat :=
  match r with
  | .ok _ => 1
  | .fault c _ => 0x100 + c.toNat
  | .miss _ => 2
  | .pri _ => 3
  | .poison _ _ => 4

theorem witness_ScalarAccess_load :
    Spec.scalarLoad (.ldsI16 .always 1 5 2) = some (.always, 1, 5, 2, 2, true) ∧ Test.loading.guard .always = true ∧
    Test.unitCase (Test.loading.checkUnit (Spec.access Test.loading .read 2 false false) (Spec.ea Test.loading 5 2)) = 1 ∧
    Test.unitCase (Test.loading.checkUnit (Spec.access Test.loading .read 2 false false) (Spec.ea Test.loading 5 1)) = 0x123 ∧
    Test.unitCase (Test.loading.checkUnit (Spec.access Test.loading .read 2 false false) (Spec.ea Test.loading 7 0)) = 2 := by
  refine ⟨rfl, ?_⟩
  decide +kernel

theorem witness_ScalarAccess_store :
    Spec.scalarStore (.stsU64 .always 1 5 8) = some (.always, 1, 5, 8, 8) ∧ Test.storing.guard .always = true ∧
    Test.storing.cur.2 ≠ .load ∧ Test.loading.curCore.loads = [] ∧
    Test.unitCase (Test.storing.checkUnit (Spec.access Test.storing .write 8 false true) (Spec.ea Test.storing 5 8)) = 1 ∧
    Test.unitCase (Test.storing.checkUnit (Spec.access Test.storing .write 8 false true) (Spec.ea Test.storing 8 0)) = 0x123 ∧
    Test.unitCase (Test.storing.checkUnit (Spec.access Test.storing .write 8 false true) (Spec.ea Test.storing 7 0)) = 2 := by
  refine ⟨rfl, ?_⟩
  decide +kernel

/-- LOAD waits for a signed byte of cistern offset 3, which holds 0x80. -/
def Test.returning (bad : Bool) : State :=
  Test.core fun k => { k with
    cistern := k.cistern.store 3 [0x80] bad
    load := { k.load with pend := .lds ⟨7, 4, 1, true, ⟨0x7FFFFFC000003, .cistern 3⟩⟩, len := 8 } }

theorem witness_ScalarAccess_return :
    ((Test.returning false).core 0).gated = false ∧ ((Test.returning false).stream 0 .load).stores = [] ∧
    ((Test.returning false).stream 0 .load).pend = .lds ⟨7, 4, 1, true, ⟨0x7FFFFFC000003, .cistern 3⟩⟩ ∧
    ((Test.returning false).core 0).cistern.badRange 3 1 = false ∧ ((Test.returning true).core 0).cistern.badRange 3 1 = true := by
  decide +kernel

/-- R201: an `.i8` load sign-extends. -/
theorem test_lds_i8 : Test.next (exec (.scalarLoadReturn 0 .load false) (Test.returning false))
    (fun t => (t.core 0).load.s[4] == 0xFFFFFFFFFFFFFF80 && (t.stream 0 .load).pc == 8) = true := by
  decide +kernel

def Test.storeTo (l : Loc) : State :=
  Test.core fun k => { k with store := { k.store with stores := [⟨0, .sts [0x34, 0x12], [⟨0x7FFFFFC000010, l⟩], 0⟩] } }

theorem witness_ScalarAccess_performs :
    ((Test.storeTo (.cistern 0x10)).core 0).gated = false ∧
    ((Test.storeTo (.cistern 0x10)).stream 0 .store).stores = [⟨0, .sts [0x34, 0x12], [⟨0x7FFFFFC000010, .cistern 0x10⟩], 0⟩] ∧
    ((Test.storeTo (.phys 0x28000)).stream 0 .store).stores = [⟨0, .sts [0x34, 0x12], [⟨0x7FFFFFC000010, .phys 0x28000⟩], 0⟩] ∧
    inDram 0x28000 = true ∧ inDram 0x28001 = true := by
  decide +kernel

/-- R202: STS stores its low bytes little-endian. -/
theorem test_sts : Test.next (exec (.scalarStorePerformed 0 .store) (Test.storeTo (.cistern 0x10)))
    (fun t => (t.core 0).cistern.bytes.read 0x10 == 0x34 && (t.core 0).cistern.bytes.read 0x11 == 0x12 &&
      (t.stream 0 .store).stores == []) = true := by
  decide +kernel

/-- Every unit of a tile access is fine. -/
def Test.allFine (r : Except UnitRes (List MemUnit)) : Bool :=
  match r with
  | .ok _ => true
  | .error _ => false

theorem witness_TileLoads_issue :
    let vas := (List.range 32).map (Spec.unitVa Test.loading 6 0 0 128)
    let blocks := (List.range 10).map (Spec.unitVa Test.loading 5 0 0 512)
    (Spec.tileLoad Test.loading (.tld .always ⟨9, 2⟩ 6 0 0)).any (fun r => r.2.2.2 == vas) = true ∧
    Test.allFine (Test.loading.checkUnits (Spec.access Test.loading .read 128 false false) vas) = true ∧
    (Spec.tileLoad Test.loading (.tldp .always ⟨9, 2⟩ 2 false 5 0 0)).any (fun r => r.2.2.2 == blocks) = true ∧
    Test.allFine (Test.loading.checkUnits (Spec.access Test.loading .read 512 true false) blocks) = true ∧
    (Test.loading.curCore.cnt (.tile 9)).bad = false ∧ (Test.loading.curCore.cnt (.tile 9)).p = 0 ∧
    (Test.loading.curCore.cnt (.tile 9)).rsv = false ∧
    ((Test.loading.modCore 0 fun k => k.setCnt (.tile 9) ⟨1, 1, false, false, false⟩).curCore.cnt (.tile 9)).p ≠ 0 := by
  decide +kernel

/-- A tile load in flight whose row r lies at cistern offset 128 r. -/
def Test.tileLoading : State :=
  Test.core fun k => { k with
    cistern := k.cistern.store 129 [0x5A] false
    loads := [⟨0, 9, 2, none, (List.finRange 32).map fun r => ⟨BitVec.ofNat 51 (0x7FFFFFC000000 + 128 * r.val), .cistern (128 * r.val)⟩,
      none, 0⟩] }

theorem witness_TileLoads_complete :
    (Test.tileLoading.core 0).gated = false ∧ (Test.tileLoading.stream 0 .load).stores = [] ∧
    (∀ r : Fin 32, (Test.tileLoading.core 0).cistern.badRange (128 * r.val) 128 = false) := by
  decide +kernel

/-- R193: row 1, byte 1 of the tile takes the second row's second byte, and the count advances. -/
theorem test_tld : Test.next (exec (.tileLoadComplete 0 0 false) Test.tileLoading)
    (fun t => (t.core 0).tiles[9].val.extractLsb' (8 * 129) 8 == 0x5A && (t.core 0).tiles[9].cnt == ⟨1, 2, false, false, false⟩) =
      true := by
  decide +kernel

theorem witness_TileStores_issue :
    Test.allFine (Test.storing.checkUnits (Spec.access Test.storing .write 128 false false)
      ((List.range 32).map (Spec.unitVa Test.storing 6 0 0 128))) = true ∧
    Test.allFine (Test.storing.checkUnits (Spec.access Test.storing .write 512 true false)
      ((List.range 8).map (Spec.unitVa Test.storing 5 0 0 512))) = true ∧
    Test.storing.curCore.evalSources [Test.storing.tsrc ⟨3, .any⟩] = .ready ∧
    conflictIn [Test.storing.tsrc ⟨3, .any⟩, Test.storing.tsrc ⟨4, .any⟩] = none ∧
    Test.storing.curCore.evalSources [Test.storing.tsrc ⟨3, .any⟩, Test.storing.tsrc ⟨4, .any⟩] = .ready := by
  decide +kernel

def Test.tileStoring : State :=
  Test.core fun k => { k with store := { k.store with stores := [⟨0, .tst 0xAB 0, (List.finRange 32).map fun r =>
    ⟨BitVec.ofNat 51 (0x7FFFFFC000000 + 128 * r.val), .cistern (128 * r.val)⟩, 0⟩] } }

theorem witness_TileStores_performs :
    (Test.tileStoring.core 0).gated = false ∧ (Test.tileStoring.stream 0 .store).stores.length = 1 ∧
    (∀ r r' : Fin 32, r ≠ r' → 128 * r.val + 128 ≤ 128 * r'.val ∨ 128 * r'.val + 128 ≤ 128 * r.val) := by
  decide +kernel

theorem test_tst : Test.next (exec (.tileStorePerformed 0 .store) Test.tileStoring)
    (fun t => (t.core 0).cistern.bytes.read 0 == 0xAB && (t.core 0).cistern.bytes.read 128 == 0) = true := by
  decide +kernel

/-- LOAD walks to an address; the second-level TLB of its die may hold the page. -/
def Test.walking (l2 : Bool) : State :=
  { Test.core fun k => { k with load := { k.load with walk := some ⟨0x10000, false, none⟩ } } with
    l2 := if l2 then Vector.replicate 2 [⟨0, 0, 2, 1, 5, 2, true, true, false, false⟩] else Vector.replicate 2 [] }

theorem witness_WalkAndPageAnswer :
    ((Test.walking true).core 0).gated = false ∧ ((Test.walking true).stream 0 .load).walk = some ⟨0x10000, false, none⟩ ∧
    (Test.walking true).blockedPage 0 0 0x10000 = false ∧
    ((Test.walking true).l2Of 0).any (fun e => e.serves ⟨0, 0, false, .read⟩ 0x10000) = true ∧
    ((Test.walking false).l2Of 0).any (fun e => e.serves ⟨0, 0, false, .read⟩ 0x10000) = false ∧
    (match (Test.walking false).walk ⟨0, 0, false, .read⟩ 0x10000 with
      | .fault c => c != 0x71
      | _ => false) = true := by
  decide +kernel

/-- The tables of the example after R353, under a PASID table at 0x5000000. -/
def Test.tables : State :=
  let word (a v : Nat) (s : State) : State := s.writePhys 0 a (leBytes 8 v) false
  let s := word 0x4011008 0x123800F (word 0x4008000 0x4010001 (word 0x4000000 0x4008001 (word 0x5000000 0x4000001 State.reset)))
  { s with parts := s.parts.set 0 { Partition.zero with ptab := 0x5000000, ptlen := 1 } }

/-- The example after R353: 0x01008040 translates to 0x01238040. -/
theorem test_walk : (match Test.tables.walk ⟨0, 0, false, .write⟩ 0x1008040 with
    | .ok r => r.pa == 0x1238040
    | _ => false) = true := by
  decide +kernel

/-- R356: the same page may not be fetched from. -/
theorem test_walk_permission : (match Test.tables.walk ⟨0, 0, false, .fetch⟩ 0x1008040 with
    | .fault c => c == 0x21
    | _ => false) = true := by
  decide +kernel

/-- Scalars for the tags: s9 an index, s10 the first index past the table, s11 an entry with tag 5, s12 a value with a reserved bit. -/
def Test.tagging : State := Test.at .load fun k => { k with load := { k.load with
  s := (((k.load.s.set 9 511).set 10 512).set 11 0x8000000005).set 12 0x1000000000000 } }

theorem witness_TagInstructions :
    Test.tagging.guard .always = true ∧ (BitVec.ofInt 64 ((Test.tagging.rs 9).toInt + 0)).toNat = 511 ∧
    (BitVec.ofInt 64 ((Test.tagging.rs 10).toInt + 0)).toNat = 512 ∧ (Test.tagging.rs 11).toNat < 2 ^ 48 ∧
    2 ^ 48 ≤ (Test.tagging.rs 12).toNat := by
  decide +kernel

/-- R204: with nothing valid, LOOKUP misses and names entry 0 as free. -/
theorem test_lookup_miss : Test.next (exec (.lookup .always 1 5 0) Test.tagging)
    (fun t => t.rs 1 == 0x8000000000000000) = true := by
  decide +kernel

/-- R204, R205: a tag set in entry 511 is found by an address in its block. -/
theorem test_tagset_lookup : Test.next (exec (.tagset .always 11 9 0) Test.tagging)
    (fun t => Test.next (exec (.lookup .always 1 0 0x5123) t) fun u => u.rs 1 == 511) = true := by
  decide +kernel

/-! ## Witnesses: the vector unit -/

/-- EXEC about to act on t1, all bytes 0xFF, and t2, all bytes 1. -/
def Test.vector : State :=
  Test.at .exec fun k => { k with
    tiles := (k.tiles.set 1 { Tile.zero with val := BitVec.allOnes 32768 }).set 2
      { Tile.zero with val := BitVec.ofNat 32768 (256 ^ 4096 / 255) } }

theorem witness_VectorIssue_runs :
    let i := Instr.vadd .always ⟨3, 1⟩ ⟨1, .at 0 0⟩ ⟨2, .at 0 0⟩ .u8 .rmode true none
    let s := Test.vector.modCore 0 fun k => (k.setCnt (.tile 1) ⟨0, 1, false, false, false⟩).setCnt (.tile 2) ⟨0, 0, true, false, false⟩
    (Spec.vec s i).any (fun v => s.guard v.g && v.mreg.isNone && conflictIn v.srcs == none &&
      s.curCore.evalSources v.srcs == .ready && Spec.rowMask s v != 0 &&
      (s.curCore.debitAll s.cur.2 v.srcs).cnt v.dst == ⟨0, 0, false, false, false⟩) = true := by
  decide +kernel

theorem witness_VectorIssue_off :
    (Spec.vec Test.vector (.vmov (.on true 0) ⟨3, 1⟩ ⟨1, .any⟩ none)).any (fun v => !Test.vector.guard v.g) = true ∧
    (Spec.vec Test.vector (.vmov .always ⟨3, 1⟩ ⟨1, .any⟩ (some 2))).any (fun v => Spec.rowMask Test.vector v == 0) = true ∧
    Test.vector.curCore.vwrites = [] ∧ Test.vector.curCore.cnt (.tile 3) = ⟨0, 0, false, false, false⟩ := by
  decide +kernel

/-- A vector write of t3 in flight, its interval over. -/
def Test.writing (iv : Interval) : State :=
  Test.core fun k => { k with
    vwrites := [⟨.tile 3, 2, .tile 0x77 0xFF 0 1, none, [], 0x100, 0, 8⟩]
    interval := iv
    exec := { k.exec with st := .running } }

theorem witness_VectorCompletion_write :
    ((Test.writing .none).core 0).gated = false ∧ ((Test.writing .none).core 0).vwrites.length = 1 ∧
    ((Test.writing .none).core 0).interval = .none ∧ ((Test.writing .none).core 0).exec.pend = .none ∧
    ((Test.writing .vec).core 0).interval = .vec ∧ ((Test.writing .vec).core 0).exec.st = .running := by
  decide +kernel

/-- R20, R144: the masked bits take the data and the count advances with its readers. -/
theorem test_vector_write : Test.next (exec (.vectorWriteComplete 0 0) (Test.writing .none))
    (fun t => (t.core 0).tiles[3].val == 0x77 && (t.core 0).tiles[3].cnt == ⟨1, 2, false, false, false⟩) = true := by
  decide +kernel

/-- EXEC waits for a source that has become ready, and for a destination that may now be written. -/
def Test.waitingOn (p : Pend) : State := Test.core fun k => { k with exec := { k.exec with st := .countWait, pend := p } }

theorem witness_VectorCompletion_resume :
    ((Test.waitingOn (.src [⟨.tile 3, some 0⟩] .cwait)).core 0).waitBehind .exec = false ∧
    ((Test.waitingOn (.src [⟨.tile 3, some 0⟩] .cwait)).modCore 0 fun k =>
      k.setCnt (.tile 3) ⟨0, 1, false, false, false⟩).stream 0 .exec = (Test.waitingOn (.src [⟨.tile 3, some 0⟩] .cwait)).stream 0 .exec ∧
    (((Test.waitingOn (.src [⟨.tile 3, some 0⟩] .cwait)).modCore 0 fun k =>
      k.setCnt (.tile 3) ⟨0, 1, false, false, false⟩).core 0).evalSources [⟨.tile 3, some 0⟩] = .ready ∧
    ((Test.waitingOn (.dst (.tile 3) 1 [] .count)).core 0).waitBehind .exec = false ∧
    ((Test.waitingOn (.dst (.tile 3) 1 [] .count)).core 0).dstReady (.tile 3) .count = true ∧
    (((Test.waitingOn (.dst (.tile 3) 1 [] .count)).core 0).cnt (.tile 3)).bad = false ∧ DstOp.count.needsEntry = false := by
  decide +kernel

theorem witness_IntegerElements : ElemTy.i8.isInt = true ∧ 4095 < 32768 / ElemTy.i8.bits ∧ ElemTy.u64.isInt = true ∧
    511 < 32768 / ElemTy.u64.bits ∧ Spec.bounds .i8 (-128) 127 ∧ Spec.bounds .u64 0 (2 ^ 64 - 1) ∧
    Spec.exact .abs (-128) 0 0 = some 128 ∧
    (∃ num : BitVec ElemTy.i8.bits → Int, ∀ e, (Spec.signed .i8 → num e = e.toInt) ∧ (¬ Spec.signed .i8 → num e = e.toNat)) := by
  unfold Spec.bounds
  refine ⟨by decide, by decide, by decide, by decide, by simp [Spec.signed, ElemTy.bits], by simp [Spec.signed, ElemTy.bits],
    by decide, fun e => e.toInt, fun e => ⟨fun _ => rfl, fun h => absurd (Or.inl rfl) h⟩⟩

/-- R149: VADD with SAT clamps 0xFF + 1 to 0xFF; without, it wraps to 0. -/
theorem test_vadd_sat :
    let r (sat : Bool) := (vecData (.arith .add .u8 .rne sat) (BitVec.allOnes 32)
      [.tile (BitVec.allOnes 32768) 0, .tile (BitVec.ofNat 32768 (256 ^ 4096 / 255)) 0]).1
    let low (d : WriteData) : BitVec 8 := match d with
      | .tile v _ _ _ => v.extractLsb' 0 8
      | _ => 1
    low (r true) = 0xFF ∧ low (r false) = 0 := by
  decide +kernel

/-! ## Witnesses: the matrix array -/

/-- EXEC with a format latched ahead, and CTRL with a staged nest. -/
def Test.array (f : Core → Core) : State := Test.at .exec fun k => f { k with platch := some ⟨.int8, 0, false⟩ }

theorem witness_LatchCommands_issue :
    ¬ Spec.offsetsBad .nf 0xF0000 0xFFF80 ∧ Spec.offsetsBad .nf 0xF0000 0xFFF81 ∧
    Spec.offsetsBad .int8 0xF0200 0 ∧ Spec.offsetsBad .int8 0x100 0 ∧
    Test.exec1.curCore.evalSources [Test.exec1.gsrc ⟨3, .any⟩] = .ready ∧
    Spec.writable ((Test.exec1.curCore.debitAll .exec [Test.exec1.gsrc ⟨3, .any⟩]).cnt (.sig 4)) ∧ Test.exec1.curCore.aq.length < 4 := by
  unfold Spec.offsetsBad Spec.writable
  decide +kernel

theorem witness_MmaIssues :
    Test.exec1.curCore.platch = none ∧ (Test.array id).curCore.platch = some ⟨.int8, 0, false⟩ ∧
    (ElemTy.i8, WFmt.int8, 0) ∈ Spec.pairs ∧ (∀ p ∈ Spec.pairs, p.1 = .fp64 → p.2.1 ≠ .int8) ∧
    conflictIn [(Test.array id).tsrc ⟨1, .any⟩] = none ∧ (Test.array id).curCore.evalSources [(Test.array id).tsrc ⟨1, .any⟩] = .ready ∧
    Spec.writable (((Test.array id).curCore.debitAll .exec [(Test.array id).tsrc ⟨1, .any⟩]).cnt (.acc 2)) ∧
    (Test.array id).curCore.aq.length < 4 := by
  unfold Spec.writable
  decide +kernel

/-- R175: an MMA with nothing latched ahead raises MATRIX_STATE (0x41) with sub-code 1. -/
theorem test_mma_no_latch :
    Test.next (exec (.mma .always ⟨2, 1⟩ ⟨1, .any⟩ none none .i8 0 0 none false) (Test.at .exec Test.vectors))
      (fun t => t.curCore.trap1.cause == 0x105 && t.curCore.trap1.eaddr == 1) = true := by
  decide +kernel

theorem witness_NestCommands_issue :
    let s := Test.at .ctrl fun k => { k with nestSet := { k.nestSet with cfg := 0 } }
    s.guard .always = true ∧ Spec.writable (s.curCore.cnt (.sig 1)) ∧ Spec.writable (s.curCore.cnt (.acc 0)) ∧
    s.curCore.aq.length < 4 := by
  unfold Spec.writable
  decide +kernel

/-- The array queue of core 0. -/
def Test.queued (l : List AQEntry) (latch : Option Latch) : State := Test.core fun k => { k with aq := l, latch := latch }

/-- The weights of a latch that are all 1, in INT8. -/
def Test.ones : Latch := latchFrom ⟨.int8, 0, false⟩ 0 (List.replicate 0x10000 1) (List.replicate 128 0)

theorem witness_LatchCommands_run :
    let w : WlatchOp := ⟨[(0, 512)], 0, 0, ⟨.int8, 0, false⟩, 4, 1, 0x100⟩
    ((Test.queued [.wlatch w] none).core 0).gated = false ∧
    ((Test.queued [.wlatch w] none).core 0).latchBad ⟨.int8, 0, false⟩ 0 0 = false ∧
    (((Test.queued [.wlatch w] none).modCore 0 fun k => { k with wbuf := k.wbuf.store 0xFE00 [1] true }).core 0).latchBad
      ⟨.int8, 0, false⟩ 0 0 = true ∧
    ((Test.queued [.wclr 0x100] none).core 0).aq = [.wclr 0x100] := by
  decide +kernel

theorem test_wclr : Test.next (exec (.wclrExecute 0) (Test.queued [.wclr 0x100] none))
    (fun t => (t.core 0).aq == [] && (t.core 0).latch.isNone) = true := by
  decide +kernel

/-- An MMA of 8-bit integers with activations x, captured, on accumulator a2. -/
def Test.mmaOp (x : BitVec 32768) : MmaOp :=
  ⟨2, 1, .i8, 0, 0, BitVec.allOnes 32, true, false, false, x, 0, 0, 0, 0, 0, 0x100⟩

theorem witness_MmaCompletes :
    ((Test.queued [.mma (Test.mmaOp 0)] none).core 0).aq = [.mma (Test.mmaOp 0)] ∧
    ((Test.queued [.mma (Test.mmaOp 0)] none).core 0).latch = none ∧ (Test.mmaOp 0).ty ≠ .fp64 ∧
    ((Test.queued [.mma (Test.mmaOp 0)] (some Test.ones)).core 0).latch.isSome = true ∧
    (Test.mmaOp 0).mask.getLsbD 31 = true := by
  decide +kernel

theorem witness_IntegerMmaElement :
    Test.ones.fmt = .int8 ∧ (BitVec.ofNat 32 1).getLsbD 0 = true ∧ (BitVec.ofNat 32 1).getLsbD 31 = false := by
  decide +kernel

/-- A nest of one group, its activations and outputs at an address. -/
def Test.nest (va : Nat) (grp : Nat) : NestRec :=
  ⟨[], { (Core.zero).nestSet with xa := BitVec.ofNat 51 va, xo := BitVec.ofNat 51 (va + 0x10000), cfg := 3 }, 1, 2, .plain, grp,
    0x100⟩

theorem witness_NestCommands_run :
    let s (r : NestRec) := Test.queued [.nest r] none
    let ok (r : NestRec) := match ((s r).releaseOn 0 .ctrl).nestGroup 0 r with
      | .ok _ => true
      | .error _ => false
    ((s (Test.nest 0x7FFFFFC000000 0)).core 0).gated = false ∧ ((s (Test.nest 0x7FFFFFC000000 0)).core 0).ctrl.hs = false ∧
    (Test.nest 0x7FFFFFC000000 0).grp < (Test.nest 0x7FFFFFC000000 0).set.groups ∧ ok (Test.nest 0x7FFFFFC000000 0) = true ∧
    ok (Test.nest 0x10000 0) = false ∧ (Test.nest 0x10000 1).set.groups ≤ (Test.nest 0x10000 1).grp := by
  decide +kernel

/-! ## Witnesses: exact geometric predicates -/

/-- EXEC about to test points in t0 to t5: lane 0 is the triangle (0, 0), (1, 0), (0, 1); t6 holds infinities. -/
def Test.points : State :=
  Test.at .exec fun k => { k with
    tiles := ((k.tiles.set 2 { Tile.zero with val := 0x3FF0000000000000 }).set 5 { Tile.zero with val := 0x3FF0000000000000 }).set 6
      { Tile.zero with val := 0x7FF0000000000000 } }

theorem witness_GeometryUnit_issue :
    let fine (s : State) (i : Instr) := (Spec.geom s i).any fun r => s.guard r.1 && conflictIn r.2.2.2 == none &&
      s.curCore.evalSources r.2.2.2 == .ready && s.curCore.gmode.getLsbD 1
    let bad (s : State) (i : Instr) := (Spec.geom s i).any fun r =>
      s.curCore.evalSources r.2.2.2 == .ready && Spec.nonfinite r.2.2.1 (Spec.tilesOf (captureAll s 0 r.2.2.2)) == some 0x1000
    fine (Test.points.modCore 0 fun k => { k with gmode := 2 }) (.orient2 .always ⟨20, 1⟩ ⟨0, .any⟩ ⟨2, .any⟩ ⟨4, .any⟩) = true ∧
    bad Test.points (.orient2 .always ⟨20, 1⟩ ⟨5, .any⟩ ⟨2, .any⟩ ⟨0, .any⟩) = true ∧
    Test.points.curCore.gmode.getLsbD 1 = false ∧ Test.points.curCore.geom.length < 2 ∧
    Spec.writable (Test.points.curCore.cnt (.tile 20)) := by
  unfold Spec.writable
  decide +kernel

/-- A geometry instruction in the exact sign unit. -/
def Test.orient : GeomOp := ⟨.orient2, [0, 0, 0x3FF0000000000000, 0, 0, 0x3FF0000000000000], 0, 20, 1, false, false, 0x100⟩

theorem witness_GeometryUnit_full :
    (Test.core fun k => { k with geom := [Test.orient, Test.orient] }).curCore.geom.length = 2 ∧
    (Test.core fun k => { k with geom := [Test.orient], gmode := 2,
                                 exec := { k.exec with pend := .geomRoom [] .orient2 20 1 } }).curCore.gmode.getLsbD 1 = true := by
  decide +kernel

theorem witness_GeometryCompletes :
    ((Test.core fun k => { k with geom := [Test.orient] }).core 0).geom.map (·.kind) = [.orient2] ∧
    Test.orient.regs.length = Spec.registers .orient2 := by
  decide +kernel

theorem witness_GeometryCompletes_finite : (Test.orient.regs.all fun r => r.extractLsb' (64 * 0 + 52) 11 != 0x7FF) = true := by
  decide +kernel

theorem witness_GeometryCompletes_equal : hasEqual (lanePoints .orient2 (Test.orient.regs.map BitVec.toNat) 1) = true := by
  decide +kernel

/-- Table 11.1, Table 11.3: the triangle turns to the left, decided at stage A; the other lanes have equal points. -/
theorem test_orient2 : laneByte .orient2 false (lanePoints .orient2 (Test.orient.regs.map BitVec.toNat) 0) = 0x01 ∧
    laneByte .orient2 false (lanePoints .orient2 (Test.orient.regs.map BitVec.toNat) 1) = 0x28 := by
  decide +kernel

/-! ## Witnesses: pumps, semaphores, fences and barriers -/

/-- LOAD with operands for commands: s1 = 7, s5 the local window, s6 its end less 4 KiB, s9 = 4096, s10 = 4097, s11 a bad handle. -/
def Test.pumping : State := Test.at .load fun k => { k with load := { Test.bases k.load with
  s := (((((Test.bases k.load).s.set 1 7).set 9 4096).set 10 4097).set 11 0xFFFFFFFFFFFFFFFF).set 12 0xFFFF000000000 } }

theorem witness_PumpIssues :
    (Spec.pump Test.pumping (.pcopy .always ⟨4, 1⟩ .plain 5 6 9 6)).isSome = true ∧ ¬ (6 < 6 ∨ Spec.badBytes 4096 6) ∧
    Spec.badBytes 4097 6 ∧ Spec.badBytes (2 ^ 32) 0 ∧ ¬ Spec.badBytes (2 ^ 32 - 1) 0 ∧
    Spec.writable (Test.pumping.curCore.cnt (.sig 4)) ∧ Spec.pumpRoom Test.pumping.curCore ∧
    ¬ Spec.pumpRoom (Test.pumping.modCore 0 fun k => { k with pqlim := 1, pumpq := [Spec.command Test.pumping .pcopy ⟨4, 1⟩ .plain 5 6 9 0
      6 false false] }).curCore := by
  unfold Spec.badBytes Spec.writable Spec.pumpRoom
  decide +kernel

/-- A PCOPY of 4 KiB from LOAD: 64 units. -/
def Test.copy : PumpCmd := Spec.command Test.pumping .pcopy ⟨4, 1⟩ .plain 5 6 9 0 6 false false

theorem witness_PumpIssues_room :
    let u := Test.core fun k => { k with load := { k.load with st := .otherWait, pend := .dst (.sig 4) 1 [] (.pump Test.copy) } }
    (u.core 0).gated = false ∧ (u.stream 0 .load).st = .otherWait ∧ Spec.writable ((u.core 0).cnt (.sig 4)) ∧
    Spec.pumpRoom (u.core 0) := by
  unfold Spec.writable Spec.pumpRoom
  decide +kernel

def Test.parked : State := Test.pumping.modCore 0 fun k => { k with pump0 := .parked Test.copy 3 0x10000 0x20 false }

theorem witness_PumpCommands_parked :
    Test.pumping.guard .always = true ∧ Test.pumping.curCore.parkedOn 4 = none ∧
    Test.parked.curCore.parkedOn 4 = some (false, Test.copy, 3) ∧ Spec.writable (Test.parked.curCore.cnt (.sig 4)) ∧
    Spec.pumpRoom Test.parked.curCore := by
  unfold Spec.writable Spec.pumpRoom
  decide +kernel

/-- R225: PCANCEL ends the parked command with status 0x02 and the units it had done. -/
theorem test_pcancel : Test.next (exec (.pcancel .always ⟨4, 1⟩) Test.parked)
    (fun t => t.curCore.sigs[4].val == 0x0200000000000003 && t.curCore.sigs[4].cnt.c == 1 && t.curCore.pump0 == .idle) = true := by
  decide +kernel

theorem witness_PumpCommands_progress :
    let s (p : Pump) (q : List PumpCmd) := Test.core fun k => { k with pump0 := p, pumpq := q }
    ((s .idle [Test.copy]).core 0).pump false = .idle ∧ ((s .idle [Test.copy]).core 0).pumpq = [Test.copy] ∧
    Spec.quietOn (s .idle [Test.copy]) 0 .load ∧ Test.copy.units = 64 ∧
    ((s (.running Test.copy 64 none) []).core 0).pump false = .running Test.copy 64 none ∧
    ((s (.running Test.copy 63 none) []).core 0).pump false = .running Test.copy 63 none := by
  unfold Spec.quietOn
  decide +kernel

theorem witness_PumpCommands_park :
    let s := Test.core fun k => { k with pump0 := .running { Test.copy with a := 0x7FFFFFC000000, b := 0x10000 } 0 none }
    let n := s.pumpAhead 0 false
    (match n.pumpStop 0 false { Test.copy with a := 0x7FFFFFC000000, b := 0x10000 } 0 none with
      | some (.park _ _ _) => true
      | _ => false) = true := by
  decide +kernel

/-- A PREM whose unit the device 7 has acknowledged. -/
def Test.acked : State :=
  let s := Test.core fun k => { k with pump0 := .running { Test.copy with kind := .prem, e := 7 } 0 (some (7, 5)) }
  { s with fabric := { s.fabric with out := [⟨⟨0, 7, 0, 5, true, false, .sem .ld 0 0 0⟩, 0, .pump 0 false, some (.ok 0), .sem .ld 0 0 0, 0⟩] } }

theorem witness_PumpCommands_ack :
    (match (Test.acked.core 0).pump false with
      | .running m u (some (dev, seq)) => u == 0 && dev == 7 && seq == 5 && m.kind == .prem
      | _ => false) = true ∧ (Test.acked.fabric.outPkt 7 5).any (fun o => o.ack == some (.ok 0)) = true := by
  decide +kernel

/-- CTRL of a task of one role, whose scalars name cell 3 of role 0 in s1 and no cell in s2. -/
def Test.semaphores : State := Test.at .ctrl fun k => { k with task := some Test.task, ctrl := { k.ctrl with
  s := (((k.ctrl.s.set 1 0xFFFF00003).set 2 0xFFFFFFFFFFFFFFFF).set 3 0x700003).set 4 5 } }

theorem witness_Semaphores_issue :
    Spec.quiet Test.semaphores ∧ Test.semaphores.guard .always = true ∧
    (Spec.sem Test.semaphores (.semadd .always .plain 5 1 4)).isSome = true ∧
    (match Test.semaphores.resolve 0 (Test.semaphores.rs 1) with
      | .cell t n => t == 0 && n == 3
      | _ => false) = true ∧
    (match Test.semaphores.resolve 0 (Test.semaphores.rs 2) with
      | .bad => true
      | _ => false) = true ∧
    (match Test.semaphores.resolve 0 (Test.semaphores.rs 3) with
      | .remote d => d == 7
      | _ => false) = true := by
  unfold Spec.quiet Spec.quietOn
  decide +kernel

/-- LOAD waits on cell 3 of core 0, which holds 5. -/
def Test.cellOp (r : Option Word) : State :=
  Test.core fun k => { k with
    cells := k.cells.set 3 5
    load := { k.load with pend := .sem ⟨.add, 0xFFFF00003, .cell 0 3, 7, 2, 0, .plain, none, r⟩ } }

theorem witness_Semaphores_ops :
    ((Test.cellOp none).core 0).gated = false ∧
    ((Test.cellOp none).stream 0 .load).pend = .sem ⟨.add, 0xFFFF00003, .cell 0 3, 7, 2, 0, .plain, none, none⟩ ∧
    ((Test.cellOp (some 5)).stream 0 .load).pend = .sem ⟨.add, 0xFFFF00003, .cell 0 3, 7, 2, 0, .plain, none, some 5⟩ := by
  decide +kernel

/-- Table 10.3: SEMADD adds, and gives the old value. -/
theorem test_semadd :
    Test.next (exec (.semOpPerform (.stream 0 .load) false) (Test.cellOp none)) (fun t => t.cell 0 3 == 7) = true ∧
    Test.next (exec (.semOpResult 0 .load) (Test.cellOp (some 5))) (fun t => (t.core 0).load.s[7] == 5) = true := by
  decide +kernel

/-- LOAD holds at cell 3 since tick 0; the tick is 63 or 64. -/
def Test.semwt (now : Nat) : State :=
  { Test.core fun k => { k with load := { k.load with
      st := .otherWait, pend := .semwt ⟨0xFFFF00003, .cell 0 3, .eq, 7, 5, .plain, none⟩ } } with
    watches := [⟨0, .load, 0, 3, .eq, 5, some 0, 5⟩], tick := now }

theorem witness_Semaphores_hold :
    ((Test.semwt 64).watchOf 0 .load).any (fun q => q.since == some 0) = true ∧ 0 + 64 ≤ (Test.semwt 64).view 0 ∧
    (Test.semwt 63).view 0 < 0 + 64 ∧
    ((Test.semwt 63).stream 0 .load).pend = .semwt ⟨0xFFFF00003, .cell 0 3, .eq, 7, 5, .plain, none⟩ := by
  decide +kernel

theorem witness_FencesAndBarriers :
    Test.semaphores.guard .always = true ∧ Test.semaphores.cur.2 = .ctrl ∧ Spec.quiet Test.semaphores ∧
    Test.semaphores.curCore.barArr[barIdx .gang] = Test.semaphores.curCore.barOrd[barIdx .gang] ∧ releases (.rel .gang) = true := by
  unfold Spec.quiet Spec.quietOn
  decide +kernel

/-- A gang of one role at its first barrier. -/
def Test.barrier : State := Test.core fun k => { k with
  task := some Test.task, barArr := k.barArr.set 1 1, ctrl := { k.ctrl with st := .otherWait, pend := .bar .gang 0, len := 6 } }

theorem witness_FencesAndBarriers_complete :
    (Test.barrier.core 0).gated = false ∧ (Test.barrier.core 0).ctrl.pend = .bar .gang 0 ∧
    (Test.barrier.core 0).task = some Test.task ∧ Test.barrier.barDone Test.task .gang 0 = true := by
  decide +kernel

theorem test_bar : Test.next (exec (.barComplete 0) Test.barrier)
    (fun t => (t.core 0).ctrl.st == .running && (t.core 0).ctrl.pc == 6 && (t.core 0).barOrd[1] == 1) = true := by
  decide +kernel

/-! ## Witnesses: events in a core, the ends of nodes, the host's answers -/

/-- The module up, with nothing else. -/
def Test.up : State := { State.reset with boot := { State.reset.boot with stage := .up } }

theorem witness_CoreEvents_fetch :
    let s := Test.code .load [0x80, 0x59, 0x01, 0x08, 0x86, 0x00]
    (s.core 0).gated = false ∧ (s.core 0).canIssue .load = true ∧
    (match s.fetchFor 0 .load false with
      | .ok f => (match decodeAt .load f.word with
        | .instr i => i == .add .always 1 2 3
        | _ => false)
      | _ => false) = true := by
  decide +kernel

/-- LOAD waits for a count since tick 5; the tick is given. -/
def Test.deadlock (now : Nat) : State :=
  { Test.core fun k => { k with
      task := some Test.task, wdSince := some 5
      load := { k.load with st := .countWait }, exec := { k.exec with st := .countWait }
      store := { k.store with st := .ended }, ctrl := { k.ctrl with st := .ended } } with tick := now }

theorem witness_CoreEvents_watchdog :
    ((Test.deadlock 0).core 0).gated = false ∧ ((Test.deadlock 0).core 0).wdSince = some 5 ∧
    ((Test.deadlock 0).core 0).wdRuns = true ∧ (Test.deadlock (2 ^ 20 + 4)).view 0 < 5 + 2 ^ 20 ∧
    5 + 2 ^ 20 ≤ (Test.deadlock (2 ^ 20 + 5)).view 0 ∧ ((Test.deadlock 0).stream 0 .load).st = .countWait ∧
    Spec.code .load < Spec.code .exec := by
  decide +kernel

def Test.held : State := Test.core fun k => { k with held := [{ base := 0x12, x := .load, async := false, epc := 0x100, eaddr := 0, eword0 := 0, eword1 := 0, len := 4 }] }

theorem witness_CoreEvents_held :
    (Test.held.core 0).held.length = 1 ∧ (Test.held.core 0).hl = 0 ∧ (Test.held.core 0).ctrlEsc = false ∧
    (Test.held.core 0).ctrlBusy = false ∧ (Test.held.core 0).gated = false := by
  decide +kernel

def Test.key : NodeKey := ⟨1, 2, 0⟩

def Test.image : Image := ⟨0, 0, 1, 0x1000, 0x2000, 0x3000, 0x4000⟩

/-- A node of one role in partition 0. -/
def Test.node : Node where
  key := Test.key
  st := .dispatching
  part := 0
  pasid := 0
  prio := 0
  gsize := 1
  set := 0
  tag := 0
  img := Test.image
  readyAt := 0
  since := 0
  spent := 0
  aged := 0
  cores := [0]
  retired := []
  result := 0
  first := none
  draining := false
  saves := []
  writes := []
  domDie := 0
  domPkg := 0
  armed := false
  aband := false

/-- The four streams in one state. -/
def Test.streams (k : Core) (f : Stream → Stream) : Core :=
  { k with load := f k.load, exec := f k.exec, store := f k.store, ctrl := f k.ctrl }

/-- The task of `Test.task` with all streams ENDED, its node of n roles, RUNNING. -/
def Test.ended (n : Nat) : State :=
  { Test.core fun k => Test.streams { k with task := some { Test.task with gsize := n }, posted := 99 } fun (v : Stream) =>
      { v with st := .ended } with nodes := [{ Test.node with st := .running, gsize := n }] }

theorem witness_NodesEnd_role :
    ((Test.ended 2).core 0).task = some { Test.task with gsize := 2 } ∧ ((Test.ended 2).core 0).taskDone = true ∧
    ((Test.ended 2).core 0).gated = false ∧ ((Test.ended 2).node Test.key).isSome = true ∧ (([] : List Nat) ++ [0]).length ≠ 2 := by
  decide +kernel

theorem witness_NodesEnd_last :
    ((Test.ended 1).core 0).taskDone = true ∧
    ((Test.ended 1).node Test.key).any (fun n => n.retired.contains 0 == false && n.gsize == 1) = true := by
  decide +kernel

/-- R18, R330: the last role makes the node RETIRED with the posted word. -/
theorem test_retire : Test.next (exec (.taskRetire 0) (Test.ended 1))
    (fun t => (t.node Test.key).any (fun n => n.st == .retired && n.result == 99) && (t.core 0).task.isNone) = true := by
  decide +kernel

theorem witness_NodesEnd_abandon : ((Test.ended 1).node Test.key).any (fun n => n.key.queue == 1 && n.key.seq == 2) = true := by
  decide +kernel

/-- EXEC stopped by a bounds trap that CTRL has escalated. -/
def Test.escalated : State :=
  { Test.core fun k => { k with
      task := some Test.task, escal := [⟨⟨0x08, .exec, false, 0x100, 0, 0, 0, 6, false, 0, 0⟩, 0, 3⟩]
      exec := { k.exec with st := .stopped } } with
    nodes := [{ Test.node with st := .running }] }

theorem witness_HostAnswers :
    (Test.up.escalOf 0 (taskidOf Test.key) 0).isNone = true ∧
    (Test.escalated.escalOf 0 (taskidOf Test.key) 0).any (fun e => e.1 == 0 && e.2.trap.x == .exec && !e.2.trap.countLost &&
      !e.2.trap.async && e.2.trap.base == 0x08) = true ∧
    (Test.escalated.core 0).gated = false ∧ (Test.escalated.stream 0 .exec).st = .stopped ∧ (Test.escalated.core 0).held = [] ∧
    (Test.escalated.nodeOf 0).any (fun n => n.key == Test.key && !n.over) = true := by
  decide +kernel

/-- R339: SKIP goes on behind the trapped instruction. -/
theorem test_skip : Test.next (exec (.answerSkip 0 (taskidOf Test.key) 0) Test.escalated)
    (fun t => (t.core 0).exec.pc == 0x106 && (t.core 0).exec.st == .running && (t.core 0).escal == []) = true := by
  decide +kernel

/-! ## Witnesses: queues and the graph engine -/

/-- Queue 5: ring of 16 at 0x200000, all kinds allowed, gangs of up to 208, PRIO up to 7, bound to the physical function. -/
def Test.desc : BitVec 512 := BitVec.ofNat 512 (0x200000 + 4 * 2 ^ 64 + 7 * 2 ^ 72 + 15 * 2 ^ 80 + 208 * 2 ^ 96)

def Test.queue (f : Queue → Queue) : State :=
  { Test.up with queues := [(5, f { Queue.zero with desc := Test.desc, st := .active, qmap := 0x80000000 })] }

theorem witness_QueueEvents_notify :
    let s := Test.queue id
    let u := fun v => s.modQueue 5 fun (k : Queue) => { k with widx := v }
    (s.queue 5).qmap.getLsbD 31 = true ∧ (s.queue 5).pasid = 0 ∧ (s.queue 5).st = .active ∧
    ((u 16).queue 5).ringBad = none ∧ ((u 17).queue 5).ringBad = some 0x03 := by
  decide +kernel

theorem witness_QueueEvents_enable :
    (Test.up.queue 5).st = .disabled ∧ Test.up.mayEnable { (Test.up.queue 5) with desc := Test.desc } = true ∧
    Test.up.boot.stage ≠ .minimal := by
  decide +kernel

def Test.nop : BitVec 512 := 0
def Test.bad : BitVec 512 := 9
def Test.waitCmd : BitVec 512 := BitVec.ofNat 512 (2 + 0xFFFF00F05 * 2 ^ 128 + 5 * 2 ^ 192)
def Test.signal : BitVec 512 := BitVec.ofNat 512 (3 + 0xFFFF00F05 * 2 ^ 128 + 5 * 2 ^ 192)
def Test.launchCmd : BitVec 512 := BitVec.ofNat 512 (1 + 0x200400 * 2 ^ 64)

theorem witness_QueueEvents_packet :
    let s := Test.queue id
    (s.queue 5).cmd = none ∧ (s.queue 5).ringBad = none ∧ (s.queue 5).ridx = (s.queue 5).widx ∧
    s.cmdBad (s.queue 5) Test.nop = none ∧ s.cmdBad (s.queue 5) Test.bad = some 0x05 := by
  decide +kernel

def Test.withCmd (c : BitVec 512) : State := Test.queue fun (k : Queue) => { k with cmd := some c }

theorem witness_QueueCommands_wait :
    ((Test.withCmd Test.waitCmd).queue 5).st = .active ∧ Test.waitCmd.extractLsb' 0 8 = 2 ∧
    (physHandle (Test.waitCmd.extractLsb' 128 64)).isSome = true := by
  decide +kernel

theorem test_wait_blocks : Test.next (exec (.cmdWait 5) (Test.withCmd Test.waitCmd))
    (fun t => (t.queue 5).st == .blocked && (t.queue 5).cmd == none) = true := by
  decide +kernel

theorem witness_QueueCommands_halt :
    (match (Test.withCmd Test.launchCmd).graphCheck ((Test.withCmd Test.launchCmd).queue 5) (Test.launchCmd.extractLsb' 64 64).toNat with
      | .error (.halt c _ _) => c == 0x10
      | _ => false) = true := by
  decide +kernel

/-- A graph of one node with an image of partition 0, which has unit 0 and the tables of `Test.tables`. -/
def Test.graph : State :=
  let s := { Test.tables.writePhys 0 0x1239000 (leBytes 8 1 ++ leBytes 8 288 ++ leBytes 8 0x77 ++ leBytes 2 1) false with
    queues := [(5, { Queue.zero with desc := Test.desc, st := .active, cmd := some Test.launchCmd, qmap := 0x80000000 })] }
  { s with parts := s.parts.set 0 { s.part 0 with
      en := true, units := 1, shared := true, images := [{ Test.image with handle := 0x77 }] } }

theorem witness_QueueCommands_launch :
    (match Test.graph.graphCheck (Test.graph.queue 5) 0x1009000 with
      | .ok (ns, es) => ns.length == 1 && es.length == 0
      | _ => false) = true := by
  decide +kernel

/-- The ring's page for queue 5 with ring base 0x1008000, one command behind RIDX. -/
def Test.ring (c : BitVec 512) : State :=
  { Test.tables.writePhys 0 0x1238000 (leBytes 64 c.toNat) false with
    queues := [(5, { Queue.zero with
      desc := BitVec.ofNat 512 (0x1008000 + 4 * 2 ^ 64 + 7 * 2 ^ 72 + 15 * 2 ^ 80 + 208 * 2 ^ 96), st := .active, widx := 1, qmap := 0x80000000 })] }

theorem witness_QueueEvents_fetch :
    let k := (Test.ring Test.bad).queue 5
    k.ridx ≠ k.widx ∧ k.ringBad = none ∧ k.cmd = none ∧
    (match (Test.ring Test.bad).devRead k.part k.pasid (k.base + 64 * (k.ridx.toNat % 2 ^ k.log2)) 64 with
      | .ok bs => recordOf bs == Test.bad && (Test.ring Test.bad).cmdBad k (recordOf bs) == some 0x05
      | _ => false) = true := by
  decide +kernel

theorem witness_QueueCommands_unblock :
    ((Test.queue fun (k : Queue) => { k with st := .blocked, wait := some ⟨0, 3845, 5, true⟩ }).queue 5).st = .blocked := by
  decide +kernel

theorem witness_QueueCommands_signal :
    let s := Test.queue fun (k : Queue) => { k with signals := [⟨0, 3845, 5, 1⟩], launches := 2 }
    (s.queue 5).signals.length = 1 ∧ (s.core 0).gated = false ∧ s.launches = [] := by
  decide +kernel

/-- A launch of `Test.node`, which is over. -/
def Test.launched : State :=
  { Test.queue id with launches := [⟨1, 2, 0, some (0, 3845), 5, []⟩], nodes := [{ Test.node with st := .retired }] }

theorem witness_LaunchEvents_complete :
    Test.launched.launches.length = 1 ∧ (∀ n ∈ Test.launched.nodes, n.key.queue = 1 → n.key.seq = 2 → n.over = true) ∧
    Test.launched.cellGated (some (0, 3845)) = false := by
  decide +kernel

/-- R318: the add to the launch's cell. -/
theorem test_launch_complete : Test.next (exec (.launchComplete 1 2) Test.launched)
    (fun t => t.cell 0 3845 == 5 && t.nodes.isEmpty && t.launches.isEmpty) = true := by
  decide +kernel

/-- The node READY on queue 1 since tick 0, at tick 2^24. -/
def Test.aging : State :=
  { Test.up with nodes := [{ Test.node with st := .ready, cores := [] }], tick := 2 ^ 24 }

theorem witness_LaunchEvents_aging :
    (Test.aging.head 1).any (fun n => n.key == Test.key && decide (n.aged < Test.aging.readyTicks n / 2 ^ 24) && n.set == 0)
      = true := by
  decide +kernel

/-! ## Witnesses: gangs, slices and resets -/

/-- Two roles on cores 1 and 0, in partition 1 of slice group 2. -/
def Test.pair (st : NodeSt) : Node := { Test.node with st := st, part := 1, gsize := 2, cores := [1, 0] }

/-- Partition 1 of group 2, with room for two save areas, and its node. -/
def Test.gang (n : Node) : State := { Test.up with
  tick := 2000000, nodes := [n], groups := State.reset.groups.set 2 ⟨some 1, some 0, false, none, false, false⟩
  queues := [(1, { Queue.zero with st := .active, qmap := 0x80000003 })]
  parts := State.reset.parts.set 1 { Partition.zero with
    en := true, shared := true, group := 2, units := 1, slice := 10, saveBase := 0x10000000, saveSize := 0x4100000 } }

theorem witness_GangsStart :
    let s := Test.gang (Test.pair .dispatching)
    (s.node Test.key).any (fun n => n.first == none) = true ∧ s.unitReady (s.unitOf (Test.pair .dispatching)) = true ∧
    (s.nodes.map (·.key)).Nodup ∧ ((s.unitOf (Test.pair .dispatching)).flatMap (·.cores)).Nodup := by
  decide +kernel

/-- The same node, saved before. -/
theorem witness_GangsStart_restore :
    let n := { Test.pair .dispatching with first := some 0, saves := [Core.zero, Core.zero] }
    (Test.gang n).unitReady ((Test.gang n).unitOf n) = true := by
  decide +kernel

theorem test_gang_start : Test.next (exec (.gangStart Test.key) (Test.gang (Test.pair .dispatching)))
    (fun t => (t.core 1).ctrl.pc == 0x4000 && (t.core 0).ctrl.st == .running && (t.core 1).load.st == .idle &&
      (t.core 1).task.any fun d => d.role == 0 && d.gsize == 2) = true := by
  decide +kernel

/-- A successor of partition 1 in its group. -/
def Test.rival : State :=
  let s := Test.gang (Test.pair .running)
  { s with
    parts := s.parts.set 2 { Partition.zero with en := true, shared := true, group := 2, units := 1 }
    nodes := s.nodes ++ [{ Test.node with key := ⟨7, 0, 0⟩, st := .ready, part := 2, cores := [] }] }

theorem witness_SlicesAndDrain_slice :
    (Test.rival.groups[2]).holder = some 1 ∧ (Test.rival.groups[2]).start = some 0 ∧ (Test.rival.groups[2]).ending = false ∧
    0 + 1024 * (Test.rival.part 1).slice.toNat ≤ Test.rival.viewOf 1 ∧ Test.rival.partGated 1 = false ∧
    (Test.rival.part 1).group = 2 ∧ Test.rival.successor 2 1 = some 2 ∧ (Test.rival.part 1).retire = false ∧
    (Test.rival.nodes.filter fun n => n.part == 1 && n.st == .running).length = 1 ∧ Test.rival.freeRun 1 2 = some 0 ∧
    2 * areaSize ≤ (Test.rival.part 1).saveSize.toNat ∧ (Test.gang (Test.pair .running)).successor 2 1 = none := by
  decide +kernel

/-- The gang under DRAIN since tick 0, its streams as given. -/
def Test.draining (f : Core → Core) : State :=
  let s := Test.gang { Test.pair .running with draining := true, first := some 0 }
  let g (r : Nat) (k : Core) := f { k with
    drainSince := some 0, task := some { Test.task with part := 1, role := r, gsize := 2, binding := [1, 0] } }
  (s.modCore 0 (g 1)).modCore 1 (g 0)

theorem witness_SlicesAndDrain_withdraw :
    let s := Test.draining id
    (s.node Test.key).any (fun n => n.draining && n.part == 1) = true ∧ (s.groupOf 1).next = none ∧
    (s.core 0).saving = false ∧ (s.core 1).saving = false := by
  decide +kernel

theorem witness_SlicesAndDrain_hard :
    let s := Test.draining fun k => Test.streams k fun (v : Stream) => { v with st := .running }
    (s.core 0).gated = false ∧ (s.core 0).drainSince = some 0 ∧ 0 + 120000 ≤ s.view 0 ∧ (s.core 0).saving = false ∧
    (s.core 0).ctrl.hs = false ∧ (s.core 0).drainDone = false := by
  decide +kernel

theorem witness_SavesAndResets_drained :
    let s := Test.draining fun k => Test.streams k fun (v : Stream) => { v with st := .drainStop, at_ := true }
    (s.core 0).gated = false ∧ (s.nodeOf 0).any (fun n => n.first == some 0 && n.draining) = true ∧
    (s.core 0).saving = false ∧ (s.core 0).drainDone = true := by
  decide +kernel

theorem witness_SavesAndResets_saved :
    let s := Test.draining fun k => { k with saving := true }
    (s.node Test.key).any (fun n => n.first == some 0 && n.st == .running && n.cores == [1, 0]) = true ∧
    (s.core 0).saving = true ∧ (s.core 1).saving = true ∧ (s.core 1).gated = false := by
  decide +kernel

theorem witness_SavesAndResets_zeroing :
    ((Test.core fun k => { k with zeroing := true }).core 0).zeroing = true ∧
    ((Test.core fun k => { k with zeroing := true }).core 0).gated = false := by
  decide +kernel

theorem witness_SavesAndResets_host :
    Test.up.boot.stage ≠ .minimal ∧ 0 < 8 ∧
    ((inDram (0x1000 : BitVec 52).toNat || inHost (0x1000 : BitVec 52).toNat) && (inDram ((0x1000 : BitVec 52).toNat + 8 - 1) || inHost ((0x1000 : BitVec 52).toNat + 8 - 1))) = true := by
  decide +kernel

/-- R279, R349: a function-level reset removes the nodes of its queues. -/
theorem test_flr : Test.next (exec (.functionLevelReset 3) (Test.gang (Test.pair .running)))
    (fun t => (t.queue 1).st == .disabled && t.nodes.isEmpty) = true := by
  decide +kernel

/-! ## Witnesses: ports, links and packets -/

/-- The command of a kind under the context of partition 0: one page at 0x1008000 for PASID 0, to a frame at 0x2000000. -/
def Test.portCmd (kind : Nat) : PortCmd where
  kind := kind
  part := some 0
  ipa := false
  pasid := 0
  apn := 3
  addr := 0x1008000
  npg := 1
  handle := some (0, 3845)
  value := 5
  newpa := 0x2000000
  xf := 1
  plen := 0
  err := 0
  done := false
  drained := false
  oldPa := 0x1238000

/-- Port 2 with a command in progress, over the tables of `Test.tables`. -/
def Test.port (m : PortCmd) : State :=
  { Test.tables with
    boot := Test.up.boot
    ports := State.reset.ports.set 2 { Port.zero with busy := true, cur := some m } }

theorem witness_Ports_doors : Test.up.boot.stage ≠ .minimal ∧
    ({ Test.up with boot := { Test.up.boot with stage := .minimal } }.boot.stage) = .minimal := by
  decide +kernel

theorem witness_Ports_effects :
    ((Test.port (Test.portCmd 1)).ports[2]).cur.any (fun m => m.kind == 1 && m.err == 0 && !m.done && m.part == some 0) = true ∧
    Spec.inRange (Test.portCmd 1) 0x201 ∧ ¬ Spec.inRange (Test.portCmd 1) 0x202 := by
  unfold Spec.inRange
  decide +kernel

theorem witness_Ports_migrate :
    (Test.port (Test.portCmd 6)).migrateOk (Test.portCmd 6) 0 = true ∧
    (Test.port (Test.portCmd 6)).migrateOk { Test.portCmd 6 with npg := 2 } 0 = false := by
  decide +kernel

theorem witness_Ports_drain :
    let m := { Test.portCmd 1 with done := true }
    (Test.port m).drainable m = true ∧ (Test.port m).cellGated m.handle = false ∧
    (Test.port { m with err := 5 }).cellGated m.handle = false ∧
    ((Test.port { m with kind := 6, part := none }).ports[2]).cur.any (fun n => n.done && !n.drained && n.kind == 6) = true := by
  decide +kernel

/-- R363: the add of a command that has drained. -/
theorem test_port_drain : Test.next (exec (.portDrainComplete 2) (Test.port { Test.portCmd 1 with done := true }))
    (fun t => t.cell 0 3845 == 5 && !(t.ports[2]).busy && (t.ports[2]).cur.isNone) = true := by
  decide +kernel

theorem witness_Ports_copy :
    let m := { Test.portCmd 6 with done := true, drained := true }
    ((Test.port m).ports[2]).cur.any (fun n => n.kind == 6 && n.err == 0 && n.drained) = true ∧
    (Test.port m).cellGated m.handle = false := by
  decide +kernel

theorem witness_LinksAndPackets_links :
    (Test.up.fabric.links[3]).up = false ∧ ({ Test.up.fabric with keySwap := true }).keySwap = true ∧
    Test.up.boot.stage ≠ .minimal := by
  decide +kernel

theorem witness_LinksAndPackets_qmap :
    let s := Test.queue fun (k : Queue) => { k with qmap := 0x80000103 }
    (∃ r ∈ s.queues, r.1 ≠ (6 : BitVec 15).toNat ∧ (0x80000103 : BitVec 32).getLsbD 31 = true ∧ r.2.qmap.getLsbD 31 = true ∧
      r.2.qmap.extractLsb' 0 6 = (0x80000103 : BitVec 32).extractLsb' 0 6 ∧
      r.2.qmap.extractLsb' 8 9 = (0x80000103 : BitVec 32).extractLsb' 8 9) ∧
    (∀ r ∈ s.queues, r.1 ≠ (6 : BitVec 15).toNat → ¬ (r.2.qmap.extractLsb' 0 6 = (0x80000102 : BitVec 32).extractLsb' 0 6)) := by
  decide +kernel

/-- Device 7 has been heard up to sequence number 9, acknowledged. -/
def Test.peer : State :=
  { Test.up with fabric := { Test.up.fabric with rx := [(7, ⟨10, [], []⟩)], acks := [⟨7, 9, .ok 4⟩] } }

def Test.packet (seq : BitVec 32) : Packet := ⟨7, 0, 1, seq, true, false, .sem .ld 0 0 0⟩

theorem witness_LinksAndPackets_receive :
    let r := Test.peer.fabric.rxOf 7
    (Test.packet 9).dst = Test.peer.fabric.devid ∧ r.dup 9 = true ∧
    ((Test.peer.fabric.acks.find? fun a => a.dev == 7 && a.seq == 9).isSome) = true ∧
    r.dup 4106 = false ∧ 4096 ≤ (4106 - r.next).toNat ∧ r.dup 4105 = false ∧ ((4105 : BitVec 32) - r.next).toNat < 4096 ∧
    r.window.length < 4096 ∧ r.waiting = [] ∧ Test.peer.fabric.keyPart 1 = none := by
  decide +kernel

/-- LOAD waits for the answer of device 7 to packet 5. -/
def Test.remote : State :=
  let s := Test.core fun k => { k with load := { k.load with
    pend := .sem ⟨.ld, 0x700003, .remote 7, 7, 0, 0, .plain, some 5, none⟩ } }
  { s with fabric := { s.fabric with out := [⟨⟨0, 7, 0, 5, true, false, .sem .ld 0 0 0⟩, 0, .sem 0 .load, none, .sem .ld 0 0 0, 0⟩] } }

theorem witness_LinksAndPackets_ack :
    (Test.remote.fabric.outPkt 7 5).any (fun o => o.ack.isNone && Test.remote.awaited o) = true := by
  decide +kernel

/-! ## Witnesses: the start, partitions, banks, errors and power -/

/-- A configuration record of version 3, with 104 cores in service on each die and no trims. -/
def Test.record : List Byte :=
  [0x43, 0x46, 0x47, 0x31] ++ leBytes 4 3 ++ leBytes 16 (2 ^ 104 - 1) ++ leBytes 16 (2 ^ 104 - 1) ++ leBytes 8 0x70 ++ leBytes 64 0

/-- The same record holds but for its signature, and the signatures of the other items, which are the vendor's. -/
theorem witness_ModuleStart_accepted :
    Test.record.take 4 = [0x43, 0x46, 0x47, 0x31] ∧ 0x70 ≤ Test.record.length ∧ 1 ≤ leNat ((Test.record.drop 4).take 4) ∧
    (Test.up.boot.svnFloor).toNat ≤ leNat ((Test.record.drop 4).take 4) ∧
    onesBelow (.ofNat 128 (leNat ((Test.record.drop 8).take 16))) 128 = 104 ∧
    onesBelow (.ofNat 128 (leNat ((Test.record.drop 24).take 16))) 128 = 104 := by
  decide +kernel

/-- Where the vendor's key verifies the three items, a start accepts them. -/
theorem witness_ModuleStart_items (verifies : ∀ h sig, Config.vendorVerifies h sig = true) :
    Spec.accepted_ ⟨⟨[1], 0⟩, Test.record, ⟨[2], 0⟩⟩ Test.up.boot.svnFloor :=
  ⟨verifies _ _, verifies _ _, verifies _ _, by decide +kernel, by decide +kernel, by decide +kernel, by decide +kernel,
    by decide +kernel, by decide +kernel⟩

theorem witness_ModuleStart_fails (refuses : Config.vendorVerifies (Config.sm3 []) 0 = false) :
    ({ Test.up.boot with flash := ⟨⟨[], 0⟩, [], ⟨[], 0⟩⟩ }.install.flash.monitor).ok = false := refuses

/-- A third start, of a module powered at tick 0, waits for READY, until the tick given. -/
def Test.starting (now : Nat) : State :=
  { State.reset with tick := now, boot := { Boot.zero with stage := .awaitReady, fails := 3, items := some ⟨true⟩ } }

theorem witness_ModuleStart_timeout :
    (Test.starting 0).boot.items.isSome = true ∧ (Test.starting 20000000000).tick ≤ (Test.starting 0).boot.powered + 20000000000 ∧
    (Test.starting 0).boot.powered + 20000000000 < (Test.starting 20000000001).tick ∧
    3 ≤ (Test.starting 0).boot.fails.toNat ∧ (Test.starting 0).boot.stage = .awaitReady := by
  decide +kernel

/-- R385: READY counts up to 20,000,000,000 ticks after power-on. -/
theorem test_ready : Test.next (exec .ovoneReady (Test.starting 20000000000)) (fun t => t.boot.stage == .up && t.boot.fails == 0) =
    true := by
  decide +kernel

/-- R388: the third failed start ends in minimal mode. -/
theorem test_ready_timeout : Test.next (exec .readyTimeout (Test.starting 20000000001))
    (fun t => t.boot.stage == .minimal && t.boot.reason == 5) = true := by
  decide +kernel

theorem witness_ModuleStart_attest :
    Test.up.boot.stage ≠ .minimal ∧ ((0 : BitVec 6) = 0 ∨ (3 : BitVec 16).toNat = (Test.up.fnPart 0).val) ∧
    ({ Test.up with attests := [⟨0, 0, 1, 0, 0, 2, 3⟩] }).attests.length = 1 ∧ Test.up.mboxes[(0 : BitVec 6).toNat].heldBack = [] ∧
    (Test.up.mboxes[(0 : BitVec 6).toNat].mbwr - Test.up.mboxes[(0 : BitVec 6).toNat].mbrd).toNat ≤ 57 := by
  decide +kernel

/-- Partition 3 with units 1 and 14, and its record as changed. -/
def Test.part (f : Partition → Partition) : State :=
  Test.up.modPart 3 fun _ => f { Partition.zero with units := 0x4002, share0 := 40, share1 := 60, depth := 500 }

theorem witness_Partitions_enable :
    let s := Test.part id
    (s.part 3).en = false ∧ (s.part 3).units ≠ 0 ∧ (∀ q, (s.part q).en = false) ∧
    s.shareSum 3 false + (s.partRecord 3).share0.toNat ≤ 100 ∧ s.shareSum 3 true + (s.partRecord 3).share1.toNat ≤ 100 ∧
    (s.part 3).key = none ∧ ((Test.part fun r => { r with key := some 1 }).part 3).key ≠ none ∧
    ¬ ((Test.part fun r => { r with share1 := 101 }).shareSum 3 true +
      ((Test.part fun r => { r with share1 := 101 }).partRecord 3).share1.toNat ≤ 100) := by
  decide +kernel

/-- A core whose clocks stand with an instruction of partition 3 in its cache. -/
theorem witness_Partitions_gatedLine :
    let s := (Test.part fun r => { r with key := some 1 }).modCore 4 fun k => { k with
      gated := true, icache := [⟨3, 0, false, ⟨0, 0, 4⟩⟩] }
    (s.core 4).gated = true ∧ (s.core 4).icache.any (fun l => l.part == 3) = true ∧ (s.part 3).key ≠ none := by
  decide +kernel

theorem witness_Partitions_disable :
    ((Test.part fun r => { r with en := true, key := some 1 }).part 3).en = true ∧
    ((Test.part fun r => { r with en := true, key := some 1 }).part 3).key ≠ none := by
  decide +kernel

/-- R390, R394: a record with units free and shares within bounds is enabled with a key of its own. -/
theorem test_enable : Test.next (exec (.partitionEnable 3) (Test.part id)) (fun t => (t.part 3).en && (t.part 3).key.isSome) = true := by
  decide +kernel

theorem witness_Partitions_alone :
    let s := Test.part fun r => { r with en := true }
    s.ticked[0] ≤ s.tick ∧ s.ticked[0] = s.tick ∧ ({ s with ticked := Vector.replicate 2 1 }).tick < 1 ∧
    (∀ q, q ≠ 3 → (s.part q).en = false) ∧ s.nodes = [] ∧ ((s.part 3).units).extractLsb' 0 13 ≠ 0 := by
  decide +kernel

/-- A store of a tile to 32 rows of memory, 64 granules. -/
def Test.rowsStore : StoreRec :=
  ⟨0, .tst 0 0, (List.range 32).map fun r => ⟨BitVec.ofNat 51 (0x10000 + 128 * r), .phys (0x10000 + 128 * r)⟩, 0⟩

/-- Two cores of the partition with a store each under way. -/
def Test.busyPart : State :=
  ((Test.part fun r => { r with en := true, tok0 := 10 }).modCore 8 fun k => { k with
    task := some { Test.task with part := 3 }
    store := { k.store with stores := [Test.rowsStore] } }).modCore 9 fun k => { k with
    task := some { Test.task with part := 3 }
    store := { k.store with stores := [Test.rowsStore] } }

/-- R398: 10 tokens and a share of 40 serve 50 of the 128 granules that wait, and none is left; the first store of 64 granules, on
core 9, which comes first this tick, has 50 of them, and that of core 8 none. -/
theorem test_bandwidth : Test.next (exec (.bandwidthTick false [9]) Test.busyPart)
    (fun t => (t.part 3).tok0 == 0 && t.ticked[0] == 1 && Test.busyPart.waiting false 3 == 128 &&
      t.injectedOf (.store 9 .store 0) == 50 && t.injectedOf (.store 8 .store 0) == 0) = true := by
  decide +kernel

/-- Bank 64 with an owner and its registers as changed. -/
def Test.bank (f : MBank → MBank) : State := Test.up.modBank 64 f

theorem witness_Banks_owners :
    ¬ (1 ≤ (64 : BitVec 7).toNat ∧ (64 : BitVec 7).toNat ≤ 63) ∧ (1 ≤ (63 : BitVec 7).toNat ∧ (63 : BitVec 7).toNat ≤ 63) ∧
    ((Test.bank fun k => { k with owner := 0x7F }).bank 64).owner = 0x7F ∧ (Test.up.bank 64).owner = 0 ∧
    (Test.up.bank 64).claimed ≠ some Test.up.tick ∧ Test.up.boot.stage ≠ .minimal ∧
    ((Test.bank fun k => { k with owner := 5 }).bank 64).owner = (5 : BitVec 6).setWidth 7 := by
  decide +kernel

/-- R400: a claim of the physical function in the tick of a virtual function's. -/
theorem test_claims : Test.next (exec (.bclaimClaim 5 64 false) Test.up) (fun t =>
    (t.bank 64).owner == 5 && (t.fns[5]).bclaim == 0 && Test.next (exec (.bankownWrite 64 0x7F) t) fun u =>
      (u.bank 64).owner == 0x7F && (u.fns[5]).bclaim == 1 && u.mboxes == t.mboxes) = true := by
  decide +kernel

theorem witness_Banks_registers :
    (Test.bank fun k => { k with owner := 0x7F }).ownsBank 0 64 = true ∧ (0x0102 : Word).extractLsb' 0 2 ≠ 3 ∧
    (0x0103 : Word).extractLsb' 0 2 = 3 ∧ (Test.bank fun k => { k with owner := 5 }).ownsBank 0 64 = false := by
  decide +kernel

theorem witness_Banks_stop :
    let s := Test.bank fun k => { k with arm := true, act := true }
    (s.bank 64).arm = true ∧ (s.bank 64).stoptick.toNat ≤ s.bankView (s.bank 64) ∧ (Test.up.bank 64).arm = false := by
  decide +kernel

/-- A bank that samples, with one request complete and one that LOAD still has under way. -/
def Test.sampling (f : MBank → MBank) : State :=
  (Test.bank fun k => f { k with
    owner := 0x7F, mode := 2, pend := [⟨.load 0 4, 1, none⟩, ⟨.load 0 3, 7, some (9, 9)⟩], tlog2 := 6, tbase := 0x10000 }).modCore 0 fun k =>
      { k with loads := [⟨4, 9, 1, none, [], none, 0⟩] }

theorem witness_Banks_samples :
    let s := Test.sampling fun k => { k with twr := 64 }
    (s.bank 64).mode = 2 ∧ (s.bank 64).pend = [⟨.load 0 4, 1, none⟩] ++ ⟨.load 0 3, 7, some (9, 9)⟩ :: [] ∧
    s.reqDone (.load 0 4) = false ∧ s.reqDone (.load 0 3) = true ∧
    2 ^ (s.bank 64).tlog2.toNat < ((s.bank 64).twr + 1 - (s.bank 64).trd).toNat ∧
    ¬ 2 ^ ((Test.sampling id).bank 64).tlog2.toNat < (((Test.sampling id).bank 64).twr + 1 - ((Test.sampling id).bank 64).trd).toNat := by
  decide +kernel

/-- R415: the sample that finds the buffer full is dropped and counted; one that finds room is written with its first byte. -/
theorem test_sample_dropped : Test.next (exec (.sampleRecord 64 0) (Test.sampling fun k => { k with twr := 64 }))
    (fun t => (t.bank 64).tovf && (t.bank 64).tdrop == 1 && (t.bank 64).twr == 64) = true := by
  decide +kernel

theorem test_sample_written : Test.next (exec (.sampleRecord 64 0) (Test.sampling id))
    (fun t => (t.bank 64).twr == 1 && t.gmem.mem.bytes.read 0x10000 == 7 && (t.bank 64).pend.length == 1) = true := by
  decide +kernel

/-- Bank 64 of the physical function records the node, which runs on core 0; period 1 tick, at tick 8, an area of n bytes. -/
def Test.leapfrog (n : Nat) (f : MBank → MBank) : State :=
  let s := Test.bank fun k => f { k with
    owner := 0x7F, lfctl := 1, lflen := BitVec.ofNat 64 n, lf := { k.lf with key := some Test.key } }
  { s with nodes := [{ Test.node with st := .running }], tick := 8 }

theorem witness_LeapfrogEvents_checkpoint :
    let s := Test.leapfrog 0 id
    (s.lfNode (s.bank 64)).any (fun n => decide (s.checkDue (s.bank 64) n ≤ s.viewOf n.part) &&
      !(s.bank 64).room n 0 && n.cores == [0]) = true ∧
    (s.bank 64).records = true ∧ (s.core 0).gated = false ∧ (s.bank 64).lf.copying = none ∧
    ((Test.leapfrog (2 * areaSize) id).bank 64).room { Test.node with st := .running } 0 = true := by
  decide +kernel

/-- A checkpoint since a tick. -/
def Test.copying (t : Nat) : State :=
  Test.leapfrog (2 * areaSize) fun k => { k with lf := { k.lf with copying := some (t, [0]) } }

theorem witness_LeapfrogEvents_copying :
    (Test.copying 8).tick ≤ 8 ∧ 7 < (Test.copying 7).tick ∧ ((Test.copying 7).bank 64).lf.copying = some (7, [0]) ∧
    ((Test.copying 7).lfNode ((Test.copying 7).bank 64)).isSome = true := by
  decide +kernel

/-- R419: a checkpoint gates the gang from its tick on; it is kept, and the gang goes on, in a later one. -/
theorem test_checkpoint :
    Test.next (exec (.leapfrogCheckpoint 64) (Test.leapfrog (2 * areaSize) id)) (fun t => (t.core 0).gated &&
      (t.bank 64).lf.checks.isEmpty) = true ∧
    Test.next (exec (.leapfrogCheckpoint 64) (Test.copying 7)) (fun t => !(t.core 0).gated &&
      (t.bank 64).lf.checks.length == 1) = true := by
  decide +kernel

theorem witness_LeapfrogEvents_held :
    let s := Test.bank fun k => { k with owner := 0x7F, held := true }
    s.ownsBank 0 64 = true ∧ (s.bank 64).held = true ∧ s.lfNode (s.bank 64) = none ∧ (s.bank 64).lf.resume = none := by
  decide +kernel

/-- A moment of the gang. -/
def Test.moment (t : Nat) : Snapshot := ⟨t, [(0, Core.zero)], [], []⟩

theorem witness_LeapfrogEvents_leap :
    let s (n : Nat) := Test.leapfrog 0 fun k => { k with
      held := true, lf := { k.lf with checks := [(Test.moment n, [])], issues := [(0, .load, 6)] } }
    ((s 2).lfNode ((s 2).bank 64)).any (fun n => n.cores.head? == some 0 && (s 2).viewOf n.part == 8) = true ∧
    lastIssue 0 .load 8 ((s 2).bank 64).lf.issues = some 6 ∧ lastIssue 0 .exec 8 ((s 2).bank 64).lf.issues = none ∧
    ((s 2).bank 64).lf.full = false ∧ (Test.moment 2).tick < 6 ∧ (Test.moment 2).tick ≤ (s 2).tick ∧ 6 ≤ (Test.moment 6).tick ∧
    ((Test.moment 2).cores.map (·.1)).Nodup ∧ (s 2).ownsBank 0 64 = true := by
  decide +kernel

/-- R420: after a leap the gang's view stands at the checkpoint, to be replayed up to the instruction. -/
theorem test_leap :
    Test.next (exec (.leap 0 64 .load true) (Test.leapfrog 0 fun k => { k with
      held := true, lf := { k.lf with checks := [(Test.moment 2, [])], issues := [(0, .load, 6)] } }))
      (fun t => ((t.bank 64).lf.resume.any fun r => r.leapTo == some 6 && r.start.any fun p => p.tick == 2) &&
        (t.replayStep 64).viewOf 0 == 2) = true := by
  decide +kernel

/-- A leap whose checkpoint is to be put back next. -/
def Test.leaping : State := Test.leapfrog 0 fun k => { k with
  lf := { k.lf with resume := some ⟨[0], some (Test.moment 2), [], some 6, 8⟩ } }

theorem witness_LeapfrogEvents_start :
    (Test.leaping.lfNode (Test.leaping.bank 64)).isSome = true ∧
    (Test.leaping.bank 64).lf.resume.any (fun r => r.start.any fun p => decide (p.tick ≤ Test.leaping.tick)) = true ∧
    ((Test.moment 2).cores.map (·.1)).Nodup ∧ (Test.copying 7).lfWaits { Test.node with st := .running } = false := by
  decide +kernel

/-- A replay under a gate that holds the gang. -/
theorem witness_LeapfrogEvents_gated :
    let s := Test.leapfrog 0 fun k => { k with held := true, lf := { k.lf with resume := some ⟨[0], none, [], some 6, 8⟩ } }
    (s.bank 64).held = true ∧ (s.bank 64).lf.resume.any (fun r => r.cores == [0]) = true ∧ s.holdsCore (s.bank 64) 0 = true := by
  decide +kernel

theorem witness_LeapfrogEvents_diverge :
    ((Test.bank fun k => { k with lf := { k.lf with resume := some ⟨[0], none, [], none, 9⟩ } }).bank 64).lf.resume.isSome = true := by
  decide +kernel

/-- A replay of a leap to tick 6 whose next input came at tick 4. -/
def Test.astray : State := Test.leapfrog 0 fun k => { k with
  lf := { k.lf with resume := some ⟨[0], none, [⟨Test.moment 4, true, none, 0⟩], some 6, 8⟩ } }

theorem witness_LeapfrogEvents_astray :
    let s := Test.astray
    (s.bank 64).lf.resume.any (fun r => r.leapTo.isSome && decide (r.next ≤ s.tick)) = true ∧ (s.lfNode (s.bank 64)).isSome = true := by
  decide +kernel

/-- R421: it gates core 0, and no other core that the bank covers, with the view at tick 4. -/
theorem test_diverge : Test.next (exec (.replayDiverge 64) Test.astray)
    (fun t => (t.core 0).gated && !(t.core 1).gated && t.viewOf 0 == 4 && (t.bank 64).diverged) = true := by
  decide +kernel

theorem witness_ErrorsAndPower_regions :
    (regionOf (64 * (0 : BitVec 46).toNat)).isSome = true ∧ (regionOf (64 * (0x4000000000 : BitVec 46).toNat)).isSome = true ∧
    (regionOf (64 * (0x200000000000 : BitVec 46).toNat)).isNone = true ∧ inHost (64 * (0x200000000000 : BitVec 46).toNat) = true := by
  decide +kernel

theorem witness_ErrorsAndPower_offline :
    let s := Test.core fun k => { k with worn := true, mismatches := [2 ^ 31, 5, 0] }
    (s.core 0).offline = false ∧ (s.core 0).task = none ∧ (s.heldBy 0).isNone = true ∧ (s.core 0).worn = true := by
  decide +kernel

/-- R405: three mismatches within 2^31 ticks, and no more. -/
theorem test_worn :
    (({ Test.core fun k => { k with mismatches := [5, 0] } with tick := 2 ^ 31 }.mismatch 0 .scalar 0).core 0).worn = true ∧
    (({ Test.core fun k => { k with mismatches := [5, 0] } with tick := 2 ^ 31 + 1 }.mismatch 0 .scalar 0).core 0).worn = false := by
  decide +kernel

theorem test_core_offline : Test.next (exec (.coreOffline 0) (Test.core fun k => { k with worn := true }))
    (fun t => (t.core 0).offline) = true := by
  decide +kernel

theorem witness_ErrorsAndPower_power :
    let s := { Test.up with tick := 2000000, power := { Test.up.power with junctions := #v[0, 0, 0, 115, 0, 0, 0, 0] } }
    (∃ j ∈ s.power.junctions.toList, 115 ≤ j) ∧ s.power.stopped = false ∧ s.power.tcap = false ∧
    s.power.plim.toNat < (2401 : BitVec 12).toNat ∧ 10 * (2401 : BitVec 12).toNat ≤ 11 * s.power.plim.toNat ∧
    s.power.sampledAt.getD s.boot.powered + 2000 ≤ s.tick ∧ s.power.sensedAt.getD s.boot.powered + 2000000 ≤ s.tick ∧
    Test.up.tick < Test.up.power.sampledAt.getD Test.up.boot.powered + 2000 ∧ s.power.recent = [] ∧
    100 * (2279 : BitVec 12).toNat < 95 * s.power.plim.toNat ∧ ¬ 100 * (2280 : BitVec 12).toNat < 95 * s.power.plim.toNat := by
  decide +kernel

/-- The module with a limit of 2,000 W at a tick, and the samples before, each with its tick and its limit. -/
def Test.drawn (recent : List (Nat × Nat × Nat)) : State :=
  { Test.up with tick := 2000, power := { Test.up.power with plim := 2000, recent := recent } }

/-- R422: 10 % above the limit may be drawn at once, not again where the controller has seen a draw above it, nor where the average of
the last 2,000,000 ticks would pass the limit: 999 samples of 2,001 W leave 1,001 W, and one before them counts no more. -/
theorem test_power_limit :
    let takes (s : State) (w : BitVec 12) := Test.next (exec (.powerSample w) s) fun t => t.power.sampledAt == some 2000
    takes (Test.drawn []) 2200 = true ∧ takes (Test.drawn []) 2201 = false ∧ takes (Test.drawn [(0, 2001, 2000)]) 2001 = false ∧
      takes (Test.drawn [(0, 2001, 2000)]) 2000 = true ∧ takes (Test.drawn (List.replicate 999 (0, 2001, 2000))) 1001 = true ∧
      takes (Test.drawn (List.replicate 999 (0, 2001, 2000))) 1002 = false ∧
      Test.next (exec (.powerSample 2000) { Test.drawn (List.replicate 999 (0, 2400, 2000)) with tick := 2000000 }) (fun t =>
        t.power.sampledAt == some 2000000) = true := by
  decide +kernel

theorem witness_ErrorsAndPower_caps :
    (∃ j ∈ (#v[0, 104, 0, 0, 0, 0, 0, 0] : Vector Nat 8).toList, 100 ≤ j) ∧
    (∀ j ∈ (#v[0, 104, 0, 0, 0, 0, 0, 0] : Vector Nat 8).toList, j < 105) ∧
    (∀ j ∈ (#v[0, 99, 0, 0, 0, 0, 0, 0] : Vector Nat 8).toList, j < 100) := by
  decide +kernel

/-- R406: the scrub of a region at its last granule; with nothing counted it is not due. -/
theorem witness_ErrorsAndPower_scrub :
    regionSize 0 ≤ 64 * (0x3FFFFFFF + 1) ∧ 64 * (0x3FFFFFFE + 1) < regionSize 0 ∧ ScrubRegion.zero.due 0 0 = false ∧
    { ScrubRegion.zero with lag := granuleCost }.due 0 1999 = true := by
  decide +kernel

theorem witness_RegisterWrites :
    ((Test.part fun r => { r with en := true }).part 3).en = true ∧ ((Test.part id).part 3).en = false ∧
    100 < (Test.part fun r => { r with en := true }).shareSum 3 false + (101 : BitVec 8).toNat ∧
    (0x3 : BitVec 8).getLsbD 1 ≠ ((Test.part fun r => { r with en := true }).part 3).shared ∧
    Test.up.fabric.routeBank = false ∧ Test.up.boot.stage ≠ .minimal ∧ Test.up.ownsBank 5 64 = false := by
  decide +kernel

/-! ## Witnesses of further clauses -/

theorem witness_StepRunsDecoded_due :
    Test.program.due.isNone = true ∧ Test.program.deadline 0 = none ∧ Test.program.stalls (.issue 0 .load false) (exec (.nop .always) Test.program) = false ∧
    isLate (exec (.nop .always) Test.program) = false ∧
    isLate (.next ((Test.program.takeTurn (.array 0) 3).takeTurn (.array 0) 1)) = true ∧
    ({ Test.program with tick := 5 }.modBank 64 fun k => { k with owner := 0x7F, arm := true, stoptick := 5 }).due.isSome = true ∧
    ({ Test.program with tick := 5 }.modBank 64 fun k => { k with owner := 0x7F, arm := true, stoptick := 8 }).deadline 9 = some 3 := by
  decide +kernel

theorem witness_WatchdogInvariant_keeps :
    ((Test.deadlock 9).core 0).wdRuns = true ∧ ((Test.deadlock 9).core 0).wdSince = some 5 ∧
    (((Test.deadlock 9).core 0).upkeep 9).wdSince = some 5 ∧
    ({ ((Test.deadlock 9).core 0) with wdSince := none }.upkeep 9).wdSince = some 9 := by
  decide +kernel

theorem witness_MemoryStaysCanonical :
    Test.program.memWf = true ∧ Test.next (step Test.program) (fun t => t.memWf) = true := by decide +kernel

theorem witness_DecodeFaults_pair :
    decodeBytes [0x80, 0x59, 0x01, 0x08, 0x86, 0x00] = some (.add .always 1 2 3, 6) ∧ (Test.edge.core 0).gated = false := by
  decide +kernel

/-! ### The write of R29 -/

theorem witness_emptyWrite :
    let s := Test.at .load fun k => Test.vectors k
    s.guard (.on true 0) = false ∧ s.curCore.loads = [] ∧ s.curStream.stores = [] ∧ Spec.writable (s.curCore.cnt (.tile 9)) ∧
    Spec.writable (s.curCore.cnt (.sig 4)) ∧ Spec.writable (s.curCore.cnt (.acc 2)) ∧ Spec.quiet s := by
  unfold Spec.writable Spec.quiet Spec.quietOn
  decide +kernel

/-- R29, R37: a tile load guarded false advances its count and declares its readers, and nothing is loaded. -/
theorem test_tld_off : Test.next (exec (.tld (.on true 0) ⟨9, 2⟩ 5 0 0) (Test.at .load Test.vectors))
    (fun t => t.curCore.tiles[9].cnt == ⟨1, 2, false, false, false⟩ && t.curCore.loads == [] && t.pc == 0x7FFFFFC000004) = true := by
  decide +kernel

/-- The same of a pump command, of NGO and of an MMA. -/
theorem test_engines_off :
    Test.next (exec (.pcopy (.on true 0) ⟨4, 1⟩ .plain 5 6 9 6) (Test.at .load Test.vectors))
      (fun t => t.curCore.sigs[4].cnt == ⟨1, 1, false, false, false⟩ && t.curCore.pumpq == []) = true ∧
    Test.next (exec (.ngo (.on true 0) ⟨4, 1⟩ .plain) (Test.at .ctrl Test.vectors))
      (fun t => t.curCore.sigs[4].cnt == ⟨1, 1, false, false, false⟩ && t.curCore.aq == []) = true ∧
    Test.next (exec (.mma (.on true 0) ⟨2, 1⟩ ⟨1, .any⟩ none none .i8 0 0 none false) (Test.at .exec Test.vectors))
      (fun t => t.curCore.accs[2].cnt == ⟨1, 1, false, false, false⟩ && t.curCore.aq == []) = true := by
  decide +kernel

theorem witness_PredicatedOff_geometry :
    (Spec.geom Test.points (.orient2 (.on true 0) ⟨20, 1⟩ ⟨0, .any⟩ ⟨2, .any⟩ ⟨4, .any⟩)).any (fun r => !Test.points.guard r.1) = true := by
  decide +kernel

theorem witness_PredicatedOff_parked :
    Test.parked.guard (.on true 0) = false ∧ Spec.quiet Test.parked ∧ Spec.writable (Test.parked.curCore.cnt (.sig 4)) := by
  unfold Spec.quiet Spec.quietOn Spec.writable
  decide +kernel

/-! ### Addresses that are turned away -/

/-- LOAD with s7 = 0x10000, whose page lies in host memory; the host's answer, if any. -/
def Test.hosted (ats : List AtsEntry) : State :=
  { Test.loading.modCore 0 fun k => { k with tlb := [⟨0, 0, 2, 1, 0x1000000002, 2, true, true, false, false⟩] } with ats := ats }

theorem witness_ScalarAccess_host :
    Test.unitCase ((Test.hosted []).checkUnit (Spec.access (Test.hosted []) .read 8 false true) (Spec.ea (Test.hosted []) 7 0)) = 3 ∧
    Test.unitCase ((Test.hosted [⟨0, 0, 0x1000000002, true⟩]).checkUnit (Spec.access (Test.hosted []) .read 8 false true)
      (Spec.ea (Test.hosted []) 7 0)) = 1 ∧
    Test.unitCase ((Test.hosted [⟨0, 0, 0x1000000002, false⟩]).checkUnit (Spec.access (Test.hosted []) .read 8 false true)
      (Spec.ea (Test.hosted []) 7 0)) = 0x120 := by
  decide +kernel

/-- Stage 2 of partition 0, whose root table at 0x6000000 is poisoned, and an aperture over address 0x10000. -/
def Test.poisonedTable : State :=
  let s := { Test.loading with gmem := { Test.loading.gmem with mem := Test.loading.gmem.mem.mark (0x6000000 / 64) true } }
  s.modPart 0 fun r => { r with s2en := true, s2root := 0x6000000, apert := r.apert.set 0 (some ⟨0x10000, 0x8000, 0x20000, .identity⟩) }

theorem witness_ScalarAccess_poison :
    Test.unitCase (Test.poisonedTable.checkUnit (Spec.access Test.poisonedTable .read 8 false true) (Spec.ea Test.poisonedTable 7 0)) =
      4 := by
  decide +kernel

/-- A MIGRATE of an IPA that has drained nothing yet. -/
def Test.moving : PortCmd where
  kind := 6
  part := some 0
  ipa := true
  pasid := 0
  apn := 0
  addr := 0x4008000
  npg := 1
  handle := none
  value := 0
  newpa := 0x2000000
  xf := 0
  plen := 0
  err := 0
  done := true
  drained := false
  oldPa := 0

/-- The tables of partition 0 with one entry's granule poisoned. -/
def Test.badTables : State :=
  { Test.tables with gmem := { Test.tables.gmem with mem := Test.tables.gmem.mem.mark (0x4011008 / 64) true } }

/-- A page of partition 0's tables on the move, under stage 2. -/
def Test.movingTables : State :=
  ({ Test.tables with ports := Test.tables.ports.set 1 { Port.zero with busy := true, cur := some Test.moving } }).modPart 0 fun r =>
    { r with s2en := true, s2root := 0x4000000 }

theorem witness_WalkAndPageAnswer_tables :
    let x : TransCtx := ⟨0, 0, false, .write⟩
    (match Test.tables.walk x 0x1008040 with
      | .ok _ => true
      | _ => false) = true ∧
    (match Test.badTables.walk x 0x1008040 with
      | .poison pa => pa == 0x4011008
      | _ => false) = true ∧
    (match Test.movingTables.stage2 0 .read false 0x4008000 with
      | .blocked => true
      | _ => false) = true := by
  decide +kernel

theorem witness_ScalarAccess_loads :
    ((Test.storeTo (.cistern 0x10)).core 0).loads = [] ∧ Test.tileStoring.curCore.loads = [] ∧
    Spec.quietOn (Test.returning true) 0 .exec := by
  unfold Spec.quietOn
  decide +kernel

/-! ### The array -/

/-- EXEC and CTRL held before a full array queue. -/
def Test.heldAtArray (n : Nat) : State :=
  Test.core fun k => { k with
    aq := List.replicate n (.wclr 0x100)
    exec := { k.exec with st := .running, pend := .array (.wclr 0x200) [] }
    ctrl := { k.ctrl with st := .running, pend := .array (.nest (Test.nest 0x10000 0)) [] } }

theorem witness_LatchCommands_room :
    ((Test.heldAtArray 3).stream 0 .exec).pend = .array (.wclr 0x200) [] ∧ ((Test.heldAtArray 3).core 0).aq.length < 4 ∧
    ¬ ((Test.heldAtArray 4).core 0).aq.length < 4 ∧ ((Test.heldAtArray 3).core 0).exec.atArray = true ∧
    ((Test.heldAtArray 3).modStream 0 .exec fun v => { v with pend := .none }).curCore.exec.atArray = false := by
  decide +kernel

/-- R168: EXEC enters, and CTRL's nest waits behind it. -/
theorem test_array_room :
    Test.next (exec (.arrayQueueRoom 0 .exec) (Test.heldAtArray 3)) (fun t => (t.core 0).aq.length == 4) = true ∧
    Test.next (exec (.arrayQueueRoom 0 .ctrl) (Test.heldAtArray 3)) (fun t => (t.core 0).aq.length == 3) = true := by
  decide +kernel

theorem witness_LatchCommands_off :
    Test.exec1.guard (.on true 0) = false ∧ Test.exec1.cur.2 = .exec ∧ Spec.quiet Test.exec1 ∧
    (Test.exec1.curCore.vwrites) = [] ∧ Test.exec1.curCore.m[2] = 0 := by
  unfold Spec.quiet Spec.quietOn
  decide +kernel

theorem witness_NestCommands_forms :
    let n := (Test.nest 0x7FFFFFC000000 0).set
    n.offsetsOk = true ∧ n.formOk = true ∧ { n with wo := 1 }.offsetsOk = false ∧ { n with cfg := 0x3FFFFF }.formOk = false ∧
    { n with cfg := 0x3FFFFF }.offsetsOk = true ∧ (Core.zero).exec.atArray = false := by
  decide +kernel

theorem witness_NestCommands_step :
    let n := (Test.nest 0x7FFFFFC000000 0).set
    let s := Test.queued [] none
    (match n.pair with
      | some (t, f, _) => (pairing t f).isSome && !(s.core 0).latchBad ⟨f, n.np, n.rn⟩ (n.stepWo 0).toNat (n.scaleOff (n.stepWo 0)).toNat &&
        ((s.modCore 0 fun k => { k with wbuf := k.wbuf.store (n.stepWo 0).toNat [1] true }).core 0).latchBad ⟨f, n.np, n.rn⟩
          (n.stepWo 0).toNat (n.scaleOff (n.stepWo 0)).toNat &&
        (match s.nestUnits 0 .read 128 128 ((List.range 32).map fun r => n.stepXa 0 + .ofNat 51 (128 * r)) with
          | .ok us => us.length == 32
          | .error _ => false)
      | none => false) = true := by
  decide +kernel

theorem witness_NestCommands_quiet :
    Spec.quietOn (Test.queued [.nest (Test.nest 0x7FFFFFC000000 0)] none) 0 .ctrl ∧
    ((Test.queued [.nest (Test.nest 0x7FFFFFC000000 0)] none).core 0).gated = false ∧
    (let k := ((Test.queued [.nest (Test.nest 0x7FFFFFC000000 0)] none).modStream 0 .ctrl fun v => { v with hs := true, dr := true }).core 0
     ¬ ((k.ctrl.hs && k.ctrl.dr) = false)) := by
  unfold Spec.quietOn
  decide +kernel

/-- R172, R183, R188: a nest whose groups have all run ends with OK and its groups, and GRP keeps them. -/
theorem test_nest_ends : Test.next (exec (.nestComplete 0 .none) (Test.queued [.nest (Test.nest 0x10000 1)] none))
    (fun t => (t.core 0).sigs[1].val == 1 && (t.core 0).ngrp == 1 && (t.core 0).aq == []) = true := by
  decide +kernel

/-- R188: before its first group a nest that starts at group 0 shows no group of the nest before it. -/
theorem test_nstat_grp :
    Test.next (exec (.nstat .always 1 false) (Test.at .ctrl fun k => { k with ngrp := 7, aq := [.nest (Test.nest 0x10000 0)] }))
      (fun t => (t.rs 1).toNat / 2 ^ 16 == 0 && (t.rs 1).toNat % 2 == 1) = true := by
  decide +kernel

/-! ### Pumps and semaphores -/

theorem witness_PumpIssues_order :
    Test.pumping.curCore.appendBehind .load = false ∧
    (Test.core fun k => { k with load := { k.load with st := .otherWait, pend := .dst (.sig 4) 1 [] (.pump Test.copy) } }).curCore.appendBehind
      .store = true ∧
    Test.parked.curCore.appendBehind .load = false ∧ Spec.quiet Test.parked := by
  unfold Spec.quiet Spec.quietOn
  decide +kernel

/-- A copy from a poisoned granule of the cistern. -/
def Test.poisonedCopy : State :=
  Test.core fun k => { k with
    cistern := k.cistern.mark 0 true
    pump0 := .running { Test.copy with a := 0x7FFFFFC001000, b := 0x7FFFFFC000000 } 0 none }

theorem witness_PumpCommands_poison :
    let n := Test.poisonedCopy.pumpAhead 0 false
    (match (n.core 0).pump false with
      | .running m u sent => decide (u < m.units) && (match n.pumpStop 0 false m u sent with
        | some (.poison _) => true
        | _ => false)
      | _ => false) = true := by
  decide +kernel

/-- The same of a PREM whose target is out of reach. -/
theorem witness_PumpCommands_lost :
    let s := Test.core fun k => { k with pump0 := .running { Test.copy with kind := .prem, a := 0x10000, b := 0x7FFFFFC000000, e := 7 } 0 none }
    let n := s.pumpAhead 0 false
    (match (n.core 0).pump false with
      | .running m u sent => (match n.pumpStop 0 false m u sent with
        | some .lost => true
        | _ => false)
      | _ => false) = true ∧ (s.core 0).gated = false := by
  decide +kernel

theorem witness_Semaphores_turn :
    (Test.cellOp none).mayTurn 0 3 (4 * 0 + codeOf .load) = true ∧
    ({ Test.cellOp none with turns := ⟨0, [(.cell 0 3, 3)], false⟩ }).mayTurn 0 3 (4 * 0 + codeOf .load) = false ∧
    Test.up.boot.stage ≠ .minimal := by
  decide +kernel

/-! ### State that fails -/

/-- LOAD about to issue an add of s2, which has failed. -/
theorem witness_CoreEvents_ecc :
    let s := Test.code .load [0x80, 0x59, 0x01, 0x08, 0x86, 0x00]
    (match s.prepare 0 .load false with
      | (u, some i) => i == .add .always 1 2 3 && u.readsState i (.sreg 2) && !u.readsState i (.sreg 1)
      | _ => false) = true ∧ (s.core 0).gated = false ∧ (s.core 0).ctrl.st = .idle ∧
    (s.stream 0 .load).breaks = false := by
  decide +kernel

theorem witness_HostAnswers_gated :
    ((Test.escalated.modCore 0 fun k => { k with gated := true }).escalOf 0 (taskidOf Test.key) 0).any (fun e => e.1 == 0) = true ∧
    ((Test.escalated.modCore 0 fun k => { k with gated := true }).core 0).gated = true ∧ Test.up.boot.stage ≠ .minimal := by
  decide +kernel

/-! ### Ports and packets -/

/-- Command words: INV_VA of one page at 0x1008000 for PASID 0, with a cell of port 2's partition. -/
def Test.words (cmd0 : Word) (npg : Word) : Vector Word 8 := #v[cmd0, 0x1008000, npg, 0xFFFF00F05, 5, 0, 0, 0]

theorem witness_Ports_forms :
    let s := Test.up.modPart 0 fun r => { r with en := true, units := 1 }
    Spec.reaches s 0 1 ∧ Spec.reaches s 3 1 ∧ ¬ Spec.reaches s 3 2 ∧ (s.portHandle 1 0xFFFF00F05).isSome = true ∧
    (s.portHandle 1 0xFFFFFFFFFFFFFFFF) = none ∧ (Test.words 1 1)[0].toNat % 256 = 1 ∧ (Test.words 1 1)[0].toNat < 2 ^ 28 ∧
    ((6 : Nat) < (Test.words 7 1)[0].toNat % 256) ∧ (s.ports[1]).busy = false := by
  unfold Spec.reaches
  decide +kernel

/-- R361, R363: a door write leaves its command in progress, or the ERR of its form. -/
theorem test_door :
    let s := Test.up.modPart 0 fun r => { r with en := true, units := 1 }
    let err (w : Vector Word 8) := match exec (.portDoorWrite ⟨0, 1⟩ w.toList) s with
      | .next t => ((t.ports[1]).cur.map fun m => m.err.toNat).getD 99
      | _ => 99
    err (Test.words 1 1) = 0 ∧ err (Test.words 3 1) = 1 ∧ err (Test.words 7 1) = 1 ∧ err ((Test.words 1 1).set 3 0xFFFFFFFFFFFFFFFF) = 2 ∧
      err (Test.words 1 0) = 2 ∧ err ((Test.words 1 1).set 1 0x7FFFFFBFF8000) = 0 ∧ err ((Test.words 1 1).set 1 0x7FFFFFC000000) = 3 := by
  decide +kernel

theorem witness_Ports_quiet :
    (Test.port { Test.portCmd 1 with done := true }).cores.toList.all (fun k =>
      k.loads.isEmpty && (coreStreams.all fun x => (k.stream x).stores.isEmpty)) = true := by
  decide +kernel

theorem witness_Ports_blocked :
    Test.next (exec (.migrate 2) (Test.port (Test.portCmd 6))) (fun t => t.blockedPage 0 0 0x1008000 && !t.blockedPage 0 0 0x1010000) =
      true ∧
    (Test.port { Test.portCmd 6 with part := none }).cellGated (Test.portCmd 6).handle = false := by
  decide +kernel

theorem witness_LinksAndPackets_reject :
    (PktOwner.sem 0 .load).mayReject 0x27 = true ∧ (PktOwner.sem 0 .load).mayReject 0x55 = false ∧
    (Test.remote.fabric.outPkt 7 5).any (fun o => o.owner == .sem 0 .load && o.ack.isNone) = true := by
  decide +kernel

/-- R379: an entry with port 3 alone. -/
theorem witness_LinksAndPackets_routes :
    let f := { Test.up.fabric with links := Test.up.fabric.links.set 3 ⟨true, true, false⟩ }
    let e : Word := BitVec.ofNat 64 (3 + 31 * 2 ^ 5 + 31 * 2 ^ 10 + 31 * 2 ^ 15 + 2 ^ 21)
    f.way 0 0 7 0 = .lost ∧ f.way e 0 7 0 = .out 3 ∧ Test.up.fabric.way e 0 7 0 = .lost ∧ e.getLsbD 21 = true ∧
    e.getLsbD 20 = false ∧ f.drops = [] ∧ (f.upPorts e)[(0 + 7) % (f.upPorts e).length]? = some 3 := by
  decide +kernel

/-- Ports 1 to 3 of an ORDERED entry to device 7, of which some are up. -/
def Test.routed (up : Fin 24 → Bool) : State :=
  { Test.up with fabric := { Test.up.fabric with
    links := Vector.ofFn fun i => ⟨up i, false, false⟩
    routeA := [(7, BitVec.ofNat 64 (1 + 2 * 2 ^ 5 + 3 * 2 ^ 10 + 31 * 2 ^ 15 + 2 ^ 21))] } }

/-- R379, R382: a flow whose port fails waits for it to be resolved, and a flow on another port stays on it; both go by the ports that are
up from there on. -/
theorem test_failed_port :
    let way (s : State) (c : CoreId) := s.fabric.way (s.fabric.route 7) c 7 0
    way (Test.routed fun _ => true) 0 = .out 2 ∧ Test.next (exec (.linkFaultDetect 2) (Test.routed fun _ => true)) (fun t =>
      way t 0 == .held 2 && way t 1 == .out 1 && Test.next (exec (.linkResolveExpire 2) t) fun u =>
        way u 0 == .out 3 && way u 1 == .out 1) = true := by
  decide +kernel

/-- The only port that is up fails: device 7 is lost with it. -/
theorem witness_LinksAndPackets_lost :
    Test.next (exec (.linkFaultDetect 2) (Test.routed (· == 2))) (fun t =>
      (t.fabric.open_ 2).any (fun d => d.lost == [7]) && (t.fabric.open_ 3).isNone) = true := by
  decide +kernel

/-- A semaphore operation on device 7 whose flow waits for its port. -/
theorem witness_Semaphores_held :
    Test.next (exec (.linkFaultDetect 2) (Test.routed fun _ => true)) (fun t =>
      t.sendPacket 0 7 false (.sem 0 .load) (.sem .ld 0 0 0) == .held) = true ∧
    (Test.routed fun _ => false).sendPacket 0 7 false (.sem 0 .load) (.sem .ld 0 0 0) = .lost := by
  decide +kernel

/-! ### Apertures and accesses -/

/-- Partition 0 with apertures of 32 KiB: identity at 0x10000, zero at 0x20000, two planes at 0x30000; their buffer is at 0x40000. -/
def Test.apertures : State :=
  Test.loading.modPart 0 fun r => { r with apert := ((r.apert.set 3 (some ⟨0x10000, 0x8000, 0x40000, .identity⟩)).set 4
    (some ⟨0x20000, 0x8000, 0x40000, .zero⟩)).set 5 (some ⟨0x30000, 0x8000, 0x40000, .trunc 2⟩) }

theorem witness_AddressCheckOrder_apertures :
    Spec.governs Test.apertures 0 0xFFFC = none ∧ Spec.governs Test.apertures 0 (0xFFFC + 8 - 1) = some 3 ∧
    Spec.governs Test.apertures 0 0x20000 = some 4 ∧ Spec.governs Test.apertures 0 0x20007 = some 4 ∧
    Spec.governs Test.apertures 0 0x30000 = some 5 ∧ ((Test.apertures.part 0).apert[5]).any (fun q => q.xf == .trunc 2) = true ∧
    (match Test.apertures.stage2 0 .read false 0x40000 with
      | .ok t => t.pa == 0x40000 && inDram t.pa
      | _ => false) = true ∧ (0x30000 - 0x30000) / 2 / 128 = (0x30000 - 0x30000 + 8 - 1) / 2 / 128 := by
  decide +kernel

/-- Table 9.2, step 3: an access across the boundary, one by way of each aperture, and a write through PLANES. -/
theorem test_apertures :
    let r (a : UnitAcc) (va : VAddr) := Test.apertures.checkUnit a va
    r { Test.acc with align := 4 } 0xFFFC = .fault 0x24 0xFFFC ∧ r Test.acc 0x10008 = .ok (.phys 0x40008) ∧
      r Test.acc 0x20000 = .ok .zero ∧ r Test.acc 0x30000 = .ok (.planes 0 2 false [(0, 0x40000)]) ∧
      r { Test.acc with x := { Test.acc.x with kind := .write } } 0x30000 = .fault 0x24 0x30000 := by
  decide +kernel

/-- A tile load in flight over places, planed on two planes or not. -/
def Test.loadingFrom (planed : Option (Nat × Bool)) (place : Nat → Loc) (n : Nat) : State :=
  (Test.core fun k => { k with
    loads := [⟨0, 9, 2, planed, (List.range n).map fun u => ⟨0, place u⟩, none, 0⟩] })

theorem witness_TileLoads_places :
    let units (s : State) := (s.core 0).loads.flatMap (·.units)
    ((units (Test.loadingFrom (some (2, false)) (fun u => .cistern (512 * u)) 16)).all fun u => match u.loc with
      | .cistern off => off % 512 == 0 && decide (off + 512 ≤ 0x200000)
      | _ => false) = true ∧
    ((units (Test.loadingFrom none (fun u => .phys (0x10000 + 128 * u)) 32)).all fun u => match u.loc with
      | .phys pa => pa % 128 == 0 && inDram pa && inDram (pa + 127)
      | _ => false) = true ∧
    (units (Test.loadingFrom (some (2, false)) (fun u => .cistern (512 * u)) 16)).length = 16 ∧
    (units (Test.loadingFrom none (fun u => .phys (0x10000 + 128 * u)) 32)).length = 32 ∧
    ((Test.loadingFrom none .cistern 32).core 0).gated = false ∧ ((Test.loadingFrom none .cistern 32).stream 0 .load).stores = [] := by
  decide +kernel

/-- R71, R72: element 1 has byte 1 of plane 0 above byte 1 of plane 1; RN1 on one plane rounds by plane 1, at half up. -/
theorem test_planes :
    let blk : List Byte := [0, 0x12] ++ List.replicate 127 0 ++ [0x34]
    truncVal blk 2 1 = 0x1234 ∧ rn1Round 1 0x12 0x7F = 0x12 ∧ rn1Round 1 0x12 0x80 = 0x13 := by
  decide +kernel

/-- R193: a poisoned granule of row 1 of a load poisons that row; R403: a poisoned row of a store poisons its granules. -/
theorem test_row_poison :
    Test.next (exec (.tileLoadComplete 0 0 false) ((Test.loadingFrom none (fun u => .cistern (128 * u)) 32).modCore 0 fun k =>
      { k with cistern := k.cistern.mark 3 true })) (fun t => (t.core 0).tiles[9].poison == 2) = true ∧
    Test.next (exec (.tileStorePerformed 0 .store) (Test.core fun k => { k with store := { k.store with
      stores := [⟨0, .tst 0 2, (List.range 32).map fun r => ⟨0, .cistern (128 * r)⟩, 0⟩] } }))
      (fun t => !(t.core 0).cistern.bad 1 && (t.core 0).cistern.bad 2 && (t.core 0).cistern.bad 3 && !(t.core 0).cistern.bad 4) =
        true := by
  decide +kernel

/-- LOAD walks for an address under an aperture, while a MIGRATE of the buffer moves, or not. -/
def Test.walkingUnder (moves : Bool) : State :=
  let s := Test.apertures.modCore 0 fun k => { k with load := { k.load with walk := some ⟨0x10000, false, none⟩ } }
  if moves then { s with ports := s.ports.set 1 { Port.zero with busy := true, cur := some Test.moving } } else s

theorem witness_WalkAndPageAnswer_aperture :
    Spec.governs (Test.walkingUnder true) 0 0x10000 = some 3 ∧ (Test.walkingUnder true).movingIpa 0 = true ∧
    (Test.walkingUnder false).movingIpa 0 = false ∧ ((Test.walkingUnder true).stream 0 .load).walk.isSome = true := by
  decide +kernel

/-- R365: the access waits while its buffer moves, and is checked again after. -/
theorem test_walk_aperture :
    Test.next (exec (.pageWalkComplete 0 .load false false false) (Test.walkingUnder true))
      (fun t => (t.stream 0 .load).walk.isSome) = true ∧
    Test.next (exec (.pageWalkComplete 0 .load false false false) (Test.walkingUnder false))
      (fun t => (t.stream 0 .load).walk.isNone && (t.core 0).tlb == []) = true := by
  decide +kernel

/-! ### Further completions -/

/-- Writes of a2 and of the count of t3 in flight. -/
def Test.writingOthers : State :=
  Test.core fun k => { k with
    vwrites := [⟨.acc 2, 1, .acc 5 (BitVec.allOnes 524288) 0 (BitVec.allOnes 128), none, [], 0x100, 0, 8⟩,
      ⟨.tile 3, 7, .count, none, [], 0x100, 0, 8⟩]
    exec := { k.exec with st := .running } }

theorem witness_VectorCompletion_others :
    ((Test.writingOthers.core 0).vwrites[0]?).any (fun w => w.dst == .acc 2) = true ∧
    ((Test.writingOthers.core 0).vwrites[1]?).any (fun w => w.data == .count) = true ∧
    (Test.writingOthers.core 0).interval = .none ∧ (Test.writingOthers.core 0).exec.pend = .none := by
  decide +kernel

theorem test_vector_others :
    Test.next (exec (.vectorWriteComplete 0 0) Test.writingOthers)
      (fun t => (t.core 0).accs[2].val == 5 && (t.core 0).accs[2].cnt == ⟨1, 1, false, false, false⟩) = true ∧
    Test.next (exec (.vectorWriteComplete 0 1) Test.writingOthers)
      (fun t => (t.core 0).tiles[3].val == 0 && (t.core 0).tiles[3].cnt == ⟨1, 0, true, false, false⟩) = true := by
  decide +kernel

/-- The vector state with the counts of t1, t2 and t3, which a VADD reads, reads and writes. -/
def Test.failing (a b d : Count) : State :=
  Test.vector.modCore 0 fun k => ((k.setCnt (.tile 1) a).setCnt (.tile 2) b).setCnt (.tile 3) d

theorem witness_CoreEvents_failing :
    let i := Instr.vadd .always ⟨3, 1⟩ ⟨1, .any⟩ ⟨2, .any⟩ .u8 .rmode true none
    let s := Test.failing Count.zero { Count.zero with bad := true } Count.zero
    let u := Test.failing Count.zero Count.zero { Count.zero with bad := true }
    let fine (s : State) (v : Spec.Vec) := s.guard v.g && v.mreg.isNone && conflictIn v.srcs == none && Spec.rowMask s v != 0
    (Spec.vec s i).any (fun v => fine s v && v.srcs.any fun q => (s.curCore.cnt q.x).bad) = true ∧
    (Spec.vec u i).any (fun v => fine u v && u.curCore.evalSources v.srcs == .ready && (u.curCore.cnt v.dst).bad) = true := by
  decide +kernel

/-- R404: each raises ECC_UNCORRECTABLE (0x72) with STRUCT 2 and the register of class 0. -/
theorem test_failing_counts :
    let bad : Count := { Count.zero with bad := true }
    let run (s : State) (i : Instr) := Test.next (exec i { s.modCore 0 Test.vectors with cur := s.cur }) fun t =>
      t.curCore.trap1.cause.toNat / 4 == 0x72 && t.curCore.trap1.eaddr.toNat / 2 ^ 56 == 2
    run (Test.failing Count.zero bad Count.zero) (.vadd .always ⟨3, 1⟩ ⟨1, .any⟩ ⟨2, .any⟩ .u8 .rmode true none) = true ∧
    run (Test.failing Count.zero Count.zero bad) (.vadd .always ⟨3, 1⟩ ⟨1, .any⟩ ⟨2, .any⟩ .u8 .rmode true none) = true ∧
    run (Test.failing bad Count.zero Count.zero) (.crd .always 5 (.tile 1)) = true := by
  decide +kernel

/-! ### Engines -/

/-- A command on core 0 as LOAD's, from and to places of the local window. -/
def Test.cmd (kind : PumpKind) (a b : Word) : PumpCmd :=
  { Test.copy with kind := kind, a := 0x7FFFFFC000000 + a, b := 0x7FFFFFC000000 + b, esz := 3 }

/-- The cistern holds 0x11 and 0x22 first, 0x33 at element 2, and the index 2 at 0x100. -/
def Test.moves (m : PumpCmd) : State :=
  Test.core fun k => { k with
    cistern := ((k.cistern.store 0 [0x11, 0x22] false).store 16 [0x33] false).store 0x100 [0x02] false
    pump0 := .running m 0 none }

/-- A PGATH whose index stands at 0x100, and a PWLD with two scale bytes. -/
def Test.gather : PumpCmd := { Test.cmd .pgath 0x2000 0 with c := 0x7FFFFFC000100, e := 8 }
def Test.weights : PumpCmd :=
  { Test.cmd .pwld 0 0 with a := 0x200 + 0x400 * 2 ^ 20, b := 0x10000, c := 2, e := 0x10000, scl := true }

theorem witness_PumpCommands_moves :
    let place (s : State) (kind : AccKind) (n : Nat) (planed : Bool) (va : VAddr) :=
      s.checkUnit ⟨0, ⟨(s.core 0).partId, (s.core 0).pasid, false, kind⟩, n, n, planed, true, false⟩ va
    let s := Test.moves (Test.cmd .pcopy 0x2000 0)
    place s .read 8 false (Spec.unitAddrs (Test.cmd .pcopy 0x2000 0) 0 0).1 = .ok (.cistern 0) ∧
    place s .write 8 false (Spec.unitAddrs (Test.cmd .pcopy 0x2000 0) 0 0).2 = .ok (.cistern 0x2000) ∧
    place s .read 4 false 0x7FFFFFC000100 = .ok (.cistern 0x100) ∧
    (List.range 8).all (fun i => !s.inSource 0 (Test.cmd .pcopy 0x2000 0) ((Spec.unitAddrs (Test.cmd .pcopy 0x2000 0) 0 0).2 + .ofNat 51 i))
      = true ∧
    (List.range 16).all (fun i => !Spec.badAt s 0 (.cistern i)) = true ∧ Test.gather.iw = false ∧ Test.gather.saved = [] ∧
    Test.weights.needsScales 0 = true ∧ Test.weights.needsScales 1 = false := by
  decide +kernel

theorem witness_PumpCommands_weights :
    let s := Test.mapped
    let place (n : Nat) (planed : Bool) (va : VAddr) :=
      s.checkUnit ⟨0, ⟨(s.core 0).partId, (s.core 0).pasid, false, .read⟩, n, n, planed, true, false⟩ va
    place 512 true 0x10200 = .ok (.phys 0x28200) ∧ place 1 false 0x10000 = .ok (.phys 0x28000) ∧
    place 1 false 0x10001 = .ok (.phys 0x28001) ∧ inDram 0x28200 = true ∧ inDram (0x28200 + 511) = true ∧
    Spec.governs s 0 0x10000 = Spec.governs s 0 0x10001 ∧ Test.weights.c.toNat ≤ 2048 := by
  decide +kernel

/-- Table 10.1: PCOPY moves the bytes of its source; PGATH takes element 2; PFILL writes the low bytes of its value. -/
theorem test_units :
    let unit (m : PumpCmd) (p : State → Bool) := match (Test.moves m).localUnit 0 m 0 with
      | .ok r => p r.1
      | .error _ => false
    unit (Test.cmd .pcopy 0x2000 0) (fun t => (t.core 0).cistern.bytes.readRange 0x2000 2 == [0x11, 0x22]) = true ∧
    unit (Test.cmd .pfill 0x2000 0x35) (fun t => (t.core 0).cistern.bytes.readRange 0x2000 2 == [0x35, 0]) = true ∧
    unit Test.gather (fun t => (t.core 0).cistern.bytes.readRange 0x2000 2 == [0x33, 0]) = true := by
  decide +kernel

theorem witness_PumpCommands_takes :
    let s (p q : Pump) := Test.core fun k => { k with pump0 := p, pump1 := q, pumpq := [Test.copy, Test.gather] }
    ((s .idle .idle).core 0).pump0 = .idle ∧ ((s .idle .idle).core 0).pumpq = Test.copy :: [Test.gather] ∧
    Spec.quietOn (s .idle .idle) 0 .load ∧ ((s (.running Test.copy 0 none) .idle).core 0).pump (!true) ≠ .idle ∧
    Test.copy.x = .load ∧ Test.gather.x = .load := by
  unfold Spec.quietOn
  decide +kernel

/-- R216, R367: where both are free, pump 0 has the oldest command and pump 1 the next, whichever takes. -/
theorem test_takes : Test.next (exec (.pumpTakeCommand 0 true) (Test.core fun k => { k with pumpq := [Test.copy, Test.gather] }))
    (fun t => (match (t.core 0).pump0 with
      | .running m _ _ => m.kind == .pcopy
      | _ => false) && (match (t.core 0).pump1 with
      | .running m _ _ => m.kind == .pgath
      | _ => false)) = true := by
  decide +kernel

/-- A PREM unit of 8 bytes whose one granule is poisoned. -/
def Test.packetBody : PacketBody := .prem 0x10000 8 1 (List.replicate 8 0) 1

/-- R222: an uncorrectable error needs a source that is read, and a destination that can be written. -/
theorem witness_PumpCommands_uncorrectable :
    let m := Test.cmd .pcopy 0x2000 0
    (Test.moves m).unitSource 0 m 0 = some (.cistern 0) ∧
    (Loc.cistern 0).isMemory = true ∧ (Loc.cistern 0).isHost = false ∧ Loc.zero.isMemory = false ∧
    (Test.moves m).unitSource 0 { m with a := 0x10000 } 0 = none ∧ 0 < m.units ∧ (Test.cmd .pfill 0 0).kind = .pfill ∧
    carriesPoison Test.packetBody = true ∧ (Test.acked.fabric.outPkt 7 5).any (fun o => !carriesPoison o.full) = true := by
  decide +kernel

/-- R398: a store whose granules wait is not performed, and one that has injected them is. -/
theorem test_stalls :
    let p := Pick.event (.tileStorePerformed 8 .store)
    let full := { Test.busyPart with injected := [(.store 8 .store 0, 64)] }
    Test.busyPart.stalls p (exec (.tileStorePerformed 8 .store) Test.busyPart) = true ∧
    full.stalls p (exec (.tileStorePerformed 8 .store) full) = false := by
  decide +kernel

/-- A nest whose last group left a band, and one that ran none, in an accumulator that held 5. -/
def Test.nested (band : Option (BitVec 524288)) : State :=
  (Test.queued [.nest (Test.nest 0x10000 1)] none).modCore 0 fun k => { k with
    accs := k.accs.set 0 { Acc.zero with val := 5 }, nestBand := band, nestPoison := 1 }

theorem witness_NestCommands_band :
    ((Test.nested none).core 0).nestBand = none ∧ ((Test.nested (some 9)).core 0).nestBand = some 9 ∧
    (Test.nest 0x10000 0).grp < (Test.nest 0x10000 0).set.groups ∧
    (Test.nest 0x10000 1).set.groups ≤ (Test.nest 0x10000 1).grp := by
  decide +kernel

/-- R185, R186: after status 0 the band of the accumulator is the last group's, with its poison, or what it held. -/
theorem test_nest_band :
    Test.next (exec (.nestComplete 0 .none) (Test.nested (some 9)))
      (fun t => (t.core 0).accs[0].val.extractLsb' 0 64 == 9 && (t.core 0).accs[0].poison == 1) = true ∧
    Test.next (exec (.nestComplete 0 .none) (Test.nested none))
      (fun t => (t.core 0).accs[0].val.extractLsb' 0 64 == 5 && (t.core 0).accs[0].poison == 0) = true := by
  decide +kernel

/-! ### Waits, debuggers, slices -/

theorem witness_CoreEvents_waits :
    (Test.cellOp none).waitReads 0 .load (.cell 0xFFFF00003) = true ∧ (Test.cellOp none).waitReads 0 .load (.cell 0) = false ∧
    (Test.semwt 5).waitReads 0 .load (.cell 0xFFFF00003) = true ∧ (Test.cellOp none).waitReads 0 .load (.csr .pqdepth) = false := by
  decide +kernel

/-- R404: a waiting SEMWT raises for its cell, and its hold is gone. -/
theorem test_semwt_ecc :
    Test.next (exec (.eccUncorrectable 0 (some .load) (.cell 0xFFFF00003)) ((Test.semwt 5).modCore 0 Test.vectors))
      (fun t => (t.core 0).load.st == .stopped && t.watches == []) = true := by
  decide +kernel

/-- R280, R339: SKIP of CTRL's own trap leaves it STOPPED where a debugger holds it. -/
theorem test_skip_debugged :
    let s := Test.escalated.modCore 0 fun k => { k with
      escal := [⟨⟨0x08, .ctrl, false, 0x100, 0, 0, 0, 6, false, 0, 0⟩, 0, 3⟩], ctrlEsc := true
      ctrl := { k.ctrl with st := .stopped, dbg := .stopped } }
    Test.next (exec (.answerSkip 0 (taskidOf Test.key) 0) s) (fun t => (t.core 0).ctrl.st == .stopped && !(t.core 0).ctrlEsc) = true := by
  decide +kernel

/-- The draining gang with partition 2 recorded as its successor, with a READY node or none, and with a save begun or none. -/
def Test.succeeded (ready saved : Bool) : State :=
  let s := Test.draining id
  { s with
    groups := s.groups.set 2 ⟨some 1, some 0, true, some 2, true, saved⟩
    parts := s.parts.set 2 { Partition.zero with en := true, shared := true, group := 2, units := 1 }
    nodes := s.nodes ++ [{ Test.node with key := ⟨7, 0, 0⟩, st := if ready then .ready else .retired, part := 2, cores := [] }] }

theorem witness_SlicesAndDrain_successor :
    ((Test.succeeded false false).groupOf 1).next = some 2 ∧ ((Test.succeeded false false).groupOf 1).saved = false ∧
    ((Test.succeeded false false).nodes.any fun m => m.part == 2 && (Test.succeeded false false).inWell m) = false ∧
    ((Test.succeeded true false).nodes.any fun m => m.part == 2 && (Test.succeeded true false).inWell m) = true ∧
    (Test.succeeded true false).partGated 1 = false ∧ ((Test.succeeded false true).groupOf 1).saved = true ∧
    ((Test.succeeded true false).node Test.key).any (fun n => n.draining && n.part == 1) = true ∧
    (Test.succeeded false false).view 0 < 2000000 + 120000 := by
  decide +kernel

/-- R397: the drain is withdrawn while nothing is saved, once the successor has no READY node, and not else. -/
theorem test_withdraw :
    let drains (s : State) := Test.next (exec (.drainWithdraw Test.key) s) fun t => t.nodes.any (·.draining) &&
      (t.core 0).drainSince == some 0
    drains (Test.succeeded false false) = false ∧ drains (Test.succeeded true false) = true ∧ drains (Test.succeeded false true) = true ∧
    Test.next (exec (.drainWithdraw Test.key) (Test.succeeded false false)) (fun t => (t.groupOf 1).start == some (t.viewOf 1) &&
      (t.core 0).drainSince.isNone && (t.core 1).drainSince.isNone) = true := by
  decide +kernel

/-! ### Ports and packets -/

/-- Port 2 as in `Test.port`, with a MIGRATE of intermediate addresses moving at port 1. -/
def Test.portMoving (m : PortCmd) : State :=
  { Test.port m with ports := (Test.port m).ports.set 1 { Port.zero with busy := true, cur := some Test.moving } }

theorem witness_Ports_moves :
    ((Test.portMoving (Test.portCmd 6)).ports[1]).cur.any (fun n => n.kind == 6 && n.err == 0 && n.done && n.ipa && n.part == some 0) = true ∧
    (Test.port (Test.portCmd 6)).ports.toList.all (fun q => q.cur.all fun n => !n.done) = true := by
  decide +kernel

/-- R365: a guest's MIGRATE waits for it, and begins once it is over. -/
theorem test_migrate_waits :
    Test.next (exec (.migrate 2) (Test.portMoving (Test.portCmd 6))) (fun t => (t.ports[2]).cur.any fun n => !n.done) = true ∧
    Test.next (exec (.migrate 2) (Test.port (Test.portCmd 6))) (fun t => (t.ports[2]).cur.any fun n => n.done && n.err == 0) = true := by
  decide +kernel

/-- Device 7 exports to partition 0 under key 1: its gang, and a window over the page of `Test.tables` at 0x1008000. -/
def Test.exported : State :=
  let s := { Test.tables with boot := Test.up.boot, fabric := { Test.up.fabric with keyA := Test.up.fabric.keyA.set 1 0x80000000 } }
  { s.modPart 0 fun r => { r with exports := [⟨0, 1, 0, 0x1008000, 0x8000, 1, 0⟩] } with
    nodes := [{ Test.node with st := .running }] }

/-- A packet from device 7, its first. -/
def Test.sent (b : PacketBody) : Packet := { Test.packet 0 with body := b }

theorem witness_LinksAndPackets_performs :
    let s := Test.exported
    s.fabric.keyPart 1 = some 0 ∧ (Test.sent Test.packetBody).dst = s.fabric.devid ∧ (s.fabric.rxOf 7).dup 0 = false ∧
    (s.fabric.rxOf 7).waiting = [] ∧ (0 : BitVec 32) = (s.fabric.rxOf 7).next ∧
    ((s.part 0).exports.filter fun e => e.key == 1).findSome? (s.exportedGang 0) = some { Test.node with st := .running } ∧
    s.node Test.key = some { Test.node with st := .running } ∧ (s.core 0).gated = false ∧ (s.core 0).saving = false ∧
    s.blockedPage 0 0 0x1008040 = false ∧ (match s.walk ⟨0, 0, false, .write⟩ 0x1008040 with
      | .ok w => w.pa == 0x1238040
      | _ => false) = true ∧ inDram 0x1238040 = true ∧ (2 : BitVec 64).getLsbD 0 = false := by
  decide +kernel

/-- R229: a SEMADD of a peer acts on the cell of role 0; R378: a PREM unit of 128 bytes leaves its first granule zero. -/
theorem test_packet_performs :
    Test.next (exec (.packetReceive (Test.sent (.sem .add 0xFFF00003 4 0)) false)
      (Test.exported.modCore 0 fun k => { k with cells := k.cells.set 3 5 }))
      (fun t => t.cell 0 3 == 9 && t.fabric.acks == [⟨7, 0, .ok 5⟩]) = true ∧
    Test.next (exec (.packetReceive (Test.sent (.prem 0x1008080 128 2 (0x77 :: List.replicate 63 0) 0)) false) Test.exported)
      (fun t => t.gmem.mem.bytes.readRange 0x12380C0 1 == [0x77] && t.gmem.mem.bytes.readRange 0x1238080 1 == [0] &&
        t.fabric.acks == [⟨7, 0, .ok 0⟩]) = true := by
  decide +kernel

/-! ### What the spec orders within a cycle, and what stops a wait -/

/-- R336: LOAD's trap of a cycle in which EXEC's has been delivered comes too late, though it would be held. -/
theorem test_trap_order :
    let s := (Test.up.modCore 0 Test.vectors).trapOn 0 .exec 0x27 0
    (s.core 0).hl = 1 ∧ isLate (.next (s.trapOn 0 .load 0x27 0)) = true ∧ isLate (.next (s.trapOn 0 .store 0x27 0)) = false := by
  decide +kernel

/-- R367: pump 1 comes free too late in a cycle in which pump 0 has taken a command. -/
theorem test_take_order :
    let s := Test.core fun k => { k with pumpq := [Test.copy], pump1 := .parked Test.gather 0 0 0 false }
    Test.next (exec (.pumpTakeCommand 0 false) s) (fun t => isLate (.next (t.freePump 0 true id))) = true := by
  decide +kernel

/-- R404: an NGO that waits is to go on where the count state of its accumulator has failed, which raises its cause. -/
theorem test_waiting_nest_ecc :
    let k := { Core.zero with accs := Core.zero.accs.set 0 { Acc.zero with cnt := ⟨0, 2, false, false, true⟩ }
                              ctrl := { Core.zero.ctrl with st := .countWait, pend := .dst (.sig 1) 1 [] (.nest .plain) } }
    k.waitReady .ctrl = true ∧ { k with accs := Core.zero.accs.set 0 { Acc.zero with cnt := ⟨0, 2, false, false, false⟩ } }.waitReady
      .ctrl = false := by
  decide +kernel

/-- R370: a virtual function reaches a queue enabled for its own partition, and none that is enabled for another. -/
theorem test_queue_page :
    let q : Queue := { Queue.zero with st := .active, qmap := 0x80000005, desc := 3 <<< 112 }
    let s (p : PartId) := { Test.up with queues := [(9, q)], fns := Test.up.fns.set 5 { Test.up.fns[5] with part := p } }
    (s 3).queueOfPage 5 0 = some 9 ∧ (s 2).queueOfPage 5 0 = none := by
  decide +kernel

end SmallTests
end

section
namespace Sys2Proof.Machine

/-! # Every step keeps the memory in its canonical form (O8)

`State.MemWf` reads `State.memWf` as a proposition. Each function of the model that gives a state, a core or a bank on the way of
a step has one lemma here, in the model's own order and under its name, which says that it keeps the canonical form: bytes change
only through `PoisonMem.store` and `PoisonMem.mark`, and a recording only takes memories that a core holds. `exec_memWf` then
speaks of every instruction and event, `State.due_keeps` and `State.ownMoves_keep` of what the machine does by itself, and
`State.MemWf.turn` of a step. Where a state is known only from a later argument, the equation of `of_eq` is `(by rfl)`, which
waits for it. -/

/-- The byte memories of a core are in their canonical form. -/
structure Core.MemWf (k : Core) : Prop where
  cistern : k.cistern.wf = true
  wbuf : k.wbuf.wf = true

/-- So are those of the cores that a snapshot keeps. -/
def Snapshot.MemWf (p : Snapshot) : Prop := ∀ q ∈ p.cores, q.2.MemWf

/-- So are those of the snapshots after the entries of a log. -/
def logMemWf (log : List LfStep) : Prop := ∀ e ∈ log, e.after.MemWf

theorem logMemWf_nil : logMemWf [] := List.forall_mem_nil _

/-- So are those of checkpoints with the logs since them. -/
def checksMemWf (checks : List (Snapshot × List LfStep)) : Prop := ∀ q ∈ checks, q.1.MemWf ∧ logMemWf q.2

/-- So are those that a replay is to put back. -/
structure Replay.MemWf (r : Replay) : Prop where
  start : ∀ p, r.start = some p → p.MemWf
  todo : logMemWf r.todo

/-- The propositional reading of Leapfrog.memWf. -/
structure Leapfrog.MemWf (l : Leapfrog) : Prop where
  checks : checksMemWf l.checks
  resume : ∀ r, l.resume = some r → r.MemWf

/-- The recording of a bank keeps memories in their canonical form. -/
structure MBank.MemWf (k : MBank) : Prop where
  lf : k.lf.MemWf

/-- The propositional reading of State.memWf: global memory, every core, and what every bank has recorded. -/
structure State.MemWf (s : State) : Prop where
  gmem : s.gmem.mem.wf = true
  core : ∀ c, (s.core c).MemWf
  bank : ∀ b, (s.bank b).MemWf

/-- The next state of an outcome, where there is one, is in the canonical form. -/
inductive Out.MemWf : Out → Prop
  | next {t : State} (h : t.MemWf) : Out.MemWf (.next t)
  | fault {f : Fault} : Out.MemWf (.fault f)
  | refused {r : Refusal} : Out.MemWf (.refused r)

/-- So is the state that is found, if any. -/
inductive OptMemWf : Option State → Prop
  | some {t : State} (h : t.MemWf) : OptMemWf (.some t)
  | none : OptMemWf .none

/-- So is the state of what does not stop. -/
inductive ResMemWf {ε : Type} : Except ε State → Prop
  | ok {t : State} (h : t.MemWf) : ResMemWf (.ok t)
  | error {e : ε} : ResMemWf (.error e)

/-- So is the state that what does not stop gives with something else. -/
inductive StepMemWf {ε α : Type} : Except ε (State × α) → Prop
  | ok {t : State} {a : α} (h : t.MemWf) : StepMemWf (.ok (t, a))
  | error {e : ε} : StepMemWf (.error e)

/-- So is the state in which a packet has been sent. -/
inductive SendRes.MemWf : SendRes → Prop
  | sent {t : State} {n : BitVec 32} (h : t.MemWf) : SendRes.MemWf (.sent t n)
  | lost : SendRes.MemWf .lost
  | held : SendRes.MemWf .held

/-- So is the state after a packet of a peer has been performed. -/
inductive PeerRes.MemWf : PeerRes → Prop
  | done {t : State} {a : AckRes} (h : t.MemWf) : PeerRes.MemWf (.done t a)
  | hold {g : Option NodeKey} : PeerRes.MemWf (.hold g)

theorem State.MemWf.of_next {o : Out} {t : State} (h : Out.MemWf o) (e : o = .next t) : t.MemWf := by
  cases h with
  | next h => cases e; exact h
  | fault | refused => cases e

theorem State.MemWf.of_fst {α : Type} {q : State × α} {t : State} {a : α} (h : q.1.MemWf) (e : q = (t, a)) : t.MemWf := by
  rwa [e] at h

theorem State.MemWf.of_some {o : Option State} {t : State} (h : OptMemWf o) (e : o = some t) : t.MemWf := by
  cases h with
  | some h => cases e; exact h
  | none => cases e

theorem State.MemWf.of_ok {ε : Type} {r : Except ε State} {t : State} (h : ResMemWf r) (e : r = .ok t) : t.MemWf := by
  cases h with
  | ok h => cases e; exact h
  | error => cases e

theorem State.MemWf.of_step {ε α : Type} {r : Except ε (State × α)} {t : State} {a : α} (h : StepMemWf r)
    (e : r = .ok (t, a)) : t.MemWf := by
  cases h with
  | ok h => cases e; exact h
  | error => cases e

theorem State.MemWf.of_sent {r : SendRes} {t : State} {n : BitVec 32} (h : r.MemWf) (e : r = .sent t n) : t.MemWf := by
  cases h with
  | sent h => cases e; exact h
  | lost | held => cases e

theorem State.MemWf.of_done {r : PeerRes} {t : State} {a : AckRes} (h : r.MemWf) (e : r = .done t a) : t.MemWf := by
  cases h with
  | done h => cases e; exact h
  | hold => cases e

theorem StepMemWf.bind {ε α β : Type} {r : Except ε β} {f : β → Except ε (State × α)} (hf : ∀ b, StepMemWf (f b)) :
    StepMemWf (r >>= f) := by
  cases r with
  | error e => exact .error
  | ok b => exact hf b

theorem ResMemWf.bind {ε β : Type} {r : Except ε β} {f : β → Except ε State} (hf : ∀ b, ResMemWf (f b)) :
    ResMemWf (r >>= f) := by
  cases r with
  | error e => exact .error
  | ok b => exact hf b

theorem ResMemWf.bindState {ε α : Type} {r : Except ε (State × α)} {f : State × α → Except ε State} (hr : StepMemWf r)
    (hf : ∀ t a, t.MemWf → ResMemWf (f (t, a))) : ResMemWf (r >>= f) := by
  cases hr with
  | error => exact .error
  | ok h => exact hf _ _ h

theorem OptMemWf.map {α : Type} {f : α → State} (hf : ∀ a, (f a).MemWf) (o : Option α) : OptMemWf (o.map f) := by
  cases o with
  | none => exact .none
  | some a => exact .some (hf a)

theorem State.MemWf.getD {o : Option State} {s : State} (h : s.MemWf) (ho : OptMemWf o) : (o.getD s).MemWf := by
  cases ho with
  | none => exact h
  | some ht => exact ht

theorem Core.memWf_iff (k : Core) : k.memWf = true ↔ k.MemWf := by
  unfold Core.memWf
  rw [Bool.and_eq_true]
  exact ⟨fun ⟨hc, hw⟩ => ⟨hc, hw⟩, fun ⟨hc, hw⟩ => ⟨hc, hw⟩⟩

theorem Leapfrog.memWf_iff (l : Leapfrog) : l.memWf = true ↔ l.MemWf := by
  simp only [Leapfrog.memWf, Core.memWf_iff, List.all_eq_true, Bool.and_eq_true]
  constructor
  · rintro ⟨hc, hr⟩
    refine ⟨hc, fun r e => ?_⟩
    simp only [e, Bool.and_eq_true, List.all_eq_true, Core.memWf_iff] at hr
    exact ⟨fun p hp => hr.1 p (by simp [hp]), hr.2⟩
  · rintro ⟨hc, hr⟩
    refine ⟨hc, ?_⟩
    split
    · next r e =>
      obtain ⟨hs, ht⟩ := hr r e
      simp only [Bool.and_eq_true, List.all_eq_true, Core.memWf_iff]
      exact ⟨fun p hp => hs p (by simpa using hp), ht⟩
    · rfl

theorem State.mem_cores_iff (s : State) (k : Core) : k ∈ s.cores.toList ↔ ∃ c, s.core c = k := by
  rw [Vector.mem_toList_iff, Vector.mem_iff_getElem]
  exact ⟨fun ⟨i, h, e⟩ => ⟨⟨i, h⟩, e⟩, fun ⟨c, e⟩ => ⟨c.val, c.isLt, e⟩⟩

theorem State.mem_banks_iff (s : State) (k : MBank) : k ∈ s.banks.toList ↔ ∃ b, s.bank b = k := by
  rw [Vector.mem_toList_iff, Vector.mem_iff_getElem]
  exact ⟨fun ⟨i, h, e⟩ => ⟨BitVec.ofFin ⟨i, h⟩, e⟩, fun ⟨b, e⟩ => ⟨b.toNat, b.isLt, e⟩⟩

theorem State.memWf_iff (s : State) : s.memWf = true ↔ s.MemWf := by
  simp only [State.memWf, Bool.and_eq_true, List.all_eq_true, State.mem_cores_iff, State.mem_banks_iff, Core.memWf_iff,
    Leapfrog.memWf_iff, forall_exists_index, forall_apply_eq_imp_iff]
  constructor
  · exact fun ⟨⟨hg, hc⟩, hb⟩ => ⟨hg, hc, fun b => ⟨hb b⟩⟩
  · exact fun ⟨hg, hc, hb⟩ => ⟨⟨hg, hc⟩, fun b => (hb b).lf⟩

/-- A move of the machine's own, if there is one, keeps the canonical form from whatever state it is made in. -/
def OptKeeps (o : Option Move) : Prop := ∀ m, o = some m → ∀ s, s.MemWf → Out.MemWf (m s)

theorem OptKeeps.none : OptKeeps none := nofun

theorem OptKeeps.some {m : Move} (h : ∀ s, s.MemWf → Out.MemWf (m s)) : OptKeeps (some m) :=
  fun _ e => Option.some.inj e ▸ h

theorem OptKeeps.map {α : Type} {f : α → Move} (hf : ∀ a s, s.MemWf → Out.MemWf (f a s)) (o : Option α) :
    OptKeeps (o.map f) := by
  cases o with
  | none => exact .none
  | some a => exact .some (hf a)

theorem OptKeeps.or {o q : Option Move} (ho : OptKeeps o) (hq : OptKeeps q) : OptKeeps (o.or q) := by
  cases o with
  | none => exact hq
  | some m => exact ho

/-! ## Records and their updates -/

section
variable {s t : State} {c : CoreId} {k l : Core} {b : BitVec 7}

/-- What changes neither memory of a core. -/
theorem Core.MemWf.of_eq (h : k.MemWf) (e : (l.cistern, l.wbuf) = (k.cistern, k.wbuf)) : l.MemWf := by
  obtain ⟨hc, hw⟩ := Prod.mk.inj e
  exact ⟨hc ▸ h.cistern, hw ▸ h.wbuf⟩

theorem MBank.MemWf.of_eq {k l : MBank} (h : k.MemWf) (e : l.lf = k.lf) : l.MemWf := ⟨e ▸ h.lf⟩

/-- A bank whose replay is to go on as r. -/
theorem MBank.MemWf.setResume {k : MBank} {r : Replay} (h : k.MemWf) (hr : r.MemWf) :
    MBank.MemWf { k with lf := { k.lf with resume := some r } } :=
  ⟨⟨h.lf.checks, fun _ e => Option.some.inj e ▸ hr⟩⟩

/-- What changes neither memory, cores nor banks. -/
theorem State.MemWf.of_eq (h : s.MemWf) (e : (t.gmem.mem, t.cores, t.banks) = (s.gmem.mem, s.cores, s.banks)) : t.MemWf := by
  obtain ⟨hg, e⟩ := Prod.mk.inj e
  obtain ⟨hc, hb⟩ := Prod.mk.inj e
  refine ⟨hg ▸ h.gmem, fun c => ?_, fun b => ?_⟩
  · simpa only [State.core, hc] using h.core c
  · simpa only [State.bank, hb] using h.bank b

theorem State.MemWf.setFresh (h : s.MemWf) {n : Nat} : { s with fresh := n }.MemWf := h.of_eq rfl

theorem State.MemWf.setGmem (h : s.MemWf) {g : GlobalMem} (hg : g.mem.wf = true) : { s with gmem := g }.MemWf :=
  ⟨hg, h.core, h.bank⟩

theorem State.MemWf.setCore (h : s.MemWf) (hk : k.MemWf) : (s.setCore c k).MemWf where
  gmem := h.gmem
  core d := by
    rw [State.core_setCore]
    split
    · exact hk
    · exact h.core d
  bank := h.bank

theorem State.MemWf.modCore (h : s.MemWf) {f : Core → Core} (hf : ∀ k, k.MemWf → (f k).MemWf) : (s.modCore c f).MemWf :=
  h.setCore (hf _ (h.core c))

theorem State.MemWf.setCores (h : s.MemWf) {v : Vector Core 208} (hv : ∀ c (hc : c < 208), v[c].MemWf) :
    { s with cores := v }.MemWf :=
  ⟨h.gmem, fun c => hv c.val c.isLt, h.bank⟩

theorem State.MemWf.mapCores (h : s.MemWf) {f : Core → Core} (hf : ∀ k, k.MemWf → (f k).MemWf) :
    { s with cores := s.cores.map f }.MemWf :=
  h.setCores fun c hc => by rw [Vector.getElem_map]; exact hf _ (h.core ⟨c, hc⟩)

theorem State.MemWf.mapCoresIdx (h : s.MemWf) {f : (c : Nat) → Core → c < 208 → Core}
    (hf : ∀ c k hc, k.MemWf → (f c k hc).MemWf) : { s with cores := s.cores.mapFinIdx f }.MemWf :=
  h.setCores fun c hc => by rw [Vector.getElem_mapFinIdx]; exact hf _ _ _ (h.core ⟨c, hc⟩)

theorem State.MemWf.setBanks (h : s.MemWf) {v : Vector MBank 128} (hv : ∀ b (hb : b < 128), v[b].MemWf) :
    { s with banks := v }.MemWf :=
  ⟨h.gmem, h.core, fun b => hv b.toNat b.isLt⟩

theorem State.MemWf.mapBanks (h : s.MemWf) {f : MBank → MBank} (hf : ∀ k, k.MemWf → (f k).MemWf) :
    { s with banks := s.banks.map f }.MemWf :=
  h.setBanks fun b hb => by rw [Vector.getElem_map]; exact hf _ (h.bank (.ofNatLT b hb))

theorem State.MemWf.mapBanksIdx (h : s.MemWf) {f : Nat → MBank → MBank} (hf : ∀ i k, k.MemWf → (f i k).MemWf) :
    { s with banks := s.banks.mapIdx f }.MemWf :=
  h.setBanks fun b hb => by rw [Vector.getElem_mapIdx]; exact hf _ _ (h.bank (.ofNatLT b hb))

theorem State.MemWf.modBank (h : s.MemWf) {f : MBank → MBank} (hf : ∀ k, k.MemWf → (f k).MemWf) :
    (s.modBank b f).MemWf :=
  h.setBanks fun i hi => by
    rw [Vector.getElem_set]
    split
    · exact hf _ (h.bank b)
    · exact h.bank (.ofNatLT i hi)

/-! ## Folds and choices -/

theorem State.MemWf.foldl {α : Type} {f : State → α → State} (h : s.MemWf) (hf : ∀ s a, s.MemWf → (f s a).MemWf) (as : List α) :
    (as.foldl f s).MemWf :=
  List.foldlRecOn as f h fun s hs a _ => hf s a hs

theorem State.MemWf.foldl_fst {α β : Type} {f : State × β → α → State × β} {q : State × β} (h : q.1.MemWf)
    (hf : ∀ q a, q.1.MemWf → (f q a).1.MemWf) (as : List α) : (as.foldl f q).1.MemWf :=
  List.foldlRecOn (motive := fun q : State × β => q.1.MemWf) as f h fun q hq a _ => hf q a hq

theorem Core.MemWf.foldl {α : Type} {f : Core → α → Core} (h : k.MemWf) (hf : ∀ k a, k.MemWf → (f k a).MemWf) (as : List α) :
    (as.foldl f k).MemWf :=
  List.foldlRecOn as f h fun k hk a _ => hf k a hk

theorem State.MemWf.ite {p : Prop} [Decidable p] (hs : s.MemWf) (ht : t.MemWf) : (if p then s else t).MemWf := by
  split
  · exact hs
  · exact ht

theorem Core.MemWf.ite {p : Prop} [Decidable p] (hk : k.MemWf) (hl : l.MemWf) : (if p then k else l).MemWf := by
  split
  · exact hk
  · exact hl

theorem MBank.MemWf.ite {p : Prop} [Decidable p] {k l : MBank} (hk : k.MemWf) (hl : l.MemWf) : (if p then k else l).MemWf := by
  split
  · exact hk
  · exact hl

theorem StepMemWf.ite {ε α : Type} {p : Prop} [Decidable p] {r q : Except ε (State × α)} (hr : StepMemWf r)
    (hq : StepMemWf q) : StepMemWf (if p then r else q) := by
  split
  · exact hr
  · exact hq

/-- A choice of what the rest goes on from. -/
theorem StepMemWf.iteBind {ε α β : Type} {p : Prop} [Decidable p] {r q : Except ε β} {f : β → Except ε (State × α)}
    (hf : ∀ b, StepMemWf (f b)) : StepMemWf (if p then r >>= f else q >>= f) :=
  .ite (.bind hf) (.bind hf)

theorem OptMemWf.ite {p : Prop} [Decidable p] {o q : Option State} (ho : OptMemWf o) (hq : OptMemWf q) :
    OptMemWf (if p then o else q) := by
  split
  · exact ho
  · exact hq

theorem PeerRes.MemWf.ite {p : Prop} [Decidable p] {r q : PeerRes} (hr : r.MemWf) (hq : q.MemWf) :
    PeerRes.MemWf (if p then r else q) := by
  split
  · exact hr
  · exact hq

theorem Out.MemWf.ite {p : Prop} [Decidable p] {o q : Out} (ho : o.MemWf) (hq : q.MemWf) :
    Out.MemWf (if p then o else q) := by
  split
  · exact ho
  · exact hq

end

section
variable {s t : State} {k : Core} {c : CoreId} {x : StreamId} {p : PartId} {b : BitVec 7} {q : BitVec 15} {fn : BitVec 6}
  {pc : VAddr} {rdr : BitVec 3} {dev : BitVec 16} {n : Nat} {g : Guard}

/-! ## Machine/Base -/

theorem Core.MemWf.setStream {v : Stream} (h : k.MemWf) : (k.setStream x v).MemWf := by
  unfold Core.setStream
  split <;> exact h.of_eq rfl

theorem Core.MemWf.modStream {f : Stream → Stream} (h : k.MemWf) : (k.modStream x f).MemWf := h.setStream

theorem Core.MemWf.writeS {r : SReg} {v : Word} (h : k.MemWf) : (k.writeS x r v).MemWf := by
  unfold Core.writeS
  split
  · exact h
  · split
    · split
      · exact h.of_eq rfl
      · split <;> exact h.of_eq rfl
    · exact h.modStream

theorem Core.MemWf.writeP {r : PReg} {v : Bool} (h : k.MemWf) : (k.writeP x r v).MemWf := by
  unfold Core.writeP
  split
  · exact h
  · split
    · split
      · exact h.of_eq rfl
      · split <;> exact h.of_eq rfl
    · exact h.modStream

theorem State.MemWf.modStream {f : Stream → Stream} (h : s.MemWf) : (s.modStream c x f).MemWf :=
  h.modCore fun _ hk => hk.modStream

theorem State.MemWf.modPart {f : Partition → Partition} (h : s.MemWf) : (s.modPart p f).MemWf := h.of_eq rfl

theorem State.MemWf.ws {r : SReg} {v : Word} (h : s.MemWf) : (s.ws r v).MemWf := h.modCore fun _ hk => hk.writeS

theorem State.MemWf.wp {r : PReg} {v : Bool} (h : s.MemWf) : (s.wp r v).MemWf := h.modCore fun _ hk => hk.writeP

theorem State.MemWf.wk {r : KReg} {v : BitVec 16} (h : s.MemWf) : (s.wk r v).MemWf := h.modStream

theorem State.MemWf.goto {a : VAddr} (h : s.MemWf) : (s.goto a).MemWf := h.modStream

theorem State.MemWf.adv (h : s.MemWf) : s.adv.MemWf := h.goto

theorem State.MemWf.useFresh (h : s.MemWf) : s.useFresh.MemWf := h.of_eq rfl

theorem State.MemWf.takeTurn {k : Contest} {rank : Nat} (h : s.MemWf) : (s.takeTurn k rank).MemWf := h.of_eq rfl

theorem State.MemWf.checkTurn {k : Contest} {rank : Nat} (h : s.MemWf) : (s.checkTurn k rank).MemWf := h.of_eq rfl

theorem Core.MemWf.setCnt {x : CReg} {n : Count} (h : k.MemWf) : (k.setCnt x n).MemWf := by
  unfold Core.setCnt
  split <;> exact h.of_eq rfl

theorem Core.MemWf.putData {x : CReg} {d : WriteData} (h : k.MemWf) : (k.putData x d).MemWf := by
  unfold Core.putData
  split
  · exact h.of_eq rfl
  · exact h.of_eq rfl
  · exact h.of_eq rfl
  · exact h

theorem Core.MemWf.completeWrite {x : CReg} {d : WriteData} (h : k.MemWf) : (k.completeWrite x rdr d).MemWf := h.putData.setCnt

theorem Core.MemWf.reserve {x : CReg} (h : k.MemWf) : (k.reserve x).MemWf := h.setCnt

theorem Core.MemWf.orderReads {srcs : List SrcRef} (h : k.MemWf) : (k.orderReads x srcs).MemWf := h.of_eq rfl

theorem Core.MemWf.handOn {regs : List CReg} (h : k.MemWf) : (k.handOn x regs).MemWf := h.of_eq rfl

theorem Core.MemWf.orderCell {acq rel : Bool} {i : BitVec 12} (h : k.MemWf) : (k.orderCell x acq rel c i).MemWf := h.of_eq rfl

theorem Core.MemWf.debitAll {srcs : List SrcRef} (h : k.MemWf) : (k.debitAll x srcs).MemWf :=
  .orderReads (.foldl h (fun _ _ hk => hk.setCnt) _)

theorem State.MemWf.bar0 {f : State → State} (h : s.MemWf) (hf : ∀ s, s.MemWf → (f s).MemWf) : Out.MemWf (s.bar0 f) :=
  .next (.ite h (hf _ h))

theorem State.MemWf.sendIrq {vec : BitVec 11} (h : s.MemWf) : (s.sendIrq fn vec).MemWf := by
  unfold State.sendIrq
  split
  · exact h
  · split
    · split
      · split <;> exact h.of_eq rfl
      · exact h.of_eq rfl
    · exact h.of_eq rfl

theorem State.MemWf.modMbox {f : Mailbox → Mailbox} (h : s.MemWf) : (s.modMbox fn f).MemWf := h.of_eq rfl

theorem State.MemWf.postMail {r : BitVec 512} (h : s.MemWf) : (s.postMail fn r).MemWf := by
  unfold State.postMail
  split
  · exact h
  · exact .ite h.modMbox.sendIrq h.modMbox

theorem State.MemWf.postNotice {kind port : Nat} (h : s.MemWf) : (s.postNotice kind port dev).MemWf := h.postMail.of_eq rfl

theorem State.MemWf.errorRecord {kind src unit part count addr taskid pc syn : Nat} (h : s.MemWf) :
    (s.errorRecord kind src unit part count addr taskid pc syn).MemWf :=
  .ite (h.of_eq rfl) (h.of_eq rfl)

theorem State.MemWf.writeLater {f : PartField} (h : s.MemWf) : (s.writeLater p f).MemWf := h.of_eq rfl

theorem State.MemWf.takeFields (h : s.MemWf) : s.takeFields.MemWf := .of_eq (.foldl h (fun _ _ hs => hs.modPart) _) rfl

theorem MBank.MemWf.count {k : MBank} {key w : Nat} (h : k.MemWf) : (k.count key w).MemWf := by
  have hlf : (k.count key w).lf = k.lf :=
    List.foldlRecOn (motive := fun l : MBank => l.lf = k.lf) ((List.range 4).zip sketchMul) _ rfl fun _ e _ _ => e
  exact h.of_eq hlf

theorem State.MemWf.sketch {ev : BitVec 8} {w : Nat} (h : s.MemWf) : (s.sketch ev c pc w).MemWf := by
  unfold State.sketch
  split
  · exact .mapBanksIdx h fun _ _ hb => .ite hb.count hb
  · exact h

theorem State.MemWf.coreRecord {kind addr syn : Nat} (h : s.MemWf) : (s.coreRecord kind c addr pc syn).MemWf := by
  unfold State.coreRecord
  dsimp only
  exact h.errorRecord

theorem Core.MemWf.mismatchAt {tick : Nat} (h : k.MemWf) : (k.mismatchAt tick).MemWf := h.of_eq rfl

theorem State.MemWf.mismatch {u : Checker} (h : s.MemWf) : (s.mismatch c u pc).MemWf :=
  .sketch (h.coreRecord.modCore (fun _ hk => hk.mismatchAt))

/-! ## Machine/Operands -/

theorem State.MemWf.granulePoisoned {m : Meets} {pa syn : Nat} (h : s.MemWf) : (s.granulePoisoned m pa syn).MemWf := by
  have hg : (s.gmem.spoil (pa / 64)).mem.wf = true := PoisonMem.mark_wf h.gmem ..
  exact .errorRecord (.of_eq (h.setGmem hg) rfl)

theorem Core.MemWf.spoilCistern {granule : Nat} (h : k.MemWf) : (k.spoilCistern granule).MemWf :=
  ⟨PoisonMem.mark_wf h.cistern .., h.wbuf⟩

theorem State.MemWf.writePhys {pa : Nat} {bs : List Byte} {poison : Bool} (h : s.MemWf) :
    (s.writePhys p pa bs poison).MemWf := by
  have hw := State.writePhys_wf h.gmem p pa bs poison
  obtain ⟨g, e⟩ := s.writePhys_rest p pa bs poison
  rw [e] at hw ⊢
  exact h.setGmem hw

theorem State.MemWf.fillTlb {e : TlbEntry} (h : s.MemWf) : (s.fillTlb c e).MemWf := by
  have hs := h.modCore (c := c) (f := fun k => { k with tlb := tlbInsert tlbSize k.tlb e }) fun _ hk => hk.of_eq rfl
  exact .ite (hs.of_eq rfl) (hs.of_eq rfl)

theorem State.MemWf.writeLoc {l : Loc} {bs : List Byte} {poison : Bool} (h : s.MemWf) : (s.writeLoc c p l bs poison).MemWf := by
  unfold State.writeLoc
  split
  · exact h.modCore fun _ hk => ⟨PoisonMem.store_wf hk.cistern .., hk.wbuf⟩
  · exact h.writePhys
  · exact h

theorem State.MemWf.locError {l : Loc} (h : s.MemWf) : (s.locError c pc l).MemWf := by
  unfold State.locError
  split
  · exact .coreRecord (h.modCore (fun _ hk => hk.spoilCistern))
  · exact h.granulePoisoned
  · split
    · exact h.granulePoisoned
    · exact h
  · exact h
  · exact h

theorem MBank.MemWf.request {b : MBank} {o : ReqOwner} {head : BitVec 256} (h : b.MemWf) : (b.request c o head).MemWf :=
  h.of_eq rfl

theorem State.MemWf.request {o : ReqOwner} {r : Req} (h : s.MemWf) : (s.request c pc o r).MemWf :=
  .useFresh (.mapBanksIdx h.sketch.sketch (fun _ _ hb => .ite hb.request hb))

theorem State.MemWf.requests {o : ReqOwner} {rs : List Req} (h : s.MemWf) : (s.requests c pc o rs).MemWf := by
  unfold State.requests
  split
  · exact h
  · exact .foldl h (fun _ _ hs => .ite hs.sketch (.ite hs hs.request)) _

theorem State.MemWf.engineFill {as : List Attempt} (h : s.MemWf) : (s.engineFill c as).MemWf := by
  unfold State.engineFill
  refine .foldl h (fun s a hs => ?_) _
  split
  · exact hs.fillTlb
  · exact hs

/-! ## Machine/Fetch -/

theorem State.MemWf.viewCode {pasid : Option (BitVec 20)} {ipa : Bool} {lo hi : Nat} (h : s.MemWf) :
    (s.viewCode p pasid ipa lo hi).MemWf :=
  h.of_eq rfl

theorem Core.MemWf.viewCistern (h : k.MemWf) : k.viewCistern.MemWf := h.of_eq rfl

/-! ## Machine/Ops -/

theorem Core.MemWf.recredit {debits : List (CReg × BitVec 16)} (h : k.MemWf) : (k.recredit debits).MemWf :=
  .foldl h (fun _ _ hk => .ite hk.setCnt hk) _

theorem Core.MemWf.releaseReg {x : CReg} (h : k.MemWf) : (k.releaseReg x).MemWf := h.setCnt

theorem Core.MemWf.abandonWait (h : k.MemWf) : (k.abandonWait x).MemWf := by
  unfold Core.abandonWait
  refine .modStream ?_
  split
  · exact h.recredit
  · exact h.releaseReg.releaseReg
  · exact h.recredit.releaseReg
  · exact h.recredit.releaseReg
  · exact h

theorem Core.MemWf.divert {t : TrapRec} {l : Nat} (h : k.MemWf) : (k.divert t l).MemWf :=
  .ite (h.abandonWait.of_eq rfl) (h.abandonWait.of_eq rfl)

theorem State.MemWf.dropWatch (h : s.MemWf) : (s.dropWatch c x).MemWf := h.of_eq rfl

theorem State.MemWf.escalate {t : TrapRec} (h : s.MemWf) : (s.escalate c t).MemWf :=
  .postMail (.setCore (.ite h.dropWatch h) (.ite (.modStream (.abandonWait (.of_eq (h.core _) rfl))) (.of_eq (h.core _) rfl)))

theorem State.MemWf.deliver {t : TrapRec} (h : s.MemWf) : (s.deliver c t).MemWf := by
  unfold State.deliver
  dsimp only
  split
  · exact .checkTurn (h.modCore (fun _ hk => hk.of_eq rfl))
  · exact h.escalate.takeTurn
  · exact .takeTurn (.sketch (.dropWatch (h.modCore (fun _ hk => hk.divert))))

theorem Core.MemWf.stopFor {t : TrapRec} (h : k.MemWf) : (k.stopFor t).MemWf := by
  unfold Core.stopFor
  split
  · exact h
  · exact h.abandonWait.modStream

theorem State.MemWf.raise {t : TrapRec} (h : s.MemWf) : (s.raise c t).MemWf := .deliver (h.modCore (fun _ hk => hk.stopFor))

theorem State.MemWf.trapOn {base : BitVec 7} {eaddr : Word} (h : s.MemWf) : (s.trapOn c x base eaddr).MemWf := h.raise

theorem State.MemWf.trap {base : BitVec 7} {eaddr : Word} (h : s.MemWf) : (s.trap base eaddr).MemWf := h.trapOn

theorem State.MemWf.asyncTrap {base : BitVec 7} {eaddr : Word} {pump : Bool} (h : s.MemWf) :
    (s.asyncTrap c base eaddr pump).MemWf := by
  unfold State.asyncTrap
  split
  · exact h.of_eq rfl
  · exact h.raise

theorem State.MemWf.trapReserved (h : s.MemWf) : s.trapReserved.MemWf := h.trap

theorem State.MemWf.pipeCheckOn {u : Checker} (h : s.MemWf) : (s.pipeCheckOn c x u).MemWf := h.mismatch.trapOn

theorem State.MemWf.poisonOn {ea : VAddr} {pa : Nat} (h : s.MemWf) : (s.poisonOn c x ea pa).MemWf := h.coreRecord.trapOn

theorem State.MemWf.deliverHeld (h : s.MemWf) : (s.deliverHeld c).MemWf := by
  refine .ite ?_ h
  split
  · exact h
  · exact .deliver (h.setCore ((h.core c).of_eq rfl))

theorem Core.MemWf.modTrapSet {f : TrapSet → TrapSet} (h : k.MemWf) : (k.modTrapSet f).MemWf := by
  unfold Core.modTrapSet
  split <;> exact h.of_eq rfl

theorem Core.MemWf.returnFrom (h : k.MemWf) : k.returnFrom.MemWf := h.of_eq rfl

theorem Core.MemWf.restart (h : k.MemWf) : (k.restart x pc).MemWf := h.modStream

/-! ## Machine/Cells -/

theorem State.MemWf.setCell {i : BitVec 12} {v : Word} (h : s.MemWf) : (s.setCell c i v).MemWf := by
  have hs := h.modCore (c := c)
    (f := fun k => { k with cells := if v == 0 then k.cells.drop i.toNat else k.cells.set i.toNat v }) fun _ hk => hk.of_eq rfl
  exact hs.of_eq rfl

theorem State.MemWf.cellOp {k : SemKind} {i : BitVec 12} {b cmp : Word} (h : s.MemWf) :
    (s.cellOp k c i b cmp).1.MemWf :=
  h.setCell

theorem State.MemWf.cellOpAt {rank : Nat} {k : SemKind} {i : BitVec 12} {b cmp : Word} (h : s.MemWf) :
    (s.cellOpAt rank k c i b cmp).1.MemWf :=
  h.takeTurn.cellOp

theorem State.MemWf.addTo {h : Option (CoreId × BitVec 12)} {v : Word} (hs : s.MemWf) : (s.addTo h v).MemWf := by
  unfold State.addTo
  split
  · exact hs.cellOp
  · exact hs

/-! ## Machine/Ports -/

theorem State.MemWf.modPort {i : Fin 65} {f : Port → Port} (h : s.MemWf) : (s.modPort i f).MemWf := h.of_eq rfl

theorem State.MemWf.portDoor {i : Fin 65} (h : s.MemWf) : (s.portDoor i).MemWf := .ite h.modPort h.modPort

theorem State.MemWf.portWrite {i off : Nat} {v : Word} (h : s.MemWf) : (s.portWrite i off v).MemWf := by
  unfold State.portWrite
  split
  · exact h
  · split
    · exact h.modPort
    · split
      · exact h.portDoor
      · exact h

theorem State.MemWf.portRead {i : Nat} (h : s.MemWf) : (s.portRead i).1.MemWf := by
  unfold State.portRead
  split
  · dsimp only
    exact h
  · dsimp only
    exact h.modPort

theorem Core.MemWf.remove {r : Removal} (h : k.MemWf) : (k.remove r).MemWf := h.of_eq rfl

/-! ## Machine/Stores -/

theorem State.MemWf.storeUnit {u : MemUnit} {ws : List (Nat × List Byte × Bool)} (h : s.MemWf) :
    (s.storeUnit c u ws).MemWf := by
  unfold State.storeUnit
  split
  · split
    · exact h.portWrite
    · exact h
  · exact .foldl h (fun _ _ hs => hs.writeLoc) _

theorem State.MemWf.storeAll {r : StoreRec} (h : s.MemWf) : (s.storeAll c r).MemWf := .foldl h (fun _ _ hs => hs.storeUnit) _

theorem State.MemWf.readOne {r : LoadRec} (h : s.MemWf) : (s.readOne c r).MemWf :=
  .useFresh (h.modCore (fun _ hk => hk.of_eq rfl))

theorem State.MemWf.readBefore {seq : Nat} (h : s.MemWf) : (s.readBefore c seq).MemWf := .foldl h (fun _ _ hs => hs.readOne) _

theorem State.MemWf.storeOne (h : s.MemWf) : (s.storeOne c x).MemWf := by
  unfold State.storeOne
  split
  · exact h
  · exact .storeAll (.modStream (.ite h.readBefore h))

theorem State.MemWf.storeMany (h : s.MemWf) : (s.storeMany c x n).MemWf := by
  induction n generalizing s with
  | zero => exact h
  | succ n ih => exact ih h.storeOne

theorem State.MemWf.flushTo {seq : Nat} (h : s.MemWf) : (s.flushTo c x seq).MemWf := h.storeMany

theorem State.MemWf.flush (h : s.MemWf) : (s.flush c x).MemWf := h.storeMany

theorem State.MemWf.flushCore (h : s.MemWf) : (s.flushCore c).MemWf := h.flush.flush.flush.flush

theorem State.MemWf.readLoads {seq : Nat} (h : s.MemWf) : (s.readLoads c seq).MemWf :=
  .foldl h (fun _ _ hs => hs.storeMany.readOne) _

theorem State.MemWf.captureLoads (h : s.MemWf) : (s.captureLoads c).MemWf := h.readLoads

theorem State.MemWf.releaseOn (h : s.MemWf) : (s.releaseOn c x).MemWf := by
  unfold State.releaseOn
  split
  · exact h.flush.captureLoads
  · exact h.flush

/-! ## Machine/Fabric -/

theorem State.MemWf.sendPacket {release : Bool} {owner : PktOwner} {full : PacketBody} (h : s.MemWf) :
    SendRes.MemWf (s.sendPacket c dev release owner full) := by
  unfold State.sendPacket
  dsimp only
  split
  · exact .lost
  · exact .held
  · exact .sent (.useFresh (h.of_eq rfl))

theorem State.MemWf.leavePkt {seq : BitVec 32} (h : s.MemWf) : (s.leavePkt dev seq).MemWf := h.of_eq rfl

theorem State.MemWf.dropPkt {seq : BitVec 32} (h : s.MemWf) : (s.dropPkt dev seq).MemWf := h.of_eq rfl

/-! ## Machine/Issue -/

theorem State.MemWf.fetchTrap {base : BitVec 7} {eaddr : Word} {h : BitVec 16} {len : Nat} (hs : s.MemWf) :
    (s.fetchTrap c x base eaddr h len).MemWf :=
  hs.raise

theorem State.MemWf.dropAnswers {cause : BitVec 7} (h : s.MemWf) : (s.dropAnswers c cause).MemWf := by
  unfold State.dropAnswers
  split
  · exact h.of_eq rfl
  · exact h

theorem State.MemWf.fetchFail {r : FetchRes} (h : s.MemWf) : (s.fetchFail c x r).MemWf := by
  unfold State.fetchFail
  dsimp only
  split
  · exact h
  · exact h
  · exact h.fetchTrap
  · exact h.coreRecord.fetchTrap
  · exact h.dropAnswers.fetchTrap

theorem Core.MemWf.fillCache {f : Fetched} (h : k.MemWf) : (k.fillCache x f).MemWf := h.of_eq rfl

theorem Core.MemWf.priDone {pasid : BitVec 20} {page : BitVec 36} (h : k.MemWf) : (k.priDone p pasid page).MemWf :=
  .foldl h (fun _ _ hk => .ite hk.modStream hk) _

theorem State.MemWf.debugBreak (h : s.MemWf) : (s.debugBreak c x pc).MemWf := h.modStream

theorem State.MemWf.debugGo {d : Dbg} (h : s.MemWf) : (s.debugGo c x d).MemWf := h.modStream

theorem State.MemWf.debugRun (h : s.MemWf) : (s.debugRun c).MemWf := .foldl h (fun _ _ hs => hs.debugGo) _

theorem State.MemWf.debugStep (h : s.MemWf) : (s.debugStep c x).MemWf := h.debugGo

theorem State.MemWf.prepare {useCache : Bool} (h : s.MemWf) : (s.prepare c x useCache).1.MemWf := by
  unfold State.prepare
  split
  · split
    · exact h.modStream
    · split
      · next f _ =>
        have hf := h.modCore (c := c) fun k hk => (hk.modStream (x := x) (f := fun v => v.hold f)).fillCache (x := x) (f := f)
        dsimp only
        split
        · exact .ite (.of_eq hf rfl) (.sketch (.of_eq hf rfl))
        · exact .trap (.of_eq hf rfl)
        · exact .trap (.of_eq hf rfl)
        · exact .trapReserved (.of_eq hf rfl)
      · exact .fetchFail (.of_eq h rfl)
  · exact h

theorem State.MemWf.fetchEvent {useCache : Bool} (h : s.MemWf) : (s.fetchEvent c x useCache).MemWf := by
  unfold State.fetchEvent
  split
  · split
    · dsimp only
      split
      · exact h.modCore fun _ hk => hk.modStream.fillCache
      · exact h.prepare
    · exact h.fetchFail
  · exact h

theorem State.MemWf.pipeCheckPick (h : s.MemWf) : (s.pipeCheckPick c x).MemWf := by
  unfold State.pipeCheckPick
  split
  · next e =>
      split
      · exact .pipeCheckOn (.of_fst h.prepare e)
      · exact h
  · exact h

/-! ## Machine/Graph -/

theorem State.MemWf.modQueue {f : Queue → Queue} (h : s.MemWf) : (s.modQueue q f).MemWf := h.of_eq rfl

theorem State.MemWf.haltQueue {cause : BitVec 8} {sub : Nat} {edge : Bool} (h : s.MemWf) :
    (s.haltQueue q cause sub edge).MemWf :=
  .ite h.modQueue.sendIrq h.modQueue

theorem State.MemWf.notifyDrop (h : s.MemWf) : (s.notifyDrop q).MemWf := h.of_eq rfl

theorem execNotifyWidxWrite_memWf {pasid : Option (BitVec 20)} {v : BitVec 32} (h : s.MemWf) :
    Out.MemWf (execNotifyWidxWrite q pasid v s) := by
  refine .next (.ite h (.ite h.notifyDrop (.ite h.modQueue ?_)))
  split
  · exact h.modQueue.haltQueue
  · exact h.modQueue

theorem execQueueEnable_memWf {desc : BitVec 512} (h : s.MemWf) : Out.MemWf (execQueueEnable q desc s) :=
  h.bar0 fun _ hs => .ite hs.modQueue hs

theorem execQueueDisable_memWf (h : s.MemWf) : Out.MemWf (execQueueDisable q s) := h.bar0 fun _ hs => hs.modQueue

theorem State.MemWf.accept {c : BitVec 512} {req : Bool} (h : s.MemWf) : (s.accept q c req).MemWf := by
  unfold State.accept
  split
  · exact h.haltQueue
  · exact h.modQueue

theorem execCommandFetch_memWf (h : s.MemWf) : Out.MemWf (execCommandFetch q s) := by
  unfold execCommandFetch
  refine .next ?_
  split
  · exact h
  · split
    · exact h.haltQueue
    · split
      · exact h
      · exact h.haltQueue
      · exact h.accept

theorem execRequestPacket_memWf {pasid : Option (BitVec 20)} {cmd : BitVec 512} (h : s.MemWf) :
    Out.MemWf (execRequestPacket q pasid cmd s) := by
  unfold execRequestPacket
  refine .next ?_
  split
  · exact h
  · split
    · exact h.notifyDrop
    · split
      · exact h.haltQueue
      · exact h.accept

theorem State.MemWf.admitted (h : s.MemWf) : (s.admitted q).MemWf := h.modQueue

theorem execCmdNop_memWf (h : s.MemWf) : Out.MemWf (execCmdNop q s) := by
  unfold execCmdNop
  refine .next ?_
  split
  · exact h.admitted
  · exact h

theorem execCmdWait_memWf (h : s.MemWf) : Out.MemWf (execCmdWait q s) := by
  unfold execCmdWait
  refine .next ?_
  split
  · exact h
  · split
    · exact h
    · split
      · exact h
      · split
        · exact h.admitted
        · exact h.admitted.modQueue

theorem execQueueUnblock_memWf (h : s.MemWf) : Out.MemWf (execQueueUnblock q s) := by
  unfold execQueueUnblock
  refine .next ?_
  split
  · split
    · exact h.modQueue
    · exact h
  · exact h

theorem execCmdSignal_memWf (h : s.MemWf) : Out.MemWf (execCmdSignal q s) := by
  unfold execCmdSignal
  refine .next ?_
  split
  · exact h
  · split
    · exact h
    · exact h.admitted.modQueue

theorem execSignalPerform_memWf (h : s.MemWf) : Out.MemWf (execSignalPerform q s) := by
  unfold execSignalPerform
  refine .next ?_
  split
  · exact h
  · exact h.modQueue.addTo

theorem State.MemWf.mapNodes {sel : Node → Bool} {f : Node → Node} (h : s.MemWf) : (s.mapNodes sel f).MemWf := h.of_eq rfl

theorem State.MemWf.modNode {k : NodeKey} {f : Node → Node} (h : s.MemWf) : (s.modNode k f).MemWf := h.mapNodes

theorem State.MemWf.resolvePass {l : Launch} (h : s.MemWf) : (s.resolvePass l).MemWf := h.mapNodes

theorem State.MemWf.owe {sel : PartId → Partition → Bool} (h : s.MemWf) : (s.owe sel).MemWf := h.of_eq rfl

theorem State.MemWf.oweCores {cs : List CoreId} (h : s.MemWf) : (s.oweCores cs).MemWf := h.owe

theorem State.MemWf.enterWell (h : s.MemWf) : s.enterWell.MemWf := by
  unfold State.enterWell
  exact h.mapNodes.owe

theorem State.MemWf.resolveRun (h : s.MemWf) : (s.resolveRun n).MemWf := by
  induction n generalizing s with
  | zero => exact h
  | succ n ih => exact ih (.foldl h (fun _ _ hs => hs.resolvePass) _)

theorem State.MemWf.resolve_ (h : s.MemWf) : s.resolve_.MemWf := h.resolveRun.enterWell

theorem Core.MemWf.zeroed {other : Bool} : (k.zeroed other).MemWf := ⟨rfl, rfl⟩

theorem Core.MemWf.ended (h : k.MemWf) : k.ended.MemWf := h.of_eq rfl

theorem Core.MemWf.passOut : k.passOut.MemWf := ⟨rfl, rfl⟩

theorem Core.MemWf.grant (h : k.MemWf) : (k.grant p).MemWf := by
  unfold Core.grant
  split
  · exact h.of_eq rfl
  · exact ⟨rfl, rfl⟩

theorem State.MemWf.grantCore {n : NodeKey} (h : s.MemWf) : (s.grantCore n p c).MemWf :=
  h.modNode.modCore fun _ hk => hk.grant

theorem State.MemWf.gather (h : s.MemWf) : (s.gather p).MemWf := by
  unfold State.gather
  refine .foldl h (fun s c hs => .ite ?_ hs) _
  split
  · exact hs.grantCore
  · exact hs

theorem State.MemWf.replenishLevel {hs : List Node} (h : s.MemWf) : (s.replenishLevel hs).MemWf := by
  unfold State.replenishLevel
  dsimp only
  split
  · exact h
  · split
    · exact h
    · exact .foldl h (fun _ _ hs => hs.modQueue) _

theorem State.MemWf.replenish {hs : List Node} (h : s.MemWf) : (s.replenish hs).MemWf :=
  .foldl h (fun _ _ hs => hs.replenishLevel) _

theorem State.MemWf.modGroup {g : BitVec 4} {f : SliceGroup → SliceGroup} (h : s.MemWf) : (s.modGroup g f).MemWf := h.of_eq rfl

theorem State.MemWf.takeSlice (h : s.MemWf) : (s.takeSlice p).MemWf := by
  unfold State.takeSlice
  split
  · exact h
  · exact h.modGroup

theorem State.MemWf.choose {n : Node} (h : s.MemWf) : (s.choose p n).MemWf := h.takeSlice.modPart.mapNodes

theorem State.MemWf.idleDeficits (h : s.MemWf) : s.idleDeficits.MemWf := h.of_eq rfl

theorem State.MemWf.dispatch (h : s.MemWf) : (s.dispatch p).MemWf := by
  have hs : State.MemWf { s.idleDeficits with nodes := s.nodes.map s.ageNode } := h.idleDeficits.of_eq rfl
  refine .ite hs (.ite hs.replenish ?_)
  split
  · exact hs.replenish
  · exact hs.replenish.choose.gather

theorem State.MemWf.charge {dt : Nat} (h : s.MemWf) : (s.charge dt).MemWf := by
  unfold State.charge
  split
  · exact h
  · exact h.of_eq rfl

theorem State.MemWf.launch {c : BitVec 512} {nodes : List NodeRec} {edges : List Edge} (h : s.MemWf) :
    (s.launch q c nodes edges).MemWf := by
  have hs : ((s.admitted q).modQueue q fun k => { k with launches := k.launches + 1 }).MemWf := h.admitted.modQueue
  exact .resolve_ (hs.of_eq rfl)

theorem execCmdLaunch_memWf (h : s.MemWf) : Out.MemWf (execCmdLaunch q s) := by
  unfold execCmdLaunch
  refine .next ?_
  split
  · exact h
  · split
    · exact h
    · exact h.haltQueue
    · exact h.launch

theorem execLaunchComplete_memWf {seq : BitVec 32} (h : s.MemWf) : Out.MemWf (execLaunchComplete q seq s) := by
  unfold execLaunchComplete
  refine .next ?_
  split
  · exact h
  · split
    · exact h
    · exact .ite (.sendIrq (h.addTo.of_eq rfl)) (h.addTo.of_eq rfl)

theorem execAgingStep_memWf (h : s.MemWf) : Out.MemWf (execAgingStep q s) := by
  unfold execAgingStep
  refine .next ?_
  split
  · exact h
  · split
    · exact h.mapNodes
    · exact h

theorem Core.MemWf.startTask {t : Task} {r : Partition} {entry : VAddr} (h : k.MemWf) : (k.startTask t r entry).MemWf :=
  h.ended.of_eq rfl

theorem State.MemWf.giveDomains {n : Node} (h : s.MemWf) : (s.giveDomains n).MemWf := by
  unfold State.giveDomains
  split
  · exact h
  · exact h.of_eq rfl

theorem State.MemWf.oweRest (h : s.MemWf) : (s.oweRest p).MemWf := by
  unfold State.oweRest
  split
  · exact h.owe
  · exact h

theorem State.MemWf.firstView (h : s.MemWf) : (s.firstView p).MemWf := by
  unfold State.firstView
  split
  · exact h
  · exact h.of_eq rfl

theorem State.MemWf.startNode {unit : List Node} {n : Node} (h : s.MemWf) : (s.startNode unit n).MemWf :=
  .modNode (.foldl h (fun _ _ hs => hs.firstView.modCore (fun _ hk => hk.startTask)) _)

theorem State.MemWf.lfStart {unit : List Node} (h : s.MemWf) : (s.lfStart unit).MemWf := by
  unfold State.lfStart
  split
  · exact h
  · exact .mapBanksIdx h fun _ _ hb => .ite ⟨⟨hb.lf.checks, hb.lf.resume⟩⟩ hb

theorem execGangStart_memWf {k : NodeKey} (h : s.MemWf) : Out.MemWf (execGangStart k s) := by
  unfold execGangStart
  refine .next ?_
  split
  · exact h
  · split
    · exact h
    · exact .oweRest (.lfStart (.foldl h.giveDomains (fun _ _ hs => hs.startNode) _))

theorem State.MemWf.passOutOf (h : s.MemWf) : (s.passOutOf p).MemWf := .mapCores h fun _ hk => .ite .passOut hk

theorem State.MemWf.sliceStep (h : s.MemWf) : (s.sliceStep p).MemWf := .ite h (.ite h.passOutOf (.ite h h.modGroup.owe))

theorem State.MemWf.leaveUnits (h : s.MemWf) : (s.leaveUnits p).MemWf := .ite h (.ite h.passOutOf (.ite h.modPart h))

theorem State.MemWf.freeCores {n : Node} {zero : Bool} (h : s.MemWf) : (s.freeCores n zero).MemWf :=
  .oweCores (.modNode (.of_eq (.foldl h (fun _ _ hs => hs.modCore (fun _ hk => .ite .zeroed hk.ended)) _) rfl))

theorem State.MemWf.retireNode {n : Node} {aband zero : Bool} (h : s.MemWf) : (s.retireNode n aband zero).MemWf :=
  h.freeCores.modNode.resolve_.idleDeficits

theorem Core.MemWf.retireRole (h : k.MemWf) : k.retireRole.MemWf := h.ended.of_eq rfl

theorem execTaskRetire_memWf (h : s.MemWf) : Out.MemWf (execTaskRetire c s) := by
  unfold execTaskRetire
  refine .next ?_
  split
  · exact h
  · split
    · exact h
    · split
      · exact h
      · dsimp only
        split
        · split
          · exact h.modNode.retireNode
          · exact h.modNode.modCore fun _ hk => hk.retireRole
        · exact h.modNode

theorem State.MemWf.settlePart (h : s.MemWf) : (s.settlePart p).MemWf :=
  .ite (.dispatch (.modPart (.ite h.gather h))) (.ite h.gather h)

theorem State.MemWf.settle (h : s.MemWf) : s.settle.MemWf :=
  .foldl (.foldl h (fun _ _ hs => hs.sliceStep.leaveUnits) _) (fun _ _ hs => hs.settlePart) _

/-! ## Machine/Peer -/

theorem State.MemWf.peerSem {es : List ExportRec} {gang : Option NodeKey} {k : SemKind} {w b cmp : Word} {mismatch : Bool}
    (h : s.MemWf) : PeerRes.MemWf (s.peerSem p es gang k w b cmp mismatch) := by
  unfold State.peerSem
  refine .ite (.done h) ?_
  split
  · exact .done h
  · refine .ite (.done h) (.ite .hold ?_)
    split
    · exact .hold
    · exact .ite .hold (.ite (.done h.mismatch) (.done h.cellOpAt))

theorem State.MemWf.writePayload {pa size : Nat} {mask poison : BitVec 64} {data : List Byte} (h : s.MemWf) :
    (s.writePayload p pa size mask data poison).MemWf := by
  unfold State.writePayload
  exact .foldl_fst h (fun _ _ hs => hs.writePhys) _

theorem State.MemWf.peerPrem {es : List ExportRec} {va : VAddr} {size : Nat} {mask : BitVec 64} {data : List Byte}
    {poison : BitVec 64} (h : s.MemWf) : PeerRes.MemWf (s.peerPrem p es va size mask data poison) := by
  unfold State.peerPrem
  dsimp only
  split
  · exact .done h
  · split
    · exact .hold
    · exact .done h
    · exact .done h.writePayload

theorem State.MemWf.peerPerform {q : HeldPkt} {mismatch : Bool} (h : s.MemWf) : PeerRes.MemWf (s.peerPerform q mismatch) := by
  unfold State.peerPerform
  split
  · exact .done h
  · dsimp only
    split
    · exact h.peerSem
    · exact h.peerPrem

theorem State.MemWf.modRx {f : RxState → RxState} (h : s.MemWf) : (s.modRx dev f).MemWf := h.of_eq rfl

theorem State.MemWf.peerPass {mismatch : Option (BitVec 32)} {pkts : List HeldPkt} (h : s.MemWf) :
    (s.peerPass dev mismatch pkts).MemWf := by
  induction pkts generalizing s with
  | nil => exact h
  | cons q rest ih =>
    unfold State.peerPass
    split
    · exact ih h
    · split
      · exact ih h.modRx
      · next t _ e =>
        have ht := State.MemWf.of_done h.peerPerform e
        exact ih (ht.of_eq rfl)

theorem State.MemWf.peerPasses {mismatch : Option (BitVec 32)} (h : s.MemWf) : (s.peerPasses dev mismatch n).MemWf := by
  induction n generalizing s with
  | zero => exact h
  | succ n ih => exact ih h.peerPass

theorem State.MemWf.peerRun {mismatch : Bool} (h : s.MemWf) : (s.peerRun dev mismatch).MemWf := h.peerPasses

theorem State.MemWf.peerRunAll (h : s.MemWf) : s.peerRunAll.MemWf := .foldl h (fun _ _ hs => hs.peerRun) _

theorem State.MemWf.packetReceive {pkt : Packet} {mismatch : Bool} (h : s.MemWf) : (s.packetReceive pkt mismatch).MemWf := by
  refine .ite h (.ite ?_ (.ite h h.modRx.peerPasses))
  split
  · exact h.of_eq rfl
  · exact h

/-! ## Machine/PumpUnit -/

theorem State.MemWf.copyUnit {m : PumpCmd} {j : Nat} (h : s.MemWf) : StepMemWf (s.copyUnit c m j) := by
  unfold State.copyUnit
  dsimp only
  refine .iteBind fun idx => .iteBind fun src => .bind fun dst => .ite ?_ (.iteBind fun bs => ?_)
  · exact .bind fun bs => .ok (.setFresh h.writeLoc)
  · exact .ok (.setFresh h.writeLoc)

theorem State.MemWf.writeWbuf {off : Nat} {bs : List Byte} (h : s.MemWf) : (s.writeWbuf c off bs).MemWf :=
  h.modCore fun _ hk => ⟨hk.cistern, PoisonMem.store_wf hk.wbuf ..⟩

theorem State.MemWf.scaleUnit {m : PumpCmd} (h : s.MemWf) : StepMemWf (s.scaleUnit c m) := by
  unfold State.scaleUnit
  exact .bind fun _ => .ok h.writeWbuf

theorem State.MemWf.weightUnit {m : PumpCmd} {j : Nat} (h : s.MemWf) : StepMemWf (s.weightUnit c m j) := by
  unfold State.weightUnit
  dsimp only
  split
  · exact .error
  · split
    · exact .error
    · exact .bind fun _ => .bind fun _ => .ok h.writeWbuf

theorem State.MemWf.localUnit {m : PumpCmd} {j : Nat} (h : s.MemWf) : StepMemWf (s.localUnit c m j) := by
  unfold State.localUnit
  split
  · exact h.scaleUnit
  · split
    · exact h.weightUnit
    · exact h.copyUnit

theorem State.MemWf.scramble {m : PumpCmd} {u : Nat} (h : s.MemWf) : (s.scramble c m u).MemWf := by
  unfold State.scramble
  split
  · exact h
  · split
    · exact h.writeWbuf.of_eq rfl
    · dsimp only
      split
      · exact h
      · split
        · exact h
        · exact h.writeLoc.of_eq rfl

/-! ## Machine/Waits -/

theorem State.MemWf.finishOn (h : s.MemWf) : (s.finishOn c x).MemWf := h.modStream

theorem State.MemWf.waitOn {st : StreamState} {p : Pend} (h : s.MemWf) : (s.waitOn c x st p).MemWf := h.modStream

theorem Core.MemWf.setPump {second : Bool} {p : Pump} (h : k.MemWf) : (k.setPump second p).MemWf := by
  unfold Core.setPump
  split <;> exact h.of_eq rfl

theorem State.MemWf.arrayEnter {e : AQEntry} {debits : List (CReg × BitVec 16)} (h : s.MemWf) :
    (s.arrayEnter c x e debits).MemWf :=
  .ite (.takeTurn (.finishOn (h.setCore (.of_eq (h.core _) rfl)))) h.waitOn

theorem State.MemWf.acceptVec {r : CReg} {d : WriteData} {m : Option (MReg × BitVec 32)} {debits : List (CReg × BitVec 16)}
    (h : s.MemWf) : (s.acceptVec c x r rdr d m debits).MemWf :=
  .finishOn (h.modCore (fun _ hk => hk.reserve.of_eq rfl))

theorem Core.MemWf.land {m : PumpCmd} (h : k.MemWf) : (k.land m).MemWf := by
  unfold Core.land
  split
  · exact h.of_eq rfl
  · exact h

theorem Core.MemWf.raceLatches {runs : List (Nat × Nat)} (h : k.MemWf) : (k.raceLatches runs).MemWf := by
  unfold Core.raceLatches
  split
  · exact h
  · exact h.of_eq rfl

theorem State.MemWf.freePump {second : Bool} {f : Core → Core} (h : s.MemWf) (hf : ∀ k, k.MemWf → (f k).MemWf) :
    (s.freePump c second f).MemWf :=
  .takeTurn (h.modCore (fun _ hk => .setPump (hf _ hk)))

theorem State.MemWf.afterDst {r : CReg} {debits : List (CReg × BitVec 16)} {op : DstOp} (h : s.MemWf) :
    (s.afterDst c x r rdr debits op).MemWf := by
  unfold State.afterDst
  split
  · exact .finishOn (h.releaseOn.modCore (fun _ hk => hk.completeWrite))
  · exact h.acceptVec
  · split
    · exact .finishOn (h.requests.modCore (fun _ hk => hk.reserve.of_eq rfl))
    · exact h
  · exact .arrayEnter (h.modCore (fun _ hk => hk.reserve))
  · exact .arrayEnter (h.modCore (fun _ hk => hk.reserve))
  · exact .arrayEnter (h.modCore (fun _ hk => hk.reserve.reserve))
  · exact .finishOn (h.modCore (fun _ hk => hk.reserve.of_eq rfl))
  · exact .takeTurn (.finishOn (h.modCore (fun _ hk => hk.reserve.raceLatches.of_eq rfl)))
  · split
    · split
      · exact .takeTurn (.finishOn (h.freePump (fun _ hk => hk.reserve.of_eq rfl)))
      · exact h.trapOn
    · exact h
  · split
    · split
      · exact .finishOn (h.releaseOn.scramble.freePump (fun _ hk => hk.completeWrite.land))
      · exact h.trapOn
    · exact h

theorem Core.MemWf.reseat (h : k.MemWf) : k.reseat.MemWf := by
  refine .foldl h (fun k y hk => ?_) _
  split
  · exact .ite hk.modStream hk
  · exact hk

theorem State.MemWf.dstPhase {r : CReg} {debits : List (CReg × BitVec 16)} {op : DstOp} (h : s.MemWf) :
    (s.dstPhase c x r rdr debits op).MemWf :=
  .ite h.trapOn (.ite h.waitOn.trapOn (.ite h.waitOn (.ite h.waitOn (.afterDst (h.modCore (fun _ hk => hk.handOn))))))

theorem State.MemWf.nullWrite {r : CReg} (h : s.MemWf) : (s.nullWrite c x r rdr).MemWf := h.dstPhase

theorem State.MemWf.afterSrc {op : SrcOp} {vals : List RegVal} {debits : List (CReg × BitVec 16)} (h : s.MemWf) :
    (s.afterSrc c x op vals debits).MemWf := by
  unfold State.afterSrc
  split
  · exact h.finishOn
  · split
    exact h.dstPhase
  · exact h.dstPhase
  · exact h.dstPhase
  · exact .finishOn (.modStream (h.requests.modCore (fun _ hk => hk.of_eq rfl)))
  · exact h.dstPhase

theorem State.MemWf.srcBar {op : SrcOp} {vals : List RegVal} (h : s.MemWf) : OptMemWf (s.srcBar c x op vals) := by
  unfold State.srcBar
  split
  · exact .map (fun _ => h.poisonOn) _
  · exact .ite .none (.map (fun _ => h.trapOn) _)
  · exact .none

theorem State.MemWf.readSources {srcs : List SrcRef} {op : SrcOp} (h : s.MemWf) : (s.readSources c x srcs op).MemWf := by
  unfold State.readSources
  dsimp only
  split
  · next e => exact .of_some h.srcBar e
  · exact .afterSrc (.modCore (h.of_eq (by rfl)) (fun _ hk => hk.debitAll))

theorem State.MemWf.srcPhase {srcs : List SrcRef} {op : SrcOp} (h : s.MemWf) : (s.srcPhase c x srcs op).MemWf := by
  unfold State.srcPhase
  split
  · exact h.trapOn
  · exact h.trapOn
  · exact h.trapOn
  · exact h.waitOn
  · exact h.trapOn
  · exact h.readSources

theorem State.MemWf.srcIssue {srcs : List SrcRef} {op : SrcOp} (h : s.MemWf) : (s.srcIssue c x srcs op).MemWf := by
  unfold State.srcIssue
  split
  · exact h.trapOn
  · exact h.srcPhase

theorem State.MemWf.masked {srcs : List SrcRef} {op : SrcOp} (h : s.MemWf) : (s.masked c x srcs op).MemWf := by
  unfold State.masked
  split
  · split
    · exact h.dstPhase
    · exact h.srcIssue
  · split
    · exact h.nullWrite
    · split
      · exact h.takeTurn.trapOn
      · exact h.srcIssue
  · exact h.srcIssue

theorem State.MemWf.maskPhase {srcs : List SrcRef} {op : SrcOp} {k : Option MReg} (h : s.MemWf) :
    (s.maskPhase c x srcs op k).MemWf := by
  unfold State.maskPhase
  split
  · exact h.masked
  · split
    · split
      · exact h.trapOn
      · exact h.waitOn
    · exact h.masked

theorem State.MemWf.vecIssue {dst : CReg} {mk : Option MReg} {srcs : List SrcRef} {fn : VecFn} (h : s.MemWf) :
    Out.MemWf (s.vecIssue g dst rdr mk srcs fn) :=
  .next (.ite h.maskPhase h.dstPhase)

/-! ## Machine/HostFabric -/

theorem execQmapWrite_memWf {v : BitVec 32} (h : s.MemWf) : Out.MemWf (execQmapWrite q v s) := by
  unfold execQmapWrite
  exact h.bar0 fun _ hs => .ite (hs.of_eq rfl) hs.modQueue

theorem State.MemWf.modLink {l : Fin 24} {f : Link → Link} (h : s.MemWf) : (s.modLink l f).MemWf := h.of_eq rfl

theorem execLinkFaultDetect_memWf {l : Fin 24} (h : s.MemWf) : Out.MemWf (execLinkFaultDetect l s) :=
  .next (.ite (.postNotice (.modLink (h.of_eq rfl))) h)

theorem execLinkUp_memWf {l : Fin 24} (h : s.MemWf) : Out.MemWf (execLinkUp l s) := .next (.ite h h.modLink.postNotice)

theorem State.MemWf.deviceLoss (h : s.MemWf) : (s.deviceLoss dev).MemWf := .postNotice (h.of_eq rfl)

theorem execLinkResolveExpire_memWf {l : Fin 24} (h : s.MemWf) : Out.MemWf (execLinkResolveExpire l s) := by
  unfold execLinkResolveExpire
  refine .next ?_
  split
  · exact h
  · exact .foldl (.useFresh (.of_eq (h.of_eq (by rfl)) (by rfl))) (fun _ _ hs => hs.deviceLoss) _

theorem execSourceResetNotice_memWf (h : s.MemWf) : Out.MemWf (execSourceResetNotice dev s) := .next (.deviceLoss (h.of_eq rfl))

theorem execPacketAck_memWf {seq : BitVec 32} {result : AckRes} (h : s.MemWf) : Out.MemWf (execPacketAck dev seq result s) := by
  unfold execPacketAck
  refine .next ?_
  split
  · exact h
  · split
    · exact h
    · split
      · exact h.dropPkt
      · exact h.of_eq rfl

theorem execPacketRefused_memWf {seq : BitVec 32} (h : s.MemWf) : Out.MemWf (execPacketRefused dev seq s) :=
  .next (.useFresh (h.of_eq rfl))

theorem execRoutingSwap_memWf (h : s.MemWf) : Out.MemWf (execRoutingSwap s) := h.bar0 fun _ hs => hs.of_eq rfl

theorem execKeySwap_memWf (h : s.MemWf) : Out.MemWf (execKeySwap s) := h.bar0 fun _ hs => hs.of_eq rfl

theorem execSwapComplete_memWf {key : Bool} (h : s.MemWf) : Out.MemWf (execSwapComplete key s) :=
  .next (.ite (.ite (.postNotice (h.of_eq rfl)) h) (.ite (.postNotice (h.of_eq rfl)) h))

/-! ## Machine/Scalar -/

theorem State.MemWf.doing {s' : State} (h : s.MemWf) (hs' : s'.MemWf) : Out.MemWf (s.doing g s') := .next (.ite hs'.adv h.adv)

theorem State.MemWf.setS {d : SReg} {v : Word} (h : s.MemWf) : Out.MemWf (s.setS g d v) := h.doing h.ws

theorem State.MemWf.setP {d : PReg} {v : Bool} (h : s.MemWf) : Out.MemWf (s.setP g d v) := h.doing h.wp

theorem State.MemWf.setK {d : KReg} {v : BitVec 16} (h : s.MemWf) : Out.MemWf (s.setK g d v) := h.doing h.wk

theorem State.MemWf.setDiv {d : SReg} {b v : Word} (h : s.MemWf) : Out.MemWf (s.setDiv g d b v) := by
  unfold State.setDiv
  split
  · exact .next h.trap
  · exact h.setS

/-! ## Machine/Control -/

theorem execCrd_memWf {d : SReg} {x : CReg} (h : s.MemWf) : Out.MemWf (execCrd g d x s) := .ite (.next h.trap) (h.doing h.ws)

theorem execCwait_memWf {x : CReg} {k : KReg} {off : BitVec 5} (h : s.MemWf) : Out.MemWf (execCwait g x k off s) := by
  unfold execCwait
  split
  · exact .next h.srcIssue
  · exact .next h.adv

theorem execBr_memWf {off : BitVec 48} (h : s.MemWf) : Out.MemWf (execBr g off s) := .next (.ite h.goto h.adv)

theorem State.MemWf.jump {a : SReg} (h : s.MemWf) : Out.MemWf (s.jump g a) :=
  .ite (.next h.adv) (.ite (.next h.trap) (.next h.goto))

theorem execCall_memWf {d : SReg} {off : BitVec 48} (h : s.MemWf) : Out.MemWf (execCall g d off s) :=
  .next (.ite h.ws.goto h.adv)

theorem execLoop_memWf {d : SReg} {kmask : BitVec 7} {drain : Bool} {off : BitVec 48} (h : s.MemWf) :
    Out.MemWf (execLoop g d kmask drain off s) := by
  unfold execLoop
  split
  · exact .next h.adv
  · exact .next (.ite h.modStream.ws.adv h.modStream.ws.goto)

theorem State.MemWf.controlState {sub : Word} (h : s.MemWf) : (s.controlState sub).MemWf := h.trap

theorem execDpt_memWf {a b : SReg} (h : s.MemWf) : Out.MemWf (execDpt a b s) := by
  unfold execDpt
  split
  · exact .next h.controlState
  · split
    · exact .next h.adv.modStream
    · exact .next h.adv

theorem Core.MemWf.fork (h : k.MemWf) : k.fork.MemWf := h.of_eq rfl

theorem execFork_memWf (h : s.MemWf) : Out.MemWf (execFork s) := by
  unfold execFork
  split
  · exact .next h.controlState
  · split
    · exact .next h.controlState
    · exact .next (.adv (h.releaseOn.modCore (fun _ hk => hk.fork)))

theorem execJoin_memWf (h : s.MemWf) : Out.MemWf (execJoin s) := by
  unfold execJoin
  split
  · exact .next h.controlState
  · exact .next h.releaseOn.waitOn

theorem execEndStream_memWf (h : s.MemWf) : Out.MemWf (execEndStream s) := by
  unfold execEndStream
  split
  · exact .next h.controlState
  · exact .next h.releaseOn.waitOn

theorem execPost_memWf {a : SReg} (h : s.MemWf) : Out.MemWf (execPost g a s) := h.doing (h.modCore (fun _ hk => hk.of_eq rfl))

theorem Core.MemWf.leaveJoin {j : Nat} (h : k.MemWf) : (k.leaveJoin j).MemWf := by
  unfold Core.leaveJoin
  exact .ite (h.of_eq rfl) h

theorem execJoinComplete_memWf (h : s.MemWf) : Out.MemWf (execJoinComplete c s) := by
  unfold execJoinComplete
  refine .next ?_
  split
  · split
    · exact h
    · exact h.modCore fun _ hk => hk.leaveJoin
  · exact h

/-! ## Machine/Access -/

theorem State.MemWf.walkFor {va : VAddr} {write : Bool} {pri : Option (BitVec 36)} (h : s.MemWf) :
    (s.walkFor va write pri).MemWf :=
  .ite h.modStream h.modStream.sketch

theorem State.MemWf.accessBar {va0 : VAddr} {write : Bool} {r : UnitRes} (h : s.MemWf) : (s.accessBar va0 write r).MemWf := by
  unfold State.accessBar
  split
  · exact h
  · exact h.walkFor
  · exact h.walkFor
  · exact h.dropAnswers.trap
  · exact h.poisonOn

theorem State.MemWf.access {a : UnitAcc} {vas : List VAddr} {go : State → List MemUnit → State} (h : s.MemWf)
    (hgo : ∀ s a, s.MemWf → (go s a).MemWf) : (s.access a vas go).MemWf := by
  unfold State.access
  split
  · exact hgo _ _ h
  · exact h.accessBar

theorem State.MemWf.tileLoad {d : TDst} {planed : Option (Nat × Bool)} {a : UnitAcc} {vas : List VAddr} (h : s.MemWf) :
    Out.MemWf (s.tileLoad g d planed a vas) :=
  .next (.ite (h.access (fun _ _ hs => hs.dstPhase)) h.nullWrite)

theorem State.MemWf.tileStore {srcs : List SrcRef} {planed : Option Nat} {cm : Bool} {a : UnitAcc} {vas : List VAddr}
    (h : s.MemWf) : Out.MemWf (s.tileStore g srcs planed cm a vas) := by
  unfold State.tileStore
  refine .next ?_
  split
  · split
    · exact h.trap
    · exact h.access fun _ _ hs => hs.srcPhase
  · exact h.adv

theorem State.MemWf.scalarLoad {t base : SReg} {off : BitVec 24} {signed : Bool} (h : s.MemWf) :
    Out.MemWf (s.scalarLoad g t base off n signed) := by
  unfold State.scalarLoad
  refine .next ?_
  split
  · refine h.access fun s a hs => ?_
    split
    · exact .waitOn (hs.requests.modCore (fun _ hk => hk.of_eq rfl))
    · exact hs
  · exact h.adv

theorem State.MemWf.pushStore {d : StoreData} {us : List MemUnit} (h : s.MemWf) : (s.pushStore c x d us).MemWf :=
  .modStream (h.requests.modCore (fun _ hk => hk.of_eq rfl))

theorem State.MemWf.scalarStore {t base : SReg} {off : BitVec 24} (h : s.MemWf) : Out.MemWf (s.scalarStore g t base off n) :=
  .next (.ite (h.access (fun _ _ hs => hs.pushStore.adv)) h.adv)

theorem State.MemWf.tagTurn (h : s.MemWf) : s.tagTurn.MemWf := h.takeTurn

theorem execLookup_memWf {t base : SReg} {off : BitVec 24} (h : s.MemWf) : Out.MemWf (execLookup g t base off s) := by
  unfold execLookup
  split
  · exact .next h.ws.adv.tagTurn
  · exact .next h.adv

theorem Core.MemWf.setTag {i : Nat} {v : Word} (h : k.MemWf) : (k.setTag i v).MemWf := h.of_eq rfl

theorem execTagset_memWf {t base : SReg} {off : BitVec 24} (h : s.MemWf) : Out.MemWf (execTagset g t base off s) :=
  .ite (.next h.adv) <| .ite (.next h.trap) <| .ite (.next h.trapReserved) <|
    .next (h.modCore fun _ hk => hk.setTag).adv.tagTurn

theorem execTaginv_memWf {base : SReg} {off : BitVec 24} (h : s.MemWf) : Out.MemWf (execTaginv g base off s) :=
  .ite (.next h.adv) (.ite (.next h.trap) (.next (.tagTurn (.adv (h.modCore (fun _ hk => hk.setTag))))))

theorem execProbe_memWf {t base : SReg} {off : BitVec 24} {range : BitVec 4} (h : s.MemWf) :
    Out.MemWf (execProbe g t base off range s) := by
  unfold execProbe
  split
  · exact .next h.ws.adv.tagTurn
  · exact .next h.adv

theorem State.MemWf.onCore {f : State → State} (h : s.MemWf) (hf : ∀ s, s.MemWf → (f s).MemWf) : Out.MemWf (s.onCore c f) :=
  .next (.ite h (hf _ h))

theorem State.MemWf.ldsRead {o : LdsOp} (h : s.MemWf) : (s.ldsRead c o).1.MemWf := by
  unfold State.ldsRead
  split
  · exact h.portRead
  · exact h

theorem State.MemWf.beforeLds {o : LdsOp} (h : s.MemWf) : (s.beforeLds c x o).MemWf := .storeMany (.ite h.readLoads h)

theorem execScalarLoadReturn_memWf {err : Bool} (h : s.MemWf) : Out.MemWf (execScalarLoadReturn c x err s) := by
  unfold execScalarLoadReturn
  refine h.onCore fun s hs => ?_
  split
  · next o _ =>
    have hread := (hs.beforeLds (c := c) (x := x) (o := o)).ldsRead (c := c) (o := o)
    refine .ite (.deliverHeld ?_) ?_
    all_goals exact .ite (.poisonOn (.waitOn (.ite hread hread.locError))) (.finishOn (hread.modCore fun _ hk => hk.writeS))
  · exact hs

theorem execTileStorePerformed_memWf (h : s.MemWf) : Out.MemWf (execTileStorePerformed c x s) :=
  h.onCore fun _ hs => .ite hs.storeOne hs

theorem execScalarStorePerformed_memWf (h : s.MemWf) : Out.MemWf (execScalarStorePerformed c x s) :=
  h.onCore fun _ hs => .ite hs.storeOne hs

theorem State.MemWf.loadErrors {r : LoadRec} {bad : List (Loc × List Nat)} (h : s.MemWf) : (s.loadErrors c r bad).MemWf :=
  .foldl h (fun _ _ hs => hs.locError) _

theorem execTileLoadComplete_memWf {i : Nat} {err : Bool} (h : s.MemWf) : Out.MemWf (execTileLoadComplete c i err s) := by
  unfold execTileLoadComplete
  refine h.onCore fun s hs => ?_
  split
  · exact hs
  · dsimp only
    split
    · exact hs.flushTo.readBefore
    · exact .setFresh (hs.flushTo.readBefore.loadErrors.modCore fun _ hk => hk.completeWrite.of_eq (by rfl))

theorem State.MemWf.walkError {t : TransCtx} {va : VAddr} (h : s.MemWf) : (s.walkError c x t va).MemWf :=
  h.locError.useFresh.poisonOn

theorem execPageWalkComplete_memWf {useL2 wide ecc : Bool} (h : s.MemWf) :
    Out.MemWf (execPageWalkComplete c x useL2 wide ecc s) := by
  refine h.onCore fun s hs => ?_
  split
  · exact hs
  · refine .ite hs (.ite (.ite hs hs.modStream) (.ite hs ?_))
    split
    · exact hs.modStream.modCore fun _ hk => hk.of_eq rfl
    · refine .ite hs.modStream.walkError ?_
      split
      · exact hs.modStream.fillTlb
      · exact hs.modStream.trapOn
      · exact hs.modStream.poisonOn
      · exact hs

theorem execPriResponse_memWf {pasid : BitVec 20} {page : BitVec 36} {ok : Bool} (h : s.MemWf) :
    Out.MemWf (execPriResponse p pasid page ok s) := by
  have hs := h.mapCores (f := fun k => if k.gated then k else k.priDone p pasid page) fun _ hk => .ite hk hk.priDone
  exact .next (hs.of_eq rfl)

/-! ## Machine/Vector -/

theorem State.MemWf.tileOp {d : TDst} {mk : Option MReg} {srcs : List TSrc} {fn : VecFn} (h : s.MemWf) :
    Out.MemWf (s.tileOp g d mk srcs fn) :=
  h.vecIssue

theorem State.MemWf.nupdIssue {d : TDst} {a b : TSrc} {c : SReg} {ty : ElemTy} {cm : Bool} {k : MReg} (h : s.MemWf) :
    Out.MemWf (s.nupdIssue g d a b c ty cm k) :=
  h.tileOp

/-! ## Machine/Matrix -/

theorem execWlatch_memWf {d : GDst} {a : GSrc} {ws ss : SReg} {fmt : WFmt} {np : BitVec 2} {rn : Bool} (h : s.MemWf) :
    Out.MemWf (execWlatch g d a ws ss fmt np rn s) :=
  .ite (.next h.nullWrite) (.ite (.next h.trapReserved) (.next h.srcIssue))

theorem execWclr_memWf (h : s.MemWf) : Out.MemWf (execWclr g s) := .next (.ite h.arrayEnter h.adv)

theorem execMma_memWf {d : ADst} {a : TSrc} {b : Option ASrc} {cs : Option TSrc} {ty : ElemTy} {band ksel : BitVec 2}
    {mk : Option MReg} {zs : Bool} (h : s.MemWf) : Out.MemWf (execMma g d a b cs ty band ksel mk zs s) :=
  .next (.ite h.maskPhase h.nullWrite)

theorem State.MemWf.modNest {f : NestSet → NestSet} (h : s.MemWf) : (s.modNest f).MemWf := h.modCore fun _ hk => hk.of_eq rfl

theorem execNsetl_memWf {l : Fin 6} {a b cs : SReg} (h : s.MemWf) : Out.MemWf (execNsetl g l a b cs s) := h.doing h.modNest

theorem execNsetb_memWf {f : Fin 6} {a : SReg} (h : s.MemWf) : Out.MemWf (execNsetb g f a s) := h.doing h.modNest

theorem execNstat_memWf {d : SReg} {sel : Bool} (h : s.MemWf) : Out.MemWf (execNstat g d sel s) := by
  unfold execNstat
  split
  · exact h.setS
  · exact h.doing (.ws (h.modCore (fun _ hk => hk.of_eq rfl)))

theorem execNgo_memWf {d : GDst} {o : OrdScp} (h : s.MemWf) : Out.MemWf (execNgo g d o s) :=
  .next (.ite h.nullWrite (.ite h.trap (.ite h.trap h.dstPhase)))

theorem Core.MemWf.arrayPop (h : k.MemWf) : k.arrayPop.MemWf := h.of_eq rfl

theorem State.MemWf.wbufError {off : Nat} (h : s.MemWf) : (s.wbufError c off pc).MemWf :=
  .useFresh (.coreRecord (h.modCore (fun _ hk => ⟨hk.cistern, PoisonMem.mark_wf hk.wbuf ..⟩)))

theorem execWlatchComplete_memWf {err : EngineErr} (h : s.MemWf) : Out.MemWf (execWlatchComplete c err s) := by
  unfold execWlatchComplete
  refine h.onCore fun s hs => ?_
  split
  · exact .setFresh (.modCore (.ite hs.mismatch (.ite hs.wbufError (.ite hs hs.coreRecord)))
      fun _ hk => .completeWrite (.arrayPop (hk.of_eq (by rfl))))
  · exact hs

theorem execWclrExecute_memWf (h : s.MemWf) : Out.MemWf (execWclrExecute c s) := by
  unfold execWclrExecute
  refine h.onCore fun s hs => ?_
  split
  · exact hs.modCore fun _ hk => hk.arrayPop.of_eq rfl
  · exact hs

theorem execMmaComplete_memWf {mismatch : Bool} (h : s.MemWf) : Out.MemWf (execMmaComplete c mismatch s) := by
  unfold execMmaComplete
  refine h.onCore fun s hs => ?_
  split
  · exact .modCore (.ite hs.useFresh.mismatch hs) fun _ hk => .completeWrite (hk.arrayPop.of_eq rfl)
  · exact hs

theorem State.MemWf.nestStore {n : NestSet} {p : Pairing} {a : NestAcc} {rows : List (List MemUnit)} (h : s.MemWf) :
    (s.nestStore c n p a rows).MemWf :=
  .foldl h (fun _ _ hs => .foldl hs (fun _ _ hs => hs.writeLoc) _) _

theorem State.MemWf.nestGroup {r : NestRec} (h : s.MemWf) : ResMemWf (s.nestGroup c r) := by
  unfold State.nestGroup
  split
  · exact .error
  · refine .bind fun _ => .bind fun _ => ?_
    split
    · exact .error
    · exact .ok (.modCore (.of_eq h.nestStore (by rfl)) fun _ hk => hk.of_eq (by rfl))

theorem execNestGroupComplete_memWf (h : s.MemWf) : Out.MemWf (execNestGroupComplete c s) := by
  unfold execNestGroupComplete
  refine h.onCore fun s hs => ?_
  split
  · exact hs
  · split
    · split
      · next e'' => exact .of_ok hs.releaseOn.nestGroup e''
      · exact hs
    · exact hs

theorem State.MemWf.nestEnd {r : NestRec} {status : Nat} {f : Option NestFault} (h : s.MemWf) :
    (s.nestEnd c r status f).MemWf := by
  have hrel : State.MemWf (if releases r.o then s.releaseOn c .ctrl else s) := .ite h.releaseOn h
  exact .useFresh (.modCore (.ite hrel.mismatch hrel) fun k hk => .completeWrite (.completeWrite (hk.arrayPop.of_eq rfl)))

theorem State.MemWf.nestError {r : NestRec} (h : s.MemWf) : (s.nestError c r).MemWf := by
  unfold State.nestError
  dsimp only
  split
  · split
    · exact h.useFresh.locError
    · exact h.useFresh.wbufError
  · exact h.useFresh.wbufError

theorem execNestComplete_memWf {err : EngineErr} (h : s.MemWf) : Out.MemWf (execNestComplete c err s) := by
  unfold execNestComplete
  refine h.onCore fun s hs => ?_
  split
  · exact hs
  · split
    · split
      · exact hs
      · exact hs.nestError.nestEnd
    · split
      · exact hs.nestEnd
      · split
        · exact hs.nestEnd
        · split
          · exact hs.nestEnd
          · split
            · exact hs
            · exact hs
            · exact hs.releaseOn.coreRecord.nestEnd
            · exact hs.releaseOn.dropAnswers.nestEnd

theorem execArrayQueueRoom_memWf (h : s.MemWf) : Out.MemWf (execArrayQueueRoom c x s) := by
  unfold execArrayQueueRoom
  refine h.onCore fun s hs => ?_
  split
  · split
    · exact hs.arrayEnter
    · exact hs
  · exact hs

/-! ## Machine/Pump -/

theorem State.MemWf.pumpIssue {d : GDst} {cmd : PumpCmd} {bad : Bool} (h : s.MemWf) : Out.MemWf (s.pumpIssue g d cmd bad) :=
  .next (.ite h.nullWrite (.ite h.trapReserved h.dstPhase))

theorem State.MemWf.parkedIssue {d : GDst} {op : DstOp} (h : s.MemWf) : Out.MemWf (s.parkedIssue g d op) :=
  .next (.ite h.nullWrite (.ite h.trap h.dstPhase))

theorem execPumpQueueRoom_memWf (h : s.MemWf) : Out.MemWf (execPumpQueueRoom c x s) := by
  unfold execPumpQueueRoom
  refine h.onCore fun s hs => ?_
  split
  · split
    · exact hs.dstPhase
    · exact hs
  · exact hs

theorem State.MemWf.premSend {second : Bool} {m : PumpCmd} {j : Nat} (h : s.MemWf) :
    StepMemWf (s.premSend c second m j) := by
  unfold State.premSend
  refine .bind fun l => ?_
  split
  · exact .error
  · dsimp only
    split
    · next e => exact .ok (.of_sent h.sendPacket e)
    · exact .error
    · exact .error

theorem State.MemWf.oneUnit {second : Bool} {m : PumpCmd} {u : Nat} (h : s.MemWf) :
    ResMemWf (s.oneUnit c second m u) := by
  unfold State.oneUnit
  refine .bindState h.localUnit fun t n ht => ?_
  dsimp only
  split
  · exact .ok (ht.modCore fun _ hk => hk.setPump)
  · exact .ok (.sketch (ht.modCore fun _ hk => hk.setPump))

theorem State.MemWf.unitRun {second : Bool} (h : s.MemWf) : OptMemWf (s.unitRun c second n) := by
  induction n generalizing s with
  | zero => exact .some h
  | succ n ih =>
    unfold State.unitRun
    split
    · split
      · exact .some h
      · split
        · exact .none
        · exact .some h
        · next t e =>
          have ht := State.MemWf.of_ok h.oneUnit e
          split
          · exact ih ht
          · exact .some ht
    · exact .some h

theorem State.MemWf.pumpUnit {second : Bool} (h : s.MemWf) : (s.pumpUnit c second).MemWf := by
  unfold State.pumpUnit
  split
  · exact h
  · split
    · split
      · exact h
      · split
        · split
          · next e'' => exact .modCore (.of_step h.premSend e'') fun _ hk => hk.setPump
          · exact h
        · exact .getD h h.unitRun
    · exact h

theorem State.MemWf.pumpRun {second : Bool} (h : s.MemWf) : (s.pumpRun c second n).MemWf := by
  induction n generalizing s with
  | zero => exact h
  | succ n ih =>
    unfold State.pumpRun
    split
    · exact .ite h (ih h.pumpUnit)
    · exact h

theorem State.MemWf.pumpAhead {second : Bool} (h : s.MemWf) : (s.pumpAhead c second).MemWf := by
  unfold State.pumpAhead
  split
  · exact h.pumpRun
  · exact h

theorem State.MemWf.pumpEnd {second : Bool} {m : PumpCmd} {status u : Nat} (h : s.MemWf) :
    (s.pumpEnd c second m status u).MemWf :=
  .freePump (.ite h h.scramble) fun _ hk => hk.completeWrite.land

theorem State.MemWf.dropSent {sent : Option (BitVec 16 × BitVec 32)} (h : s.MemWf) : (s.dropSent sent).MemWf := by
  unfold State.dropSent
  split
  · exact h.leavePkt
  · exact h

theorem State.MemWf.takeTo {second : Bool} (h : s.MemWf) : (s.takeTo c second).MemWf := by
  unfold State.takeTo
  split
  · exact h.releaseOn.modCore fun _ hk => .setPump (hk.of_eq rfl)
  · exact h

theorem execPumpTakeCommand_memWf {pump : Bool} (h : s.MemWf) : Out.MemWf (execPumpTakeCommand c pump s) :=
  h.onCore fun _ hs => .ite hs (.takeTurn (.ite hs.takeTo.takeTo hs.takeTo))

theorem State.MemWf.sourceError {pump : Bool} {m : PumpCmd} {u : Nat} {l : Loc} (h : s.MemWf) :
    (s.sourceError c pump m u l).MemWf := by
  unfold State.sourceError
  split
  · exact h.coreRecord.pumpEnd
  · exact h.locError.pumpEnd

theorem execPumpCommandEnd_memWf {pump : Bool} {err : EngineErr} (h : s.MemWf) :
    Out.MemWf (execPumpCommandEnd c pump err s) := by
  unfold execPumpCommandEnd
  refine h.onCore fun s hs => ?_
  dsimp only
  split
  · split
    · split
      · exact hs
      · split
        · split
          · exact .sourceError (.ite hs.pumpAhead hs)
          · exact hs
        · exact hs
    · exact .pumpEnd (.mismatch (.dropSent (.ite hs.pumpAhead hs)))
    · split
      · exact .pumpEnd (.ite hs.pumpAhead hs)
      · split
        · exact .pumpEnd (.coreRecord (.dropSent (.ite hs.pumpAhead hs)))
        · exact .pumpEnd (.dropSent (.ite hs.pumpAhead hs))
        · exact hs
  · exact hs

theorem execPumpPark_memWf {pump : Bool} (h : s.MemWf) : Out.MemWf (execPumpPark c pump s) := by
  unfold execPumpPark
  refine h.onCore fun s hs => ?_
  dsimp only
  split
  · split
    · exact .asyncTrap (hs.pumpAhead.dropSent.dropAnswers.scramble.modCore (fun _ hk => hk.completeWrite.setPump))
    · exact hs
  · exact hs

theorem execPremUnitAck_memWf {pump : Bool} (h : s.MemWf) : Out.MemWf (execPremUnitAck c pump s) := by
  unfold execPremUnitAck
  refine h.onCore fun s hs => ?_
  split
  · split
    · exact .sketch (hs.dropPkt.modCore (fun _ hk => hk.setPump))
    · exact hs
  · exact hs

/-! ## Machine/Geometry -/

theorem State.MemWf.geomIssue {d : TDst} {kind : GeomKind} {srcs : List SrcRef} (h : s.MemWf) :
    Out.MemWf (s.geomIssue g d kind srcs) := by
  unfold State.geomIssue
  refine .next ?_
  split
  · exact h.nullWrite
  · split
    · exact h.trap
    · split
      · exact h.srcPhase
      · exact h.waitOn

theorem execGeomAccept_memWf (h : s.MemWf) : Out.MemWf (execGeomAccept c s) := by
  unfold execGeomAccept
  refine h.onCore fun s hs => ?_
  split
  · split
    · exact hs.srcPhase
    · exact hs
  · exact hs

theorem execGeomComplete_memWf {mismatch : Bool} (h : s.MemWf) : Out.MemWf (execGeomComplete c mismatch s) := by
  unfold execGeomComplete
  refine h.onCore fun s hs => ?_
  split
  · exact hs
  · exact .modCore (.sketch (.sketch (.ite hs.useFresh.mismatch hs))) fun _ hk => .completeWrite (hk.of_eq rfl)

theorem execGstat_memWf {d : SReg} {sel : Bool} (h : s.MemWf) : Out.MemWf (execGstat g d sel s) :=
  h.doing (.ws (h.modCore (fun _ hk => hk.of_eq rfl)))

/-! ## Machine/Sync -/

theorem State.MemWf.orderFor {o : OrdScp} (h : s.MemWf) : (s.orderFor o).MemWf := by
  unfold State.orderFor
  split
  · exact h.releaseOn
  · exact h

theorem State.MemWf.semIssue {kind : SemKind} {o : OrdScp} {d a : SReg} {b cmp : Word} (h : s.MemWf) :
    Out.MemWf (s.semIssue g kind o d a b cmp) := by
  unfold State.semIssue
  refine .next ?_
  split
  · exact h.adv
  · split
    · exact h.trap
    · exact h.orderFor.waitOn
    · split
      · exact h.trap
      · exact h.orderFor.waitOn
      · next e' => exact .waitOn (.of_sent h.orderFor.sendPacket e')

theorem State.MemWf.watchOn {t : CoreId} {i : BitVec 12} {cond : SemCond} {b : Word} (h : s.MemWf) :
    (s.watchOn c x t i cond b).MemWf :=
  h.of_eq rfl

theorem execSemwt_memWf {o : OrdScp} {d a b : SReg} {cond : SemCond} (h : s.MemWf) :
    Out.MemWf (execSemwt g o d a b cond s) := by
  unfold execSemwt
  refine .next ?_
  split
  · exact h.adv
  · split
    · exact h.trap
    · exact h.orderFor.watchOn.waitOn
    · split
      · exact h.trap
      · exact h.orderFor.waitOn
      · next e' => exact .waitOn (.of_sent h.orderFor.sendPacket e')

theorem State.MemWf.semReject {cause : BitVec 7} {h : Word} (hs : s.MemWf) : (s.semReject c x cause h).MemWf := hs.waitOn.trapOn

theorem State.MemWf.semSend {o : SemOp} (h : s.MemWf) : (s.semSend c x o dev).MemWf := by
  unfold State.semSend
  split
  · exact h
  · split
    · exact h.semReject
    · exact h
    · next e => exact .waitOn (.of_sent h.sendPacket e)

theorem State.MemWf.semPerform {mismatch : Bool} (h : s.MemWf) : (s.semPerform c x mismatch).MemWf := by
  unfold State.semPerform
  split
  · split
    · split
      · exact h
      · split
        · exact h.waitOn.pipeCheckOn
        · split
          · next e'' => exact .waitOn (.modCore (.of_fst h.cellOpAt e'') (fun _ hk => hk.orderCell))
    · exact h.semSend
    · exact h
    · exact h
  · split
    · split
      · exact h.dropWatch.pipeCheckOn
      · exact h
    · exact h
  · exact h

theorem execSemOpPerform_memWf {who : SemParty} {mismatch : Bool} (h : s.MemWf) :
    Out.MemWf (execSemOpPerform who mismatch s) := by
  unfold execSemOpPerform
  split
  · exact .next h.semPerform
  · exact .next h.peerRun
  · refine .next ?_
    split
    · exact h
    · split
      · exact h.mismatch
      · split
        · next e => exact .of_eq (.of_fst h.cellOpAt e) rfl

theorem State.MemWf.semDone {t : SemTarget} {seq : Option (BitVec 32)} (h : s.MemWf) : (s.semDone t seq).MemWf := by
  unfold State.semDone
  split
  · exact h.leavePkt
  · exact h

theorem execSemOpResult_memWf (h : s.MemWf) : Out.MemWf (execSemOpResult c x s) := by
  unfold execSemOpResult
  refine h.onCore fun s hs => ?_
  split
  · split
    · exact hs
    · refine .ite (.deliverHeld ?_) ?_
      all_goals exact .finishOn (hs.semDone.modCore fun _ hk => hk.writeS)
    · exact .ite hs.semDone.semReject.deliverHeld hs.semDone.semReject
  · exact hs

theorem Core.MemWf.orderWait {w : SemWait} (h : k.MemWf) : (k.orderWait x w).MemWf := by
  unfold Core.orderWait
  split
  · exact h.orderCell
  · exact h

theorem State.MemWf.semwtEnd {w : SemWait} {v : Word} (h : s.MemWf) : (s.semwtEnd c x w v).MemWf :=
  .finishOn (h.semDone.dropWatch.modCore (fun _ hk => hk.writeS.orderWait))

theorem State.MemWf.semwtAsk {w : SemWait} {release : Bool} (h : s.MemWf) : (s.semwtAsk c x w dev release).MemWf := by
  unfold State.semwtAsk
  split
  · exact h.semReject
  · exact h.waitOn
  · next e => exact .waitOn (.of_sent h.sendPacket e)

theorem State.MemWf.semwtRemote {w : SemWait} (h : s.MemWf) : (s.semwtRemote c x w dev).MemWf := by
  unfold State.semwtRemote
  split
  · exact h.semwtAsk
  · split
    · exact h
    · exact h.semDone.semReject
    · split
      · exact h.semwtEnd
      · exact h.semDone.semwtAsk

theorem execSemwtHoldExpire_memWf (h : s.MemWf) : Out.MemWf (execSemwtHoldExpire c x s) := by
  unfold execSemwtHoldExpire
  refine h.onCore fun s hs => ?_
  split
  · split
    · split
      · split
        · split
          · exact hs.semwtEnd
          · exact hs
        · exact hs
      · exact hs
    · exact hs.semwtRemote
  · exact hs

theorem execFence_memWf {o : OrdScp} (h : s.MemWf) : Out.MemWf (execFence g o s) :=
  .next (.ite h.adv (.ite h.releaseOn.adv (.ite h.captureLoads.adv h.adv)))

theorem Core.MemWf.leaveBar {b : BarScope} (h : k.MemWf) : (k.leaveBar b n).MemWf := by
  unfold Core.leaveBar
  split
  · exact h.of_eq rfl
  · exact h

theorem State.MemWf.leaveBars {t : Task} {b : BarScope} (h : s.MemWf) : (s.leaveBars t b n).MemWf := by
  refine .mapCores h fun k hk => ?_
  split
  · exact .ite hk.leaveBar hk
  · exact hk

theorem Core.MemWf.arriveBar {b : BarScope} (h : k.MemWf) : (k.arriveBar b).MemWf := .ite (h.of_eq rfl) h

theorem execBar_memWf {ar : Bool} {b : BarScope} (h : s.MemWf) : Out.MemWf (execBar g ar b s) := by
  have harrive := (State.MemWf.ite (p := ar = true) (h.releaseOn (c := s.cur.1) (x := .ctrl)) h).modCore (c := s.cur.1)
    (f := fun k => k.arriveBar b) fun _ hk => hk.arriveBar
  exact .ite (.next h.adv) (.next (.ite (.adv (harrive.modCore fun _ hk => hk.of_eq rfl)) harrive.waitOn))

theorem execBarComplete_memWf (h : s.MemWf) : Out.MemWf (execBarComplete c s) := by
  unfold execBarComplete
  refine h.onCore fun s hs => ?_
  split
  · split
    · exact hs.leaveBars.modCore fun _ hk => hk.leaveBar
    · exact hs
  · exact hs.modCore fun _ hk => hk.leaveBar
  · exact hs

/-! ## Machine/System -/

theorem State.MemWf.trapImm {base : BitVec 7} {imm : BitVec 16} (h : s.MemWf) : Out.MemWf (s.trapImm g base imm) :=
  .next (.ite h.trap h.adv)

theorem Core.MemWf.csrWrite {c : Csr} {v : Word} (h : k.MemWf) : (k.csrWrite x c v).MemWf := by
  unfold Core.csrWrite
  split
  · exact h.modStream
  · exact h.modStream
  · exact h.of_eq rfl
  · exact h.of_eq rfl
  · exact h.modTrapSet
  · exact h.of_eq rfl
  · exact h.of_eq rfl
  · exact h.of_eq rfl
  · exact h.of_eq rfl
  · exact h

theorem State.MemWf.csrBar {c : Csr} {read : Bool} {write : Option Word} (h : s.MemWf) : OptMemWf (s.csrBar c read write) := by
  unfold State.csrBar
  split
  · exact .some h.trap
  · split
    · split
      · exact .some h.trapReserved
      · exact .none
    · exact .none

theorem State.MemWf.csrAccess {c : Csr} {d : Option SReg} {write : Option Word} (h : s.MemWf) :
    Out.MemWf (s.csrAccess g c d write) := by
  have hwrite : State.MemWf (match write with
      | some v => s.modCore s.cur.1 fun k => k.csrWrite s.cur.2 c v
      | none => s) := by
    split
    · exact h.modCore fun _ hk => hk.csrWrite
    · exact h
  unfold State.csrAccess
  refine .ite (.next h.adv) ?_
  split
  · next e => exact .next (.of_some h.csrBar e)
  · refine .next ?_
    split
    · exact hwrite.ws.adv
    · exact hwrite.adv

theorem execEret_memWf (h : s.MemWf) : Out.MemWf (execEret s) :=
  .ite (.next h.trap) (.next (.deliverHeld (h.releaseOn.modCore (fun _ hk => hk.returnFrom))))

theorem Core.MemWf.resumeAt (h : k.MemWf) : (k.resumeAt x pc).MemWf := by
  unfold Core.resumeAt
  split
  · exact h.modTrapSet
  · exact h.restart

theorem State.MemWf.resume {skip odd : Bool} (h : s.MemWf) : Out.MemWf (s.resume g x skip pc odd) := by
  unfold State.resume
  split
  · exact .next h.adv
  · split
    · exact .next h.trap
    · split
      · exact .next h.trap
      · exact .next (h.releaseOn.adv.modCore (fun _ hk => hk.resumeAt))

theorem execResumeRetry_memWf {a : SReg} (h : s.MemWf) : Out.MemWf (execResumeRetry g x a s) := by
  unfold execResumeRetry
  split <;> exact h.resume

/-! ## Machine/CoreEvents -/

theorem execInstructionFetch_memWf {useCache : Bool} (h : s.MemWf) : Out.MemWf (execInstructionFetch c x useCache s) :=
  h.onCore fun _ hs => hs.fetchEvent

theorem execCountWaitResume_memWf (h : s.MemWf) : Out.MemWf (execCountWaitResume c x s) := by
  refine h.onCore fun s hs => .ite hs ?_
  split
  · exact hs.srcPhase
  · exact hs.dstPhase
  · exact hs

theorem State.MemWf.vecMismatch {w : VecWrite} (h : s.MemWf) : (s.vecMismatch c w).MemWf :=
  .pipeCheckOn (h.modCore (fun _ hk => .modStream (hk.releaseReg.recredit.of_eq rfl)))

theorem execIssueIntervalEnd_memWf {mismatch : Bool} (h : s.MemWf) : Out.MemWf (execIssueIntervalEnd c mismatch s) := by
  refine h.onCore fun s hs => ?_
  have hend := hs.modCore (c := c) (f := fun k => { k with interval := .none }) fun _ hk => hk.of_eq rfl
  refine .ite hs (.ite ?_ hend)
  split
  · exact hend.vecMismatch
  · exact hend

theorem State.MemWf.maskResume (h : s.MemWf) : (s.maskResume c).MemWf := by
  unfold State.maskResume
  split
  · exact h.maskPhase
  · exact h

theorem execVectorWriteComplete_memWf {i : Nat} (h : s.MemWf) : Out.MemWf (execVectorWriteComplete c i s) := by
  unfold execVectorWriteComplete
  refine h.onCore fun s hs => ?_
  dsimp only
  split
  · exact hs
  · next w _ =>
    have hk : (Core.completeWrite { s.core c with vwrites := (s.core c).vwrites.eraseIdx i } w.dst w.rdr w.data).MemWf :=
      .completeWrite ((hs.core c).of_eq rfl)
    refine .ite hs (.maskResume (.setCore hs ?_))
    split
    · exact hk.of_eq rfl
    · exact hk

theorem execStreamEnded_memWf (h : s.MemWf) : Out.MemWf (execStreamEnded c x s) := h.onCore fun _ hs => .ite hs.modStream hs

theorem execWatchdogExpire_memWf (h : s.MemWf) : Out.MemWf (execWatchdogExpire c s) := by
  unfold execWatchdogExpire
  refine h.onCore fun s hs => ?_
  dsimp only
  split
  · exact hs
  · split
    · exact hs
    · split
      · exact hs
      · exact .trapOn (hs.setCore (.of_eq (hs.core _) rfl))

theorem execTrapDelivery_memWf (h : s.MemWf) : Out.MemWf (execTrapDelivery c s) := h.onCore fun _ hs => hs.deliverHeld

theorem Core.MemWf.failCount {w : EccStruct} (h : k.MemWf) : (k.failCount w).MemWf := by
  unfold Core.failCount
  split
  · exact h.setCnt
  · exact h

theorem State.MemWf.eccRecord {ea : Word} {what : EccStruct} {syn : Nat} (h : s.MemWf) : (s.eccRecord c pc ea what syn).MemWf :=
  .useFresh (h.coreRecord.modCore (fun _ hk => hk.failCount))

theorem State.MemWf.eccState {x : Option StreamId} {what : EccStruct} {syn : Nat} (h : s.MemWf) :
    (s.eccState c x what syn).MemWf := by
  unfold State.eccState
  dsimp only
  split
  · split
    · exact h.eccRecord
    · exact h.eccRecord.asyncTrap
  · exact h.eccRecord
  · split
    · exact h.eccRecord.dropWatch.trapOn
    · split
      · next e =>
          split
          · exact .trapOn (.eccRecord (.of_fst h.prepare e))
          · exact h
      · exact h

theorem execEccUncorrectable_memWf {x : Option StreamId} {what : EccStruct} (h : s.MemWf) :
    Out.MemWf (execEccUncorrectable c x what s) :=
  h.onCore fun _ hs => hs.eccState

/-! ## Machine/Gate -/

theorem Core.MemWf.wake (hk : k.MemWf) : (s.wake k).MemWf :=
  .foldl (.foldl hk (fun _ _ hk => hk.remove) _) (fun _ _ hk => hk.priDone) _

theorem Core.MemWf.gateCore {gated : Bool} (hk : k.MemWf) : (s.gateCore k gated).MemWf := .of_eq (.ite hk.wake hk) rfl

theorem State.MemWf.gateSync (h : s.MemWf) : s.gateSync.MemWf := by
  have hs := h.mapCoresIdx (f := fun c k hc => s.gateCore k (s.coreHeld ⟨c, hc⟩ || s.replaying ⟨c, hc⟩))
    fun _ _ _ hk => hk.gateCore
  exact hs.of_eq rfl

theorem State.MemWf.gateOn (h : s.MemWf) : (s.gateOn b).MemWf := .gateSync (h.modBank (fun _ hb => hb.of_eq rfl))

theorem State.MemWf.gateOff (h : s.MemWf) : (s.gateOff b).MemWf := by
  unfold State.gateOff
  split
  · exact .gateSync (h.modBank (fun _ hb => hb.of_eq rfl))
  · exact h

theorem MBank.MemWf.stopReplay {k : MBank} (h : k.MemWf) : k.stopReplay.MemWf := ⟨⟨h.lf.checks, nofun⟩⟩

theorem State.MemWf.endReplay (h : s.MemWf) : (s.endReplay b).MemWf := by
  unfold State.endReplay
  split
  · exact .gateSync (h.modBank (fun _ hb => hb.stopReplay))
  · exact h

theorem State.MemWf.ungate (h : s.MemWf) : (s.ungate c).MemWf := by
  unfold State.ungate
  split
  · exact .gateSync (.mapBanks h (fun _ hb => .ite (.stopReplay (.ite (hb.of_eq rfl) hb)) (.ite (hb.of_eq rfl) hb)))
  · exact h

theorem State.MemWf.releaseCore (h : s.MemWf) : (s.releaseCore c).MemWf := .foldl h (fun _ _ hs => .ite hs.gateOff hs) _

/-! ## Machine/SaveArea -/

theorem State.MemWf.saveMem {pa : Nat} {m : PoisonMem} {granules : Nat} (h : s.MemWf) : (s.saveMem p pa m granules).MemWf :=
  .foldl h (fun _ _ hs => hs.writePhys) _

theorem State.MemWf.saveRole {t : Task} {first valid : Nat} (h : s.MemWf) : (s.saveRole t k first valid).MemWf := by
  unfold State.saveRole
  exact .setFresh (.writePhys (.writePhys (.saveMem (.saveMem (.foldl h.writePhys (fun _ _ hs => hs.writePhys) _)))))

theorem State.MemWf.invalidate {area : Nat} (h : s.MemWf) : (s.invalidate p area).MemWf := h.writePhys

theorem State.MemWf.invalidateAll {n : Node} (h : s.MemWf) : (s.invalidateAll n).MemWf := by
  unfold State.invalidateAll
  split
  · exact h
  · exact .foldl h (fun _ _ hs => hs.invalidate) _

theorem State.restoreMem_wf (s : State) (p : PartId) (pa granules : Nat) : (s.restoreMem p pa granules).wf = true :=
  List.foldlRecOn (motive := fun m : PoisonMem => m.wf = true) _ _ rfl fun _ hm _ _ => PoisonMem.store_wf hm ..

theorem Core.MemWf.restoreCore {t : Task} {old : Core} {first : Nat} : (s.restoreCore t old k first).MemWf := by
  unfold State.restoreCore
  constructor
  · dsimp only
    exact s.restoreMem_wf ..
  · dsimp only
    exact s.restoreMem_wf ..

/-! ## Machine/Context -/

theorem Core.MemWf.drainOn {view : Nat} (h : k.MemWf) : (k.drainOn view).MemWf := h.of_eq rfl

theorem State.MemWf.drainNode {n : Node} (h : s.MemWf) : (s.drainNode n).MemWf := by
  unfold State.drainNode
  split
  · exact h
  · split
    · exact h
    · exact .modNode (.foldl h (fun _ _ hs => hs.modCore (fun _ hk => hk.drainOn)) _)

theorem State.MemWf.undispatch (h : s.MemWf) : (s.undispatch p).MemWf := h.mapNodes

theorem execSliceEnd_memWf {grp : BitVec 4} (h : s.MemWf) : Out.MemWf (execSliceEnd grp s) := by
  unfold execSliceEnd
  refine .next ?_
  split
  · split
    · exact h
    · split
      · exact h.modGroup
      · exact .ite h.modGroup.undispatch (.modGroup (.foldl h.modGroup.undispatch (fun _ _ hs => hs.drainNode) _))
  · exact h

theorem Core.MemWf.undrain (h : k.MemWf) : k.undrain.MemWf := h.of_eq rfl

theorem execDrainWithdraw_memWf {k : NodeKey} (h : s.MemWf) : Out.MemWf (execDrainWithdraw k s) := by
  unfold execDrainWithdraw
  refine .next ?_
  split
  · exact h
  · exact .ite h (.owe (.modGroup (.mapNodes (.foldl h (fun _ _ hs => hs.modCore (fun _ hk => hk.undrain)) _))))

theorem Core.MemWf.hardStopOn (h : k.MemWf) : (k.hardStopOn x).MemWf := by
  unfold Core.hardStopOn
  refine .modStream ?_
  split
  · exact h
  · exact h
  · exact h.abandonWait

theorem State.MemWf.abandonCmd {m : PumpCmd} {u : Nat} (h : s.MemWf) : (s.abandonCmd c m rdr u).MemWf :=
  h.scramble.modCore fun _ hk => hk.completeWrite.land

theorem State.MemWf.abandonQueue (h : s.MemWf) : (s.abandonQueue c).MemWf :=
  .foldl (h.modCore (fun _ hk => hk.of_eq (by rfl))) (fun _ _ hs => hs.abandonCmd) _

theorem State.MemWf.abandonPump {second : Bool} (h : s.MemWf) : (s.abandonPump c second).MemWf := by
  unfold State.abandonPump
  split
  · exact h.dropSent.pumpEnd
  · exact h

theorem State.MemWf.abandonPumps (h : s.MemWf) : (s.abandonPumps c).MemWf := h.abandonPump.abandonPump.abandonQueue

theorem State.MemWf.dropSemPacket (h : s.MemWf) : (s.dropSemPacket c x).MemWf := by
  unfold State.dropSemPacket
  split
  · exact h.semDone.dropWatch
  · exact h

theorem execHardStop_memWf (h : s.MemWf) : Out.MemWf (execHardStop c s) := by
  unfold execHardStop
  refine h.onCore fun s hs => ?_
  dsimp only
  split
  · exact hs
  · split
    · exact hs
    · exact .abandonPumps (.foldl hs (fun _ _ hs => hs.dropSemPacket.modCore (fun _ hk => hk.hardStopOn)) _)

theorem State.MemWf.cancelParked {second : Bool} (h : s.MemWf) : (s.cancelParked c second).MemWf := by
  unfold State.cancelParked
  split
  · exact h.abandonCmd.modCore fun _ hk => hk.setPump
  · exact h

theorem State.MemWf.saveCore {first valid : Nat} (h : s.MemWf) : (s.saveCore c first valid).MemWf := by
  unfold State.saveCore
  split
  · exact h.saveRole
  · exact h

theorem Core.MemWf.settle (h : k.MemWf) : k.settle.MemWf := h.of_eq rfl

theorem execDrainComplete_memWf (h : s.MemWf) : Out.MemWf (execDrainComplete c s) := by
  unfold execDrainComplete
  refine h.onCore fun s hs => ?_
  dsimp only
  split
  · exact hs
  · split
    · exact hs
    · split
      · exact hs
      · exact .saveCore (hs.modGroup.cancelParked.cancelParked.modCore (fun _ hk => hk.settle.of_eq rfl))

theorem execSaveComplete_memWf {k : NodeKey} (h : s.MemWf) : Out.MemWf (execSaveComplete k s) := by
  unfold execSaveComplete
  refine .next ?_
  split
  · exact h
  · split
    · exact h
    · split
      · exact h
      · exact .modNode (.freeCores (.foldl h (fun _ _ hs => hs.saveCore) _))

theorem execZeroingComplete_memWf (h : s.MemWf) : Out.MemWf (execZeroingComplete c s) :=
  h.onCore (fun _ hs => .ite hs (.oweCores (hs.modCore (fun _ hk => hk.of_eq rfl))))

theorem State.MemWf.repost {e : Escal} (h : s.MemWf) : (s.repost c e).MemWf := h.postMail

theorem State.MemWf.restoreNode {unit : List Node} {n : Node} (h : s.MemWf) : (s.restoreNode unit n).MemWf := by
  unfold State.restoreNode
  split
  · exact h
  · refine .foldl (.modNode (.invalidateAll (.foldl h (fun s ci hs => ?_) _)))
      (fun _ _ hs => .deliverHeld (.foldl hs (fun _ _ hs => hs.repost) _)) _
    split
    · exact hs
    · exact hs.modCore fun _ _ => .restoreCore

theorem execGangRestore_memWf {k : NodeKey} (h : s.MemWf) : Out.MemWf (execGangRestore k s) := by
  unfold execGangRestore
  refine .next ?_
  split
  · exact h
  · split
    · exact h
    · exact .oweRest (.foldl h.giveDomains (fun _ _ hs => hs.restoreNode) _)

theorem State.MemWf.stopGang {n : Node} (h : s.MemWf) : (s.stopGang n).MemWf := by
  have hpumps : (n.cores.foldl (fun s c => (s.ungate c).abandonPumps c) s).MemWf :=
    .foldl h (fun _ _ hs => hs.ungate.abandonPumps) _
  exact .invalidateAll (.foldl hpumps (fun _ _ hs => .foldl hs (fun _ _ hs => hs.dropSemPacket) _) _)

theorem State.MemWf.abandonNode {n : Node} (h : s.MemWf) : (s.abandonNode n).MemWf := by
  unfold State.abandonNode
  split
  · exact h
  · exact h.stopGang.retireNode

theorem execHostAbandon_memWf {seq : BitVec 32} (h : s.MemWf) : Out.MemWf (execHostAbandon q seq s) := by
  unfold execHostAbandon
  refine .next (.foldl h (fun s n hs => ?_) _)
  split
  · exact hs.abandonNode
  · exact hs

theorem State.MemWf.removeNode {n : Node} (h : s.MemWf) : (s.removeNode n).MemWf :=
  .idleDeficits (h.stopGang.freeCores.of_eq rfl)

theorem MBank.MemWf.cleared {owner : BitVec 7} : (MBank.cleared owner).MemWf := ⟨⟨nofun, nofun⟩⟩

theorem State.MemWf.giveBank {owner : BitVec 7} (h : s.MemWf) : (s.giveBank b owner).MemWf :=
  h.gateOff.endReplay.modBank fun _ _ => .cleared

theorem State.MemWf.resetBanks {vf : BitVec 6} (h : s.MemWf) : (s.resetBanks vf).MemWf :=
  .foldl h (fun _ _ hs => .ite hs.giveBank hs) _

theorem execFunctionLevelReset_memWf {vf : BitVec 6} (h : s.MemWf) : Out.MemWf (execFunctionLevelReset vf s) :=
  .next (.ite h (.resetBanks (.of_eq (.foldl h (fun _ _ hs => hs.removeNode) _) rfl)))

theorem State.MemWf.ignoreAnswer (h : s.MemWf) : (s.ignoreAnswer fn).MemWf := by
  unfold State.ignoreAnswer
  split
  · exact h
  · exact h.modMbox

theorem Core.MemWf.resumeEscal {e : Escal} (h : k.MemWf) : (k.resumeEscal e pc).MemWf :=
  .ite (.of_eq (h.of_eq rfl) rfl) (.ite (.restart (h.of_eq rfl)) (h.of_eq rfl))

theorem State.MemWf.answer {taskid : Word} {role : BitVec 16} {skip : Bool} (h : s.MemWf) :
    (s.answer fn taskid role skip).MemWf := by
  unfold State.answer
  split
  · exact h.ignoreAnswer
  · split
    · exact h.of_eq rfl
    · split
      · exact h.ignoreAnswer
      · split
        · exact h.repost
        · exact .deliverHeld (h.modCore (fun _ hk => hk.resumeEscal))

theorem State.MemWf.deliverAnswers (h : s.MemWf) : s.deliverAnswers.MemWf :=
  .foldl (h.of_eq (by rfl)) (fun _ _ hs => hs.answer) _

theorem execAnswerAbandon_memWf {taskid : Word} {role : BitVec 16} (h : s.MemWf) :
    Out.MemWf (execAnswerAbandon fn taskid role s) := by
  unfold execAnswerAbandon
  refine .next ?_
  split
  · exact h.ignoreAnswer
  · split
    · exact h.abandonNode
    · exact h

theorem State.MemWf.refill (h : s.MemWf) : (s.refill fn n).MemWf := by
  induction n generalizing s with
  | zero => exact h
  | succ n ih =>
    unfold State.refill
    dsimp only
    split
    · exact h
    · exact .ite (ih h.modMbox.postMail.modMbox) h

theorem execMbrdWrite_memWf {v : BitVec 32} (h : s.MemWf) : Out.MemWf (execMbrdWrite fn v s) := .next (.ite h h.modMbox.refill)

theorem execHostMemoryAccess_memWf {pa : BitVec 52} {write : Option (List Byte)} (h : s.MemWf) :
    Out.MemWf (execHostMemoryAccess p pa n write s) := by
  unfold execHostMemoryAccess
  refine h.bar0 fun s hs => ?_
  split
  · split
    · exact hs.writePhys
    · exact hs
  · split
    · exact hs.of_eq rfl
    · exact hs

/-! ## Machine/Banks -/

theorem State.MemWf.modFn {f : FnRegs → FnRegs} (h : s.MemWf) : (s.modFn fn f).MemWf := h.of_eq rfl

theorem State.MemWf.bankWrite {f : State → State} (h : s.MemWf) (hf : ∀ s, s.MemWf → (f s).MemWf) :
    Out.MemWf (s.bankWrite fn b f) :=
  h.bar0 fun _ hs => .ite (hf _ hs) hs

theorem State.MemWf.claimNotice (h : s.MemWf) : (s.claimNotice b).MemWf := .ite h h.postMail

theorem State.MemWf.bclaim {v : BitVec 2} (h : s.MemWf) : (s.bclaim fn b v).MemWf := h.modFn

theorem State.MemWf.pfClaim (h : s.MemWf) : (s.pfClaim b).MemWf := .ite (.giveBank (.ite h.bclaim h)) h.claimNotice.giveBank

theorem execBankownWrite_memWf {v : BitVec 7} (h : s.MemWf) : Out.MemWf (execBankownWrite b v s) :=
  h.bar0 fun _ hs => .ite hs (.ite hs.pfClaim (.ite hs.giveBank hs))

theorem execBclaimClaim_memWf {pfToo : Bool} (h : s.MemWf) : Out.MemWf (execBclaimClaim fn b pfToo s) := by
  refine h.bar0 fun s hs => ?_
  have hmine := (hs.giveBank (b := b) (owner := ownerOf fn)).modBank (b := b)
    (f := fun k => { k with claimed := some s.tick }) fun _ hb => hb.of_eq rfl
  exact .ite hs (.ite hs.bclaim (.ite (.bclaim (.ite hmine.pfClaim hmine)) (.bclaim (.ite hs.pfClaim hs))))

theorem execBclaimRelease_memWf (h : s.MemWf) : Out.MemWf (execBclaimRelease fn b s) := h.bar0 fun _ hs => .ite hs.giveBank hs

theorem execBctlWrite_memWf {v : Word} (h : s.MemWf) : Out.MemWf (execBctlWrite fn b v s) :=
  h.bankWrite fun _ hs => .ite hs (hs.modBank (fun _ hb => hb.of_eq rfl))

theorem State.MemWf.bankRead {v : Word} {f : MBank → MBank} (h : s.MemWf) (hf : ∀ b, b.MemWf → (f b).MemWf) :
    (s.bankRead fn b v f).MemWf := by
  unfold State.bankRead
  split
  · exact h.of_eq rfl
  · exact .of_eq (h.modBank hf) rfl

theorem execBstatRead_memWf (h : s.MemWf) : Out.MemWf (execBstatRead fn b s) := .next (h.bankRead (fun _ hb => hb.of_eq rfl))

theorem execStoptickArm_memWf {tick : Word} {arm act : Bool} (h : s.MemWf) : Out.MemWf (execStoptickArm fn b tick arm act s) :=
  h.bankWrite fun _ hs => hs.modBank (fun _ hb => hb.of_eq rfl)

theorem State.MemWf.tickStop {k : MBank} (h : s.MemWf) : (s.tickStop k c).MemWf := by
  unfold State.tickStop
  split
  · exact h
  · split
    · exact h.asyncTrap
    · exact h

theorem execStopTick_memWf (h : s.MemWf) : Out.MemWf (execStopTick b s) := by
  have harm := h.modBank (b := b) (f := fun k => { k with arm := false }) fun _ hb => hb.of_eq rfl
  exact .next (.ite h (.ite (.foldl harm (fun _ _ hs => hs.tickStop) _) harm.gateOn))

theorem State.MemWf.bankStore {k : MBank} {a : Nat} {bs : List Byte} {poison : Bool} (h : s.MemWf) :
    (s.bankStore k a bs poison).MemWf := by
  unfold State.bankStore
  split
  · exact h.writePhys
  · exact h

theorem State.MemWf.samplesDone (h : s.MemWf) : s.samplesDone.MemWf := .ite h (.mapBanks h (fun _ hb => hb.of_eq rfl))

theorem execSampleRecord_memWf {rec : BitVec 384} (h : s.MemWf) : Out.MemWf (execSampleRecord b rec s) := by
  unfold execSampleRecord
  refine .next ?_
  split
  · exact h
  · have hpend := h.modBank (b := b) (f := fun k => { k with pend := dropFirst (fun q => q.done.isSome) k.pend })
      fun _ hb => hb.of_eq rfl
    exact .ite h (.ite (hpend.modBank fun _ hb => hb.of_eq rfl) (hpend.bankStore.modBank fun _ hb => hb.of_eq rfl))

theorem execTwrRead_memWf (h : s.MemWf) : Out.MemWf (execTwrRead fn b s) := .next (h.bankRead (fun _ hb => hb))

/-! ## Machine/PortEvents -/

theorem execPortDoorWrite_memWf {port : HostPort} {cmd : List Word} (h : s.MemWf) : Out.MemWf (execPortDoorWrite port cmd s) :=
  h.bar0 fun _ hs => .ite hs.modPort.portDoor hs

theorem execPstatRead_memWf {port : HostPort} (h : s.MemWf) : Out.MemWf (execPstatRead port s) := by
  unfold execPstatRead
  refine .next ?_
  split
  · exact h.of_eq rfl
  · split
    · next e => exact .of_eq (.of_fst h.portRead e) rfl

theorem State.MemWf.remove {m : PortCmd} (h : s.MemWf) : (s.remove m).MemWf := by
  unfold State.remove
  split
  · exact h
  · next r _ =>
    have hs := h.mapCores (f := fun k => if k.gated then k else k.remove r) fun _ hk => .ite hk hk.remove
    exact hs.of_eq rfl

theorem State.MemWf.modCmd {port : Fin 65} {f : PortCmd → PortCmd} (h : s.MemWf) : (s.modCmd port f).MemWf := h.modPort

theorem State.MemWf.invalidateBy {port : Fin 65} {kind : Nat} (h : s.MemWf) : (s.invalidateBy port kind).MemWf := by
  unfold State.invalidateBy
  split
  · exact h.remove.modCmd
  · exact h

theorem execAperture_memWf {port : Fin 65} (h : s.MemWf) : Out.MemWf (execAperture port s) := by
  unfold execAperture
  refine .next ?_
  split
  · exact h
  · split
    · exact h
    · exact h.modPart.modCmd

theorem execMigrate_memWf {port : Fin 65} (h : s.MemWf) : Out.MemWf (execMigrate port s) := by
  unfold execMigrate
  refine .next ?_
  split
  · exact h
  · split
    · exact h.modCmd
    · split
      · exact h
      · split
        · exact h.modCmd
        · exact h.remove.modCmd

theorem State.MemWf.drainPart (h : s.MemWf) : (s.drainPart p).MemWf :=
  .foldl h (fun _ _ hs => .ite hs.captureLoads.flushCore hs) _

theorem State.MemWf.portFinish {port : Fin 65} {m : PortCmd} (h : s.MemWf) : (s.portFinish port m).MemWf := h.modPort.addTo

theorem State.MemWf.keyDrained {p : Option PartId} (h : s.MemWf) : (s.keyDrained p).MemWf := by
  unfold State.keyDrained
  split
  · split
    · exact h
    · exact h.modPart
  · exact h

theorem State.MemWf.dropLines {m : PortCmd} (h : s.MemWf) : (s.dropLines m).MemWf := by
  unfold State.dropLines
  split
  · exact h
  · exact .mapCores h fun _ hk => hk.of_eq rfl

theorem State.MemWf.viewAfter {m : PortCmd} (h : s.MemWf) : (s.viewAfter m).MemWf := by
  unfold State.viewAfter
  split
  · exact h
  · dsimp only
    split
    · exact h.viewCode
    · exact .mapCores h.viewCode fun _ hk => .ite hk.viewCistern hk
    · exact h.viewCode
    · exact .mapCores h.viewCode fun _ hk => .ite hk.viewCistern hk
    · exact h

theorem execPortDrainComplete_memWf {port : Fin 65} (h : s.MemWf) : Out.MemWf (execPortDrainComplete port s) := by
  unfold execPortDrainComplete
  refine .next ?_
  split
  · exact h
  · next m _ =>
    have hdrain : State.MemWf (match m.part with
        | some p => s.drainPart p
        | none => s) := by
      split
      · exact h.drainPart
      · exact h
    refine .ite h (.ite h.portFinish (.ite h (.ite (.modCmd ?_) (.portFinish (.viewAfter (.dropLines ?_))))))
    all_goals exact .ite hdrain.keyDrained hdrain

theorem State.MemWf.copyFrame {src dst : Nat} {bad : List Nat} (h : s.MemWf) : (s.copyFrame p src dst bad).MemWf :=
  .foldl h (fun _ _ hs => .writePhys (.ite hs.granulePoisoned hs)) _

theorem State.MemWf.moveCode {src dst : Nat} (h : s.MemWf) : (s.moveCode p src dst).MemWf := h.of_eq rfl

theorem execMigrateCopyComplete_memWf {port : Fin 65} {bad : List Nat} (h : s.MemWf) :
    Out.MemWf (execMigrateCopyComplete port bad s) := by
  unfold execMigrateCopyComplete
  refine .next ?_
  split
  · exact h
  · split
    · exact h
    · refine .ite h (.portFinish (.foldl h (fun s x hs => ?_) _))
      split
      · exact hs
      · split
        · exact hs.moveCode.copyFrame.writePhys
        · exact hs

/-! ## Machine/Leapfrog -/

theorem State.MemWf.putBytes {n : Node} {b : SetBytes} (h : s.MemWf) : (s.putBytes n b).MemWf := by
  unfold State.putBytes
  split
  · exact h.writePhys
  · exact h

theorem State.MemWf.snapshot {n : Node} (h : s.MemWf) : (s.snapshot n).MemWf := by
  intro q hq
  obtain ⟨c, _, rfl⟩ := List.mem_map.mp hq
  exact h.core c

theorem Core.MemWf.putBack {now old : Core} (hold : old.MemWf) : (now.putBack old).MemWf :=
  .foldl (hold.of_eq (by rfl)) (fun _ _ hk => hk.modStream) _

theorem State.MemWf.putGang {n : Node} {p : Snapshot} (h : s.MemWf) (hp : p.MemWf) : (s.putGang n p).MemWf := by
  have hcores : (p.cores.foldl (fun s ck => s.setCore ck.1 ((s.core ck.1).putBack ck.2)) s).MemWf :=
    List.foldlRecOn p.cores _ h fun _ hs q hq => hs.setCore (hp q hq).putBack
  exact .of_eq (.foldl hcores (fun _ _ hs => hs.putBytes) _) rfl

theorem State.MemWf.viewAt {tick : Nat} (h : s.MemWf) : (s.viewAt p tick).MemWf := h.modPart

theorem State.MemWf.putBack {n : Node} {p : Snapshot} (h : s.MemWf) (hp : p.MemWf) : (s.putBack n p).MemWf :=
  (h.putGang hp).viewAt

theorem State.MemWf.noteIssue (h : s.MemWf) : (s.noteIssue c x).MemWf := by
  refine .ite h (.mapBanks h fun k hb => ?_)
  split
  · exact .ite ⟨⟨hb.lf.checks, hb.lf.resume⟩⟩ hb
  · exact hb

theorem MBank.MemWf.noRoom {k : MBank} (h : k.MemWf) : k.noRoom.MemWf := ⟨⟨h.lf.checks, h.lf.resume⟩⟩

theorem State.MemWf.bankBytes {k : MBank} {a fuel : Nat} {bs : List Byte} (h : s.MemWf) :
    (s.bankBytes k a fuel bs).MemWf := by
  induction fuel generalizing s a bs with
  | zero => exact h
  | succ fuel ih =>
    cases bs with
    | nil => exact h
    | cons b bs => exact ih h.bankStore

theorem State.MemWf.bankMem {k : MBank} {a : Nat} {m : PoisonMem} {granules : Nat} (h : s.MemWf) :
    (s.bankMem k a m granules).MemWf :=
  .foldl h (fun _ _ hs => hs.bankStore) _

theorem State.MemWf.bankRole {k : MBank} {a : Nat} {core : Core} (h : s.MemWf) : (s.bankRole k a core).MemWf := by
  unfold State.bankRole
  split
  · exact h
  · exact .of_eq (.bankBytes (.bankMem (.bankMem (.foldl h (fun _ _ hs => hs.bankBytes) _)))) rfl

theorem State.MemWf.lfStore {k : MBank} {n : Node} (h : s.MemWf) : (s.lfStore k n).MemWf :=
  .bankBytes (.foldl h (fun _ _ hs => hs.bankRole) _)

theorem Leapfrog.MemWf.add {l : Leapfrog} {p : Snapshot} (h : l.MemWf) (hp : p.MemWf) : (l.add p).MemWf := by
  unfold Leapfrog.add
  constructor
  · intro q hq
    rcases List.mem_cons.mp (List.mem_of_mem_take hq) with rfl | hmem
    · exact ⟨hp, logMemWf_nil⟩
    · exact h.checks q hmem
  · exact h.resume

theorem State.MemWf.checkCopied {n : Node} (h : s.MemWf) : (s.checkCopied b n).MemWf := by
  have hadd : ∀ k : MBank, k.MemWf → MBank.MemWf { k with lf := k.lf.add (s.snapshot n) } :=
    fun _ hb => ⟨hb.lf.add h.snapshot⟩
  exact .endReplay (.modBank h.lfStore hadd)

theorem execLeapfrogCheckpoint_memWf (h : s.MemWf) : Out.MemWf (execLeapfrogCheckpoint b s) := by
  unfold execLeapfrogCheckpoint
  refine .next ?_
  split
  · exact h.endReplay
  · split
    · exact h
    · exact h.checkCopied
  · split
    · exact h
    · split
      · exact h.modBank fun _ hb => hb.noRoom
      · exact .gateSync (h.modBank (fun _ hb => ⟨⟨hb.lf.checks, hb.lf.resume⟩⟩))

/-- A new entry of the log holds the gang as it stands, so the recording stays in the canonical form (R419). -/
theorem State.MemWf.logFor {p : Option Pick} (ht : t.MemWf) : (s.logFor p t b).MemWf := by
  unfold State.logFor
  dsimp only
  split
  · next n c log rest _ hc =>
    have hold : checksMemWf ((c, log) :: rest) := hc ▸ (ht.bank b).lf.checks
    obtain ⟨⟨hfirst, hlog⟩, hrest⟩ := List.forall_mem_cons.mp hold
    refine .ite ht (.ite (ht.modBank fun _ hb => hb.noRoom) (.modBank (.ite (.setFresh ht.bankBytes) ht) fun k hb => ?_))
    refine ⟨⟨List.forall_mem_cons.mpr ⟨⟨hfirst, ?_⟩, hrest⟩, hb.lf.resume⟩⟩
    exact List.forall_mem_cons.mpr ⟨ht.snapshot, hlog⟩
  · exact ht

theorem State.MemWf.logMove {p : Option Pick} (ht : t.MemWf) : (s.logMove t p).MemWf := by
  unfold State.logMove
  split
  · exact ht
  · exact .foldl ht (fun _ _ hs => hs.logFor) _

/-- What a leap is to put back comes from the checkpoints and their logs (R420). -/
theorem Leapfrog.MemWf.reach {l : Leapfrog} {t : Nat} {p : Snapshot} {todo : List LfStep} (h : l.MemWf)
    (e : l.reach t = some (p, todo)) : p.MemWf ∧ logMemWf todo := by
  unfold Leapfrog.reach at e
  dsimp only at e
  split at e
  · cases e
  · split at e
    · cases e
    · next q log rest hq =>
      cases e
      have hmem : (p, log) ∈ l.checks := List.mem_of_mem_drop (hq ▸ List.mem_cons_self)
      refine ⟨(h.checks _ hmem).1, fun e he => ?_⟩
      rcases List.mem_append.mp he with he | he
      · exact (h.checks _ hmem).2 e (List.mem_reverse.mp he)
      · obtain ⟨l', hl, he⟩ := List.mem_flatten.mp he
        obtain ⟨q, hq, rfl⟩ := List.mem_map.mp hl
        exact (h.checks q ((List.takeWhile_prefix _).subset (List.mem_reverse.mp hq))).2 e (List.mem_reverse.mp he)

theorem execLeap_memWf {go : Bool} (h : s.MemWf) : Out.MemWf (execLeap fn b x go s) := by
  unfold execLeap
  refine h.bankWrite fun s hs => ?_
  dsimp only
  split
  · exact hs
  · split
    · exact hs.modBank fun _ hb => hb.of_eq rfl
    · split
      · exact hs.modBank fun _ hb => hb.of_eq rfl
      · next e =>
        obtain ⟨_, _, e⟩ := Option.bind_eq_some_iff.mp e
        obtain ⟨q, hq, e⟩ := Option.map_eq_some_iff.mp e
        cases e
        obtain ⟨hp, htodo⟩ := (hs.bank b).lf.reach hq
        refine hs.modBank fun k hb => ⟨⟨hb.lf.checks, fun r hr => ?_⟩⟩
        cases hr
        exact ⟨fun _ hstart => Option.some.inj hstart ▸ hp, htodo⟩

theorem execRelease_memWf (h : s.MemWf) : Out.MemWf (execRelease fn b s) := h.bankWrite fun _ hs => hs.gateOff

theorem cutLog_memWf {left : Nat} {checks : List (Snapshot × List LfStep)} (h : checksMemWf checks) :
    checksMemWf (cutLog left checks) := by
  induction checks generalizing left with
  | nil => exact h
  | cons q rest ih =>
    obtain ⟨⟨hp, hlog⟩, hrest⟩ := List.forall_mem_cons.mp h
    have hq : q.1.MemWf ∧ logMemWf (q.2.drop left) := ⟨hp, fun e he => hlog e (List.mem_of_mem_drop he)⟩
    cases rest with
    | nil => exact List.forall_mem_cons.mpr ⟨hq, nofun⟩
    | cons r rest =>
      unfold cutLog
      split
      · exact List.forall_mem_cons.mpr ⟨hq, hrest⟩
      · exact ih hrest

theorem Leapfrog.MemWf.cut {l : Leapfrog} {left tick : Nat} (h : l.MemWf) : (l.cut left tick).MemWf :=
  ⟨cutLog_memWf h.checks, h.resume⟩

theorem MBank.MemWf.gateGang {k : MBank} {cores : List CoreId} (h : k.MemWf) : (k.gateGang cores).MemWf := h.of_eq rfl

theorem State.MemWf.diverge (h : s.MemWf) : (s.diverge b).MemWf := by
  have hcut : ∀ (k : MBank) (cores : List CoreId) (left tick : Nat), k.MemWf →
      (MBank.stopReplay { k.gateGang cores with diverged := true, lf := k.lf.cut left tick }).MemWf :=
    fun _ _ left tick hb => ⟨⟨(hb.lf.cut (left := left) (tick := tick)).checks, nofun⟩⟩
  unfold State.diverge
  split
  · refine .ite (.viewAt ?_) ?_
    all_goals exact .gateSync (h.modBank fun _ hb => hcut _ _ _ _ hb)
  · exact .gateSync (h.modBank fun _ hb => .of_eq hb.gateGang.stopReplay rfl)
  · exact h

/-! ## Machine/Boot -/

theorem State.MemWf.fresh0 (h : s.MemWf) : s.fresh0.MemWf :=
  have hr := (State.memWf_iff _).mp State.reset_memWf
  ⟨h.gmem, hr.core, hr.bank⟩

theorem State.MemWf.minimal {reason : BitVec 8} (h : s.MemWf) : (s.minimal reason).MemWf := h.of_eq rfl

theorem State.MemWf.start {inp : BootInput} (h : s.MemWf) : (s.start inp n).MemWf := by
  induction n generalizing s with
  | zero => exact h
  | succ n ih =>
    unfold State.start
    exact .ite (.of_eq h.fresh0 rfl) (.ite (State.MemWf.minimal (.of_eq h.fresh0 rfl)) (ih (.of_eq h.fresh0 rfl)))

theorem execPowerOn_memWf {inp : BootInput} {full : Bool} (h : s.MemWf) : Out.MemWf (execPowerOn inp full s) :=
  .next (.start (h.of_eq rfl))

theorem execOvoneReady_memWf (h : s.MemWf) : Out.MemWf (execOvoneReady s) := .next (.ite (h.of_eq rfl) h)

theorem execReadyTimeout_memWf (h : s.MemWf) : Out.MemWf (execReadyTimeout s) := by
  unfold execReadyTimeout
  refine .next ?_
  split
  · exact h
  · split
    · exact h
    · split
      · exact h.fresh0.minimal
      · exact h.start

theorem execAnswerFlashWrite_memWf {data : BitVec 512} (h : s.MemWf) : Out.MemWf (execAnswerFlashWrite data s) :=
  .next (.ite (h.of_eq rfl) h.ignoreAnswer)

theorem execAnswerRestart_memWf {inp : BootInput} (h : s.MemWf) : Out.MemWf (execAnswerRestart inp s) :=
  .next (.ite (.start (h.of_eq rfl)) h.ignoreAnswer)

theorem execAttestRequest_memWf {p : BitVec 16} {nonce : BitVec 256} (h : s.MemWf) :
    Out.MemWf (execAttestRequest fn p nonce s) :=
  .next (.ite h.ignoreAnswer (h.of_eq rfl))

theorem execAttestReportPost_memWf (h : s.MemWf) : Out.MemWf (execAttestReportPost s) := by
  unfold execAttestReportPost
  refine .next ?_
  split
  · exact h
  · exact .foldl (h.of_eq (by rfl)) (fun _ _ hs => hs.postMail) _

/-! ## Machine/Partition -/

theorem State.MemWf.create (h : s.MemWf) : (s.create p).MemWf := by
  unfold State.create
  exact .foldl (h.of_eq (by rfl)) (fun _ _ hs => .ite hs.resetBanks hs) _

theorem State.MemWf.announce {a : Access} (h : s.MemWf) : (s.announce a).MemWf := by
  unfold State.announce
  split
  · exact h.requests.engineFill
  · exact h

theorem State.MemWf.idleTo {die : Bool} {tick : Nat} (h : s.MemWf) : (s.idleTo die tick).MemWf := .ite h (h.of_eq rfl)

theorem State.MemWf.noteDemand {gs : List (Option Nat)} (h : s.MemWf) : (s.noteDemand gs).MemWf := h.of_eq rfl

theorem State.MemWf.injectSome {a : Access} (h : s.MemWf) : (s.injectSome a n).1.MemWf := by
  unfold State.injectSome
  dsimp only
  split
  · exact h
  · exact State.MemWf.noteDemand (.of_eq (.ite h h.announce) rfl)

theorem State.MemWf.inject {die : Bool} {first : List CoreId} (h : s.MemWf) : (s.inject die p first n).MemWf := by
  unfold State.inject
  exact .foldl_fst h (fun _ _ hs => hs.injectSome) _

theorem State.MemWf.divide {die : Bool} {first : List CoreId} (h : s.MemWf) : (s.divide die first).MemWf :=
  .foldl (.foldl h (fun _ _ hs => hs.inject) _) (fun _ _ hs => hs.modPart) _

theorem State.MemWf.divideTick {die : Bool} {first : List CoreId} (h : s.MemWf) : (s.divideTick die first).MemWf :=
  .ite h (h.idleTo.divide.of_eq rfl)

theorem State.MemWf.divideEnd {die : Bool} (h : s.MemWf) : (s.divideEnd die).MemWf := by
  unfold State.divideEnd
  split
  · exact h.divideTick
  · exact h

theorem State.MemWf.announceRest {cs : List CoreId} (ht : t.MemWf) : (s.announceRest t cs).MemWf :=
  .foldl ht (fun _ _ hs => .foldl hs (fun _ _ hs => hs.announce) _) _

theorem State.MemWf.forget (h : s.MemWf) : s.forget.MemWf := by
  unfold State.forget
  split
  · exact h
  · exact h.of_eq rfl

theorem State.MemWf.enable (h : s.MemWf) : (s.enable p).MemWf :=
  .ite h (.ite (h.of_eq rfl) (.owe (.modPart (.ite h.idleTo.idleTo.create h.idleTo.idleTo))))

theorem State.MemWf.disable (h : s.MemWf) : (s.disable p).MemWf := by
  unfold State.disable
  split
  · exact h.modPart.undispatch
  · exact h

theorem execPartitionEnable_memWf (h : s.MemWf) : Out.MemWf (execPartitionEnable p s) := h.bar0 fun _ hs => hs.enable

theorem execPartitionDisable_memWf (h : s.MemWf) : Out.MemWf (execPartitionDisable p s) := h.bar0 fun _ hs => hs.disable

/-! ## Machine/Registers -/

theorem State.MemWf.lockedField {f : Partition → Partition} (h : s.MemWf) : (s.lockedField p f).MemWf := by
  unfold State.lockedField
  split
  · exact h.of_eq rfl
  · exact h.modPart

theorem State.MemWf.pctl {v : BitVec 8} (h : s.MemWf) : (s.pctl p v).MemWf :=
  .ite (h.of_eq rfl) <| .ite (.ite h.modPart.writeLater h.disable.modPart.writeLater) <|
    .ite (.ite h.modPart.writeLater.enable (h.of_eq rfl)) h.modPart.writeLater

theorem State.MemWf.setShare {die : Bool} {v : BitVec 8} (h : s.MemWf) : (s.setShare p die v).MemWf := by
  unfold State.setShare
  split
  · exact h.of_eq rfl
  · exact h.writeLater

theorem State.MemWf.setRoute {bank : Bool} {v : Word} (h : s.MemWf) : (s.setRoute bank dev v).MemWf :=
  .ite (h.of_eq rfl) (.ite (h.of_eq rfl) (h.of_eq rfl))

theorem State.MemWf.setKey {bank : Bool} {key : BitVec 16} {v : BitVec 32} (h : s.MemWf) : (s.setKey bank key v).MemWf :=
  .ite (h.of_eq rfl) (.ite (h.of_eq rfl) (h.of_eq rfl))

theorem State.MemWf.setVfpart (h : s.MemWf) : (s.setVfpart fn p).MemWf := by
  unfold State.setVfpart
  split
  · exact h
  · exact h.resetBanks.modFn

theorem State.MemWf.bankReg {f : MBank → MBank} (h : s.MemWf) (hf : ∀ b, b.MemWf → (f b).MemWf) : (s.bankReg fn b f).MemWf := by
  unfold State.bankReg
  split
  · exact h.modBank hf
  · exact h

theorem State.MemWf.mgmtWrite {r : MgmtReg} (h : s.MemWf) : (s.mgmtWrite r).MemWf := by
  cases r with
  | pctl => exact h.pctl
  | group | units | saveBase | saveSize => exact h.lockedField
  | slice | depth | udeleg0 | udeleg1 | shvec | pkey => exact h.writeLater
  | share => exact h.setShare
  | vfpart => exact h.setVfpart
  | devid => exact .ite h (h.of_eq rfl)
  | routing => exact h.setRoute
  | keyTab => exact h.setKey
  | ptab | ptlen | s2 | exportRec | remapEn | remap | errRd | fmMbrd => exact h.of_eq rfl
  | qirq => exact .ite h.modQueue h
  | bfilt | tbase | trd | lfbase | lflen => exact h.bankReg fun _ hb => hb.of_eq rfl
  | srate => exact .ite h (h.bankReg fun _ hb => hb.of_eq rfl)
  | tlog2 => exact .ite (h.bankReg fun _ hb => hb.of_eq rfl) h
  | lfctl fn b v =>
    have hlf : ∀ k : MBank, k.MemWf → (if v.getLsbD 0 then Leapfrog.zero else k.lf).MemWf := fun k hb => by
      split
      · exact ⟨nofun, nofun⟩
      · exact hb.lf
    exact .bankReg (.ite h.endReplay h) fun k hb => ⟨hlf k hb⟩
  | bsel => exact .ite h h.modFn

theorem execRegisterWrite_memWf {r : MgmtReg} (h : s.MemWf) : Out.MemWf (execRegisterWrite r s) :=
  h.bar0 fun _ hs => hs.mgmtWrite

theorem execImageLoaded_memWf {img : Image} {sections : List Byte} (h : s.MemWf) :
    Out.MemWf (execImageLoaded p img sections s) :=
  .next (.ite h (.modPart (.viewCode (.mapCores h (fun _ hk => hk.of_eq rfl)))))

/-! ## Machine/Reliability -/

theorem State.MemWf.correctedRecord {key : Nat} {post : State → State} (h : s.MemWf) (hpost : ∀ s, s.MemWf → (post s).MemWf) :
    (s.correctedRecord key post).MemWf := by
  unfold State.correctedRecord
  split
  · exact h.of_eq rfl
  · exact .ite (hpost _ h) (.of_eq (hpost _ h) rfl)

theorem State.MemWf.modRegion {r : Fin 40} {f : ScrubRegion → ScrubRegion} (h : s.MemWf) : (s.modRegion r f).MemWf :=
  h.of_eq rfl

theorem State.MemWf.granuleCorrected {r : Fin 40} {m : Meets} {pa syn : Nat} (h : s.MemWf) :
    (s.granuleCorrected r m pa syn).MemWf :=
  .modRegion (h.correctedRecord (fun _ hs => hs.errorRecord))

theorem State.MemWf.coreCorrected {addr : Nat} {syn : BitVec 32} (h : s.MemWf) : (s.coreCorrected c n addr syn).MemWf :=
  h.correctedRecord fun _ hs => hs.coreRecord

theorem State.MemWf.coreError {addr : Nat} {syn : BitVec 32} {f : Core → Core} (h : s.MemWf) (hf : ∀ k, k.MemWf → (f k).MemWf) :
    (s.coreError c addr syn f).MemWf :=
  .coreRecord (h.modCore hf)

theorem execMemoryError_memWf {what : MemStruct} {uncorrectable : Bool} {syndrome : BitVec 32} (h : s.MemWf) :
    Out.MemWf (execMemoryError what uncorrectable syndrome s) := by
  unfold execMemoryError
  refine .next ?_
  split
  · dsimp only
    split
    · split
      · exact h.granulePoisoned
      · exact h
    · split
      · exact h.granulePoisoned
      · exact h.granuleCorrected
  · split
    · exact h.coreError fun _ hk => hk.spoilCistern
    · exact h.coreCorrected
  · split
    · exact h.coreError fun _ hk => ⟨hk.cistern, PoisonMem.mark_wf hk.wbuf ..⟩
    · exact h.coreCorrected
  · split
    · exact h.coreError fun _ hk => hk.putData
    · exact h.coreCorrected
  · split
    · exact h.coreError fun _ hk => hk.putData
    · exact h.coreCorrected
  · split
    · exact h.eccState
    · exact h.coreCorrected.useFresh
  · exact .ite (.coreRecord (h.modCore (fun _ hk => hk.of_eq rfl))) (.coreCorrected (h.modCore (fun _ hk => hk.of_eq rfl)))

theorem execCoreOffline_memWf (h : s.MemWf) : Out.MemWf (execCoreOffline c s) :=
  .next (.ite h (.errorRecord (h.modCore (fun _ hk => hk.of_eq rfl))))

theorem execScrubRead_memWf {region : Fin 40} {corrected uncorrectable : Bool} (h : s.MemWf) :
    Out.MemWf (execScrubRead region corrected uncorrectable s) := by
  refine .next (.ite h (.ite (.modRegion (.modRegion ?_)) (.errorRecord (.modRegion (.modRegion ?_)))))
  all_goals exact .ite h.granulePoisoned (.ite h.granuleCorrected h)

theorem State.MemWf.sensed {temps : Vector Nat 40} {js : Vector Nat 8} (h : s.MemWf) : (s.sensed temps js).MemWf := h.of_eq rfl

theorem execSensorSample_memWf {temps : Vector Nat 40} {die0 die1 : Vector Nat 4} (h : s.MemWf) :
    Out.MemWf (execSensorSample temps die0 die1 s) :=
  .next (.ite h.sensed h)

theorem execPowerSample_memWf {watts : BitVec 12} (h : s.MemWf) : Out.MemWf (execPowerSample watts s) :=
  .next (.ite (h.of_eq rfl) h)

theorem State.MemWf.heatStop (h : s.MemWf) : s.heatStop.MemWf := by
  unfold State.heatStop
  split
  · exact .errorRecord (h.of_eq rfl)
  · exact h

theorem State.MemWf.powerEnd (h : s.MemWf) : s.powerEnd.MemWf := by
  unfold State.powerEnd
  split
  · exact .useFresh (h.of_eq rfl)
  · exact h

theorem State.MemWf.sensorEnd (h : s.MemWf) : s.sensorEnd.MemWf := by
  unfold State.sensorEnd
  exact .ite (.heatStop (.setFresh h.sensed)) h

theorem State.MemWf.sampleEnd (h : s.MemWf) : s.sampleEnd.MemWf := by
  unfold State.sampleEnd
  split
  · exact h.powerEnd.sensorEnd
  · exact h

theorem execPwrctlWrite_memWf {v : BitVec 12} (h : s.MemWf) : Out.MemWf (execPwrctlWrite v s) :=
  h.bar0 fun _ hs => .ite (hs.of_eq rfl) hs

/-! ## Machine/Bar -/

theorem State.MemWf.answerRead {bs : List Byte} (h : s.MemWf) : (s.answerRead bs).MemWf := h.of_eq rfl

theorem State.MemWf.readWord {ok : Bool} {v : Word} {f : State → State} (h : s.MemWf) (hf : ∀ s, s.MemWf → (f s).MemWf) :
    (s.readWord ok n v f).MemWf := by
  unfold State.readWord
  split
  · exact .answerRead (hf _ h)
  · exact h.answerRead

theorem State.MemWf.bankRegRead {off : Nat} (h : s.MemWf) : (s.bankRegRead fn b off n).MemWf := by
  refine .ite h.answerRead (.ite (h.readWord fun s hs => .ite ?_ hs) (.ite h.answerRead h.answerRead))
  split
  · next e => exact .of_next (execBstatRead_memWf hs) e
  · exact hs

theorem State.MemWf.portRegRead {i off : Nat} (h : s.MemWf) : (s.portRegRead i off n).MemWf :=
  h.readWord fun _ hs => hs.portRead

theorem State.MemWf.notifyRead {off : Nat} (h : s.MemWf) : (s.notifyRead fn off n).MemWf := by
  unfold State.notifyRead
  split
  · exact h.answerRead
  · dsimp only
    split
    · exact h.readWord fun _ hs => hs
    · exact h.readWord fun _ hs => hs
    · exact h.readWord fun _ hs => hs
    · exact h.answerRead

theorem State.MemWf.pfRead {off : Nat} (h : s.MemWf) : (s.pfRead off n).MemWf := by
  unfold State.pfRead
  split
  · dsimp only
    split <;> exact h.answerRead
  · split
    · exact h.readWord fun _ hs => hs
    · split
      · exact h.answerRead
      · split
        · exact h.readWord fun _ hs => hs
        · split
          · exact h.readWord fun _ hs => hs
          · split
            · exact h.readWord fun _ hs => hs
            · split
              · exact .ite h.bankRegRead h.answerRead
              · split
                · exact h.readWord fun _ hs => hs
                · split
                  · exact h.readWord fun _ hs => hs
                  · split
                    · exact h.portRegRead
                    · exact h.answerRead

theorem State.MemWf.vfRead {off : Nat} (h : s.MemWf) : (s.vfRead fn off n).MemWf :=
  .ite h.portRegRead <| .ite h.answerRead <| .ite (h.readWord fun _ hs => hs) <| .ite (h.readWord fun _ hs => hs) <|
    .ite h.bankRegRead h.answerRead

theorem State.MemWf.barRead {bar2 : Bool} {off : Nat} (h : s.MemWf) : (s.barRead fn bar2 off n).MemWf := by
  unfold State.barRead
  split
  · exact h.answerRead
  · split
    · exact h.notifyRead
    · split
      · exact h.pfRead
      · exact h.vfRead

theorem State.MemWf.regRead {r : HostReg} (h : s.MemWf) : (s.regRead fn r).MemWf := h.answerRead

theorem State.MemWf.recordWrite {off : Nat} {bs : List Byte} (h : s.MemWf) : (s.recordWrite p off bs).MemWf :=
  .foldl h (fun _ _ hs => .ite hs.mgmtWrite hs) _

theorem State.MemWf.after {o : Out} (h : s.MemWf) (ho : o.MemWf) : (s.after o).MemWf := by
  unfold State.after
  split
  · exact .of_next ho rfl
  · exact h

theorem State.MemWf.bankRegWrite {off : Nat} {v : Word} (h : s.MemWf) : (s.bankRegWrite fn b off v).MemWf := by
  unfold State.bankRegWrite
  dsimp only
  split
  · exact h.after (execBctlWrite_memWf h)
  · exact h.mgmtWrite
  · exact h.mgmtWrite
  · exact h.mgmtWrite
  · exact h.mgmtWrite
  · exact h.mgmtWrite
  · exact h.after (execStoptickArm_memWf h)
  · exact h.after (execStoptickArm_memWf h)
  · exact h.after (execRelease_memWf h)
  · exact h.mgmtWrite
  · exact h.mgmtWrite
  · exact h.mgmtWrite
  · exact h.after (execLeap_memWf h)
  · exact h

theorem State.MemWf.notifyWrite {off : Nat} {pasid : Option (BitVec 20)} {bs : List Byte} (h : s.MemWf) :
    (s.notifyWrite fn off pasid bs).MemWf := by
  unfold State.notifyWrite
  split
  · exact h
  · split
    · exact h.after (execRequestPacket_memWf h)
    · split
      · exact h
      · split
        · exact h.after (execNotifyWidxWrite_memWf h)
        · split
          · exact h.mgmtWrite
          · exact h

theorem State.MemWf.pfWrite {off : Nat} {bs : List Byte} (h : s.MemWf) : (s.pfWrite off bs).MemWf := by
  refine .ite ?_ <| .ite h <| .ite (.ite (h.after (execBankownWrite_memWf h)) h) <| .ite h.mgmtWrite <|
    .ite h.bankRegWrite <| .ite (h.after (execPwrctlWrite_memWf h)) <| .ite h.portWrite h
  split
  · exact h.recordWrite
  · exact h

theorem State.MemWf.answerWrite {bs : List Byte} (h : s.MemWf) : (s.answerWrite fn bs).MemWf := by
  unfold State.answerWrite
  split
  · split
    · exact h
    · split
      · exact h.after (execAnswerFlashWrite_memWf h)
      · exact h.after (execAnswerRestart_memWf h)
      · exact h.ignoreAnswer
  · dsimp only
    split
    · split
      · exact h.after (.next h.answer)
      · exact h.ignoreAnswer
    · split
      · exact h.after (.next h.answer)
      · exact h.ignoreAnswer
    · split
      · exact h.after (execAnswerAbandon_memWf h)
      · exact h.ignoreAnswer
    · split
      · exact h.after (execAttestRequest_memWf h)
      · exact h.ignoreAnswer
    · exact h.ignoreAnswer

theorem State.MemWf.vfWrite {off : Nat} {bs : List Byte} (h : s.MemWf) : (s.vfWrite fn off bs).MemWf :=
  .ite h.answerWrite <| .ite h <| .ite h.portWrite <|
    .ite (.ite (.ite h.bclaim (h.after (execBclaimClaim_memWf h))) (h.after (execBclaimRelease_memWf h))) <|
    .ite h.mgmtWrite <| .ite h.bankRegWrite h

theorem State.MemWf.barWrite {bar2 : Bool} {off : Nat} {pasid : Option (BitVec 20)} {bs : List Byte} (h : s.MemWf) :
    (s.barWrite fn bar2 off pasid bs).MemWf := by
  unfold State.barWrite
  split
  · exact h
  · split
    · exact h.notifyWrite
    · split
      · exact h.pfWrite
      · exact h.vfWrite

theorem State.MemWf.reportLink {code : BitVec 32} (h : s.MemWf) : (s.reportLink code).MemWf := h.of_eq rfl

/-! ## Machine/Dispatch -/

/-- Every instruction and every event keeps the canonical form. -/
theorem exec_memWf {i : Instr} (h : s.MemWf) : Out.MemWf (exec i s) := by
  cases i with
  | add | sub | mul | mulh | mulhu | and | or | xor | shl | shr | sar | rot | min | max | minu | maxu | sel | mov | clz |
    ctz | popc | addi | andi | ori | xori | shli | shri | sari | li | lih | lea | kmovSK | pqstat | tick => exact h.setS
  | div | divu | rem | remu => exact h.setDiv
  | cmpEq | cmpNe | cmpLt | cmpLe | cmpGt | cmpGe | cmpLtu | cmpLeu | cmpGtu | cmpGeu | pand | por | pnot => exact h.setP
  | kset | kadd | kmovKS | kmovKK => exact h.setK
  | cadv => exact .next h.nullWrite
  | crd => exact execCrd_memWf h
  | cwait => exact execCwait_memWf h
  | br => exact execBr_memWf h
  | bri | ret => exact h.jump
  | call => exact execCall_memWf h
  | loop => exact execLoop_memWf h
  | dpt => exact execDpt_memWf h
  | fork => exact execFork_memWf h
  | join => exact execJoin_memWf h
  | endStream => exact execEndStream_memWf h
  | post => exact execPost_memWf h
  | tld | tldp => exact h.tileLoad
  | tst | tstp => exact h.tileStore
  | ldsU8 | ldsU16 | ldsU32 | ldsU64 | ldsI8 | ldsI16 | ldsI32 => exact h.scalarLoad
  | stsU8 | stsU16 | stsU32 | stsU64 => exact h.scalarStore
  | lookup => exact execLookup_memWf h
  | tagset => exact execTagset_memWf h
  | taginv => exact execTaginv_memWf h
  | probe => exact execProbe_memWf h
  | vadd | vsub | vmul | vfma | vfms | vmin | vmax | vabs | vneg | vdiv | vsqrt | vrcp | vrsq | vexp2 | vlog2 | vand | vor |
    vxor | vnot | vshl | vshr | vsar | vcmp | vcmpb | vsel | vcvt | vmov | vsplat | vgete | vpute | vred | vscan | vpxor |
    vclmul | vpopc | vclz | vperm | vshuf | vtrn | vbcastr | vcomp | npack | nunpk | nrnd | nmom => exact h.tileOp
  | wlatch => exact execWlatch_memWf h
  | wclr => exact execWclr_memWf h
  | mma => exact execMma_memWf h
  | amovToTile | amovToAcc | azero | aadd => exact h.vecIssue
  | nsetl => exact execNsetl_memWf h
  | nsetb => exact execNsetb_memWf h
  | nstat => exact execNstat_memWf h
  | ngo => exact execNgo_memWf h
  | orient2 | orient3 | incirc | insph | segx => exact h.geomIssue
  | gstat => exact execGstat_memWf h
  | nupd | nupdCm => exact h.nupdIssue
  | pcopy | pgath | pscat | pfill | pwld | prem => exact h.pumpIssue
  | presume | pcancel => exact h.parkedIssue
  | semadd | semswp | semcas | semmax | semld => exact h.semIssue
  | semwt => exact execSemwt_memWf h
  | fence => exact execFence_memWf h
  | bar => exact execBar_memWf h
  | nop => exact .next h.adv
  | trap | bkpt => exact h.trapImm
  | csrr | csrw | csrx => exact h.csrAccess
  | eret => exact execEret_memWf h
  | resumeRetry => exact execResumeRetry_memWf h
  | resumeSkip => exact h.resume
  | instructionFetch => exact execInstructionFetch_memWf h
  | countWaitResume => exact execCountWaitResume_memWf h
  | issueIntervalEnd => exact execIssueIntervalEnd_memWf h
  | vectorWriteComplete => exact execVectorWriteComplete_memWf h
  | tileLoadComplete => exact execTileLoadComplete_memWf h
  | tileStorePerformed => exact execTileStorePerformed_memWf h
  | scalarLoadReturn => exact execScalarLoadReturn_memWf h
  | scalarStorePerformed => exact execScalarStorePerformed_memWf h
  | pageWalkComplete => exact execPageWalkComplete_memWf h
  | priResponse => exact execPriResponse_memWf h
  | arrayQueueRoom => exact execArrayQueueRoom_memWf h
  | wlatchComplete => exact execWlatchComplete_memWf h
  | wclrExecute => exact execWclrExecute_memWf h
  | mmaComplete => exact execMmaComplete_memWf h
  | nestGroupComplete => exact execNestGroupComplete_memWf h
  | nestComplete => exact execNestComplete_memWf h
  | geomAccept => exact execGeomAccept_memWf h
  | geomComplete => exact execGeomComplete_memWf h
  | pumpQueueRoom => exact execPumpQueueRoom_memWf h
  | pumpTakeCommand => exact execPumpTakeCommand_memWf h
  | pumpCommandEnd => exact execPumpCommandEnd_memWf h
  | pumpPark => exact execPumpPark_memWf h
  | premUnitAck => exact execPremUnitAck_memWf h
  | semOpPerform => exact execSemOpPerform_memWf h
  | semOpResult => exact execSemOpResult_memWf h
  | semwtHoldExpire => exact execSemwtHoldExpire_memWf h
  | joinComplete => exact execJoinComplete_memWf h
  | barComplete => exact execBarComplete_memWf h
  | streamEnded => exact execStreamEnded_memWf h
  | taskRetire => exact execTaskRetire_memWf h
  | watchdogExpire => exact execWatchdogExpire_memWf h
  | trapDelivery => exact execTrapDelivery_memWf h
  | eccUncorrectable => exact execEccUncorrectable_memWf h
  | answerRetry | answerSkip => exact .next h.answer
  | answerAbandon => exact execAnswerAbandon_memWf h
  | mbrdWrite => exact execMbrdWrite_memWf h
  | notifyWidxWrite => exact execNotifyWidxWrite_memWf h
  | requestPacket => exact execRequestPacket_memWf h
  | queueEnable => exact execQueueEnable_memWf h
  | queueDisable => exact execQueueDisable_memWf h
  | commandFetch => exact execCommandFetch_memWf h
  | cmdNop => exact execCmdNop_memWf h
  | cmdLaunch => exact execCmdLaunch_memWf h
  | cmdWait => exact execCmdWait_memWf h
  | cmdSignal => exact execCmdSignal_memWf h
  | queueUnblock => exact execQueueUnblock_memWf h
  | signalPerform => exact execSignalPerform_memWf h
  | launchComplete => exact execLaunchComplete_memWf h
  | agingStep => exact execAgingStep_memWf h
  | gangStart => exact execGangStart_memWf h
  | gangRestore => exact execGangRestore_memWf h
  | sliceEnd => exact execSliceEnd_memWf h
  | drainWithdraw => exact execDrainWithdraw_memWf h
  | drainComplete => exact execDrainComplete_memWf h
  | hardStop => exact execHardStop_memWf h
  | saveComplete => exact execSaveComplete_memWf h
  | zeroingComplete => exact execZeroingComplete_memWf h
  | functionLevelReset => exact execFunctionLevelReset_memWf h
  | hostAbandon => exact execHostAbandon_memWf h
  | hostMemoryAccess => exact execHostMemoryAccess_memWf h
  | portDoorWrite => exact execPortDoorWrite_memWf h
  | invVa | invPasid | invIpa | invAll => exact .next h.invalidateBy
  | aperture => exact execAperture_memWf h
  | migrate => exact execMigrate_memWf h
  | portDrainComplete => exact execPortDrainComplete_memWf h
  | pstatRead => exact execPstatRead_memWf h
  | qmapWrite => exact execQmapWrite_memWf h
  | linkTrain => exact .next h.modLink
  | flitCrcError => exact .next h
  | packetReceive => exact .next h.packetReceive
  | packetAck => exact execPacketAck_memWf h
  | linkFaultDetect => exact execLinkFaultDetect_memWf h
  | linkResolveExpire => exact execLinkResolveExpire_memWf h
  | linkUp => exact execLinkUp_memWf h
  | sourceResetNotice => exact execSourceResetNotice_memWf h
  | routingSwap => exact execRoutingSwap_memWf h
  | keySwap => exact execKeySwap_memWf h
  | swapComplete => exact execSwapComplete_memWf h
  | powerOn => exact execPowerOn_memWf h
  | ovoneReady => exact execOvoneReady_memWf h
  | readyTimeout => exact execReadyTimeout_memWf h
  | answerFlashWrite => exact execAnswerFlashWrite_memWf h
  | answerRestart => exact execAnswerRestart_memWf h
  | attestRequest => exact execAttestRequest_memWf h
  | attestReportPost => exact execAttestReportPost_memWf h
  | partitionEnable => exact execPartitionEnable_memWf h
  | partitionDisable => exact execPartitionDisable_memWf h
  | bandwidthTick => exact .next h.divideTick
  | bankownWrite => exact execBankownWrite_memWf h
  | bclaimClaim => exact execBclaimClaim_memWf h
  | bclaimRelease => exact execBclaimRelease_memWf h
  | bctlWrite => exact execBctlWrite_memWf h
  | bstatRead => exact execBstatRead_memWf h
  | stoptickArm => exact execStoptickArm_memWf h
  | stopTick => exact execStopTick_memWf h
  | release => exact execRelease_memWf h
  | sampleRecord => exact execSampleRecord_memWf h
  | twrRead => exact execTwrRead_memWf h
  | leapfrogCheckpoint => exact execLeapfrogCheckpoint_memWf h
  | leap => exact execLeap_memWf h
  | replayDiverge => exact .next h.diverge
  | memoryError => exact execMemoryError_memWf h
  | coreOffline => exact execCoreOffline_memWf h
  | scrubRead => exact execScrubRead_memWf h
  | sensorSample => exact execSensorSample_memWf h
  | powerSample => exact execPowerSample_memWf h
  | thermalStop => exact .next h.heatStop
  | pwrctlWrite => exact execPwrctlWrite_memWf h
  | registerWrite => exact execRegisterWrite_memWf h
  | imageLoaded => exact execImageLoaded_memWf h
  | migrateCopyComplete => exact execMigrateCopyComplete_memWf h
  | packetRefused => exact execPacketRefused_memWf h

/-! ## Machine/Moves -/

theorem State.MemWf.countTicks {dt : Nat} (h : s.MemWf) : (s.countTicks c dt).MemWf := by
  unfold State.countTicks
  dsimp only
  split
  · exact h
  · split
    · refine .foldl h (fun s x hs => ?_) _
      split
      · exact hs.sketch
      · exact hs.sketch
      · exact hs
    · refine .sketch (.foldl h (fun s x hs => ?_) _)
      split
      · exact hs.sketch
      · exact hs.sketch
      · exact hs

theorem State.MemWf.endTick (h : s.MemWf) : s.endTick.MemWf := by
  unfold State.endTick
  exact .ite h.divideEnd.divideEnd.sampleEnd.settle h.divideEnd.divideEnd.sampleEnd.settle.idleTo.idleTo.takeFields

theorem State.MemWf.pass {dt : Nat} (h : s.MemWf) : (s.pass dt).MemWf := by
  unfold State.pass
  split
  · exact h
  · exact .of_eq (.ite h.endTick.charge (.foldl h.endTick.charge (fun _ _ hs => hs.countTicks) _)) rfl

theorem Core.MemWf.upkeep {view : Nat} (h : k.MemWf) : (k.upkeep view).MemWf := h.reseat.of_eq rfl

theorem State.MemWf.upkeep (h : s.MemWf) : s.upkeep.MemWf :=
  .samplesDone (.mapCoresIdx (.ite h h.peerRunAll) (fun _ _ _ hk => hk.upkeep))

theorem State.MemWf.issue {useCache : Bool} (h : s.MemWf) : Out.MemWf (s.issue c x useCache) := by
  unfold State.issue
  dsimp only
  split
  · next e => exact exec_memWf (.ite (.of_fst h.prepare e) (.noteIssue (.of_fst h.prepare e)))
  · next e => exact .next (.of_fst h.prepare e)

theorem State.MemWf.runCore (h : s.MemWf) : (s.runCore c).MemWf := h.releaseCore.debugRun

theorem State.MemWf.stepReplay (h : s.MemWf) : (s.stepReplay c x).MemWf := by
  refine .mapBanks h fun k hb => ?_
  split
  · exact hb
  · next r e =>
    obtain ⟨hstart, htodo⟩ := hb.lf.resume r e
    refine .ite hb ?_
    split
    · exact hb
    · exact hb.setResume ⟨hstart, htodo⟩

theorem State.MemWf.stepGated (h : s.MemWf) : Out.MemWf (s.stepGated c x) := by
  have hopen := h.modCore (c := c) (f := fun k => { k with gated := false }) fun _ hk => hk.of_eq rfl
  refine .ite (.next h.modStream) ?_
  split
  · next e => exact .next (.modCore (.of_next hopen.modStream.issue e) fun _ hk => hk.of_eq rfl)
  · exact hopen.modStream.issue

theorem State.MemWf.stepCore (h : s.MemWf) : Out.MemWf (s.stepCore c x) :=
  .ite (.next h.debugStep.stepReplay) (.ite h.debugStep.stepGated (.next h.debugStep))

theorem State.MemWf.move {p : Pick} (h : s.MemWf) : Out.MemWf (s.move p) := by
  unfold State.move
  split
  · exact h.issue
  · split
    · exact exec_memWf h
    · exact .next h
  · exact .next h.pumpUnit
  · exact .next h.pipeCheckPick
  · exact .next h.barRead
  · exact .next h.barWrite
  · exact .next h.regRead
  · exact .next h.answerWrite
  · exact .next h.debugBreak
  · exact .next h.runCore
  · exact h.stepCore
  · exact .next h.reportLink

theorem Out.MemWf.finish {p : Option Pick} {o : Out} (ho : o.MemWf) : Out.MemWf (s.finish p o) := by
  unfold State.finish
  split
  · exact .next (.logMove (.upkeep (.of_next ho rfl)))
  · exact ho
  · exact ho

theorem State.MemWf.rest (h : s.MemWf) : Out.MemWf s.rest := Out.MemWf.finish (.next h)

theorem Out.MemWf.announced {cs : List CoreId} {o : Out} (ho : o.MemWf) : Out.MemWf (s.announced cs o) := by
  unfold State.announced
  split
  · exact .next (.announceRest (.of_next ho rfl))
  · exact ho

theorem Out.MemWf.settled {p : Option Pick} {cs : List CoreId} {o : Out} (ho : o.MemWf) : Out.MemWf (s.settled p cs o) := by
  unfold State.settled
  split
  · next e => exact .next (.forget (.of_next ho.announced.finish e))
  · exact ho.announced.finish

theorem State.MemWf.make {p : Pick} (h : s.MemWf) : Out.MemWf (s.make p) := by
  unfold State.make
  exact .ite h.rest (Out.MemWf.settled h.move)

/-! ## Machine/Due -/

theorem State.dueStop_keeps (s : State) : OptKeeps s.dueStop := by
  unfold State.dueStop
  split
  · exact .some fun _ h => execStopTick_memWf h
  · exact .map (fun _ _ h => execStopTick_memWf h) _

theorem State.MemWf.raiseLate {t : LateTrap} (h : s.MemWf) : (s.raiseLate t).MemWf :=
  .ite (.asyncTrap (h.of_eq rfl)) (h.of_eq rfl)

theorem State.dueLate_keeps (s : State) : OptKeeps s.dueLate := .map (fun _ _ h => .next h.raiseLate) _

theorem State.dueRecord_keeps (s : State) : OptKeeps s.dueRecord :=
  .map (fun _ _ h => execSampleRecord_memWf h.useFresh) _

theorem State.dueCheck_keeps (s : State) : OptKeeps s.dueCheck := by
  unfold State.dueCheck
  split
  · exact .map (fun _ _ h => execLeapfrogCheckpoint_memWf h) _
  · exact .none

theorem State.MemWf.replayEntry {n : Node} {r : Replay} {e : LfStep} {rest : List LfStep} (h : s.MemWf) (hr : r.MemWf)
    (he : logMemWf (e :: rest)) : (s.replayEntry b n r e rest).MemWf := by
  obtain ⟨hafter, hrest⟩ := List.forall_mem_cons.mp he
  exact .ite h.diverge ((h.putGang hafter).modBank fun _ hb => hb.setResume ⟨hr.start, hrest⟩)

theorem State.MemWf.leapStart {n : Node} {r : Replay} {p : Snapshot} (h : s.MemWf) (hr : r.MemWf) (hp : p.MemWf) :
    (s.leapStart b n r p).MemWf :=
  (h.putBack hp).modBank fun _ hb => hb.setResume ⟨nofun, hr.todo⟩

theorem State.MemWf.replayBreak {r : Replay} (h : s.MemWf) : (s.replayBreak b r c x).MemWf :=
  .gateSync (h.modStream.modBank (fun _ hb => hb.gateGang))

theorem State.MemWf.leapEnd {n : Node} {r : Replay} {t : Nat} (h : s.MemWf) (hr : r.MemWf) : (s.leapEnd b n r t).MemWf :=
  State.MemWf.viewAt (h.modBank fun _ hb => hb.setResume ⟨hr.start, hr.todo⟩)

theorem State.MemWf.replayLive {n : Node} {r : Replay} {e : LfStep} {rest : List LfStep} (h : s.MemWf) (hr : r.MemWf)
    (he : logMemWf (e :: rest)) : (s.replayLive b n r e rest).MemWf := by
  unfold State.replayLive
  split
  · exact h.replayBreak
  · exact h.replayEntry hr he

theorem State.MemWf.replayStep (h : s.MemWf) : (s.replayStep b).MemWf := by
  unfold State.replayStep
  dsimp only
  split
  · exact h
  · exact h.endReplay
  · next r n hb _ =>
    have hr := (h.bank b).lf.resume r hb
    split
    · next hp => exact h.leapStart hr (hr.start _ hp)
    · next ht => exact .ite (h.replayEntry hr (ht ▸ hr.todo)) (h.leapEnd hr)
    · exact h.leapEnd hr
    · next ht => exact h.replayLive hr (ht ▸ hr.todo)
    · exact h.endReplay

theorem State.dueReplay_keeps (s : State) : OptKeeps s.dueReplay := .map (fun _ _ h => .next h.replayStep) _

theorem State.dueCore_keeps (s : State) : OptKeeps s.dueCore := by
  unfold State.dueCore
  split
  · exact .none
  · split
    · split
      · exact .none
      · exact .some fun _ h => .next h.abandonNode
    · split
      · exact .some fun _ h => execHardStop_memWf h
      · exact .map (fun _ _ h => execWatchdogExpire_memWf h) _

theorem State.dueHold_keeps (s : State) : OptKeeps s.dueHold := .map (fun _ _ h => execSemwtHoldExpire_memWf h) _

theorem State.dueOther_keeps (s : State) : OptKeeps s.dueOther := by
  unfold State.dueOther
  split
  · exact .some fun _ h => .next h.heatStop
  · split
    · exact .map (fun _ _ h => execDrainWithdraw_memWf h) _
    · split
      · exact .some fun _ h => .next h.deliverAnswers
      · split
        · exact .some fun _ h => execReadyTimeout_memWf h
        · split
          · exact .some fun _ h => execSliceEnd_memWf h
          · split
            · exact .some fun _ h => execLinkResolveExpire_memWf h
            · exact .map (fun _ _ h => execAgingStep_memWf h) _

theorem State.due_keeps (s : State) : OptKeeps s.due := by
  unfold State.due
  split
  · next e => exact .some (s.dueStop_keeps _ e)
  · split
    · next e => exact .some (s.dueCheck_keeps _ e)
    · split
      · next e => exact .some (s.dueReplay_keeps _ e)
      · split
        · next e => exact .some (s.dueLate_keeps.or (s.dueRecord_keeps.or s.dueOther_keeps) _ e)
        · split
          · next e => exact .some (s.dueCore_keeps _ e)
          · exact s.dueHold_keeps

/-! ## Machine/Schedule -/

theorem portMoves_keep {i : Fin 65} {m : Move} (hm : m ∈ portMoves i) (h : s.MemWf) : Out.MemWf (m s) := by
  simp only [portMoves, List.mem_cons, List.not_mem_nil, or_false] at hm
  rcases hm with rfl | rfl | rfl | rfl | rfl | rfl | rfl | rfl
  · exact .next h.invalidateBy
  · exact .next h.invalidateBy
  · exact .next h.invalidateBy
  · exact .next h.invalidateBy
  · exact execAperture_memWf h
  · exact execMigrate_memWf h
  · exact execPortDrainComplete_memWf h
  · exact execMigrateCopyComplete_memWf h

/-- A move of the machine's own is a pick, or an event that no schedule names (assumption log 5). -/
theorem State.ownMoves_keep {m : OwnMove} (hm : m ∈ t.ownMoves) (h : s.MemWf) : Out.MemWf (m.2 s) := by
  rcases List.mem_append.mp hm with hm | hm
  · obtain ⟨p, _, rfl⟩ := List.mem_map.mp hm
    exact h.move
  · obtain ⟨f, hf, rfl⟩ := List.mem_map.mp hm
    simp only [List.mem_append, List.mem_map, List.mem_flatMap, List.mem_cons, List.not_mem_nil, or_false] at hf
    rcases hf with (((⟨c, _, rfl⟩ | ⟨g, _, rfl⟩) | ⟨i, _, hf⟩) | rfl | rfl | rfl | rfl | rfl) | ⟨b, _, rfl | rfl⟩
    · exact execCoreOffline_memWf h
    · exact execSliceEnd_memWf h
    · exact portMoves_keep hf h
    · exact execSwapComplete_memWf h
    · exact execSwapComplete_memWf h
    · exact execReadyTimeout_memWf h
    · exact execAttestReportPost_memWf h
    · exact .next h.heatStop
    · exact execStopTick_memWf h
    · exact execLeapfrogCheckpoint_memWf h

theorem State.MemWf.ownMove (h : s.MemWf) : Out.MemWf s.ownMove := by
  unfold State.ownMove
  dsimp only
  split
  · next m e =>
    have hm : m ∈ s.ownMoves := by
      rcases List.mem_append.mp (List.mem_of_find?_eq_some e) with hm | hm
      · exact List.mem_of_mem_drop hm
      · exact List.mem_of_mem_take hm
    exact Out.MemWf.settled (State.ownMoves_keep hm h)
  · exact h.rest

theorem State.MemWf.heatTurn (h : s.MemWf) : Out.MemWf s.heatTurn := by
  unfold State.heatTurn
  split
  · exact Out.MemWf.finish (exec_memWf (.pass (h.of_eq rfl)))
  · exact .fault

theorem State.MemWf.scheduled {dt : Nat} {p : Pick} {rest : List (Nat × Pick)} (h : s.MemWf) :
    Out.MemWf (s.scheduled dt p rest) := by
  unfold State.scheduled
  split
  · exact State.MemWf.rest (.pass (h.of_eq rfl))
  · exact State.MemWf.make (.pass (h.of_eq rfl))

theorem State.MemWf.idleTurn (h : s.MemWf) : Out.MemWf s.idleTurn := by
  have hp : (s.pass 1).MemWf := h.pass
  unfold State.idleTurn
  dsimp only
  split
  · exact hp.rest
  · exact hp.ownMove

/-- One step: what is due, the scheduled move, or one of the machine's own. -/
theorem State.MemWf.turn (h : s.MemWf) : Out.MemWf s.turn := by
  unfold State.turn
  split
  · exact h.heatTurn
  · split
    · next e => exact Out.MemWf.finish (s.due_keeps _ e s h)
    · split
      · exact .ite h.scheduled h.scheduled
      · exact h.idleTurn

end

/-- Settles O8: a step is a turn of the machine, and a turn keeps the canonical form. -/
theorem memoryStaysCanonical : Obligations.MemoryStaysCanonical := by
  unfold Obligations.MemoryStaysCanonical
  intro s t hs e
  have ht : Out.MemWf (step s) := State.MemWf.turn ((State.memWf_iff s).mp hs)
  exact (State.memWf_iff t).mpr (.of_next ht e)

end Sys2Proof.Machine
end

section
namespace Sys2Proof.Machine

/-! # Integer vector arithmetic is exact modulo 2^w, and clamped with SAT (O32)

A tile is built from its fields bit by bit, so element i of the result is the model's function of elements i of the sources. On an
integer type that function is `intEl`, whose result is the exact one (`Spec.exact`) put into the type by `intPut`. -/

/-! ## Fields of packed numbers -/

section
variable {w d lo i j : Nat} {f : Nat → Nat}

theorem mul_two_pow_succ : w * 2 ^ (d + 1) = w * 2 ^ d + w * 2 ^ d := by
  rw [Nat.pow_succ, ← Nat.mul_assoc, Nat.mul_two]

theorem packFields_lt_two_pow : packFields w f d lo < 2 ^ (w * 2 ^ d) := by
  induction d generalizing lo with
  | zero => simpa [packFields] using Nat.mod_lt (f lo) (Nat.two_pow_pos w)
  | succ d ih =>
    rw [packFields, mul_two_pow_succ, Nat.pow_add]
    calc packFields w f d lo + packFields w f d (lo + 2 ^ d) * 2 ^ (w * 2 ^ d)
        < (packFields w f d (lo + 2 ^ d) + 1) * 2 ^ (w * 2 ^ d) := by
          rw [Nat.succ_mul, Nat.add_comm]
          exact Nat.add_lt_add_left ih _
      _ ≤ 2 ^ (w * 2 ^ d) * 2 ^ (w * 2 ^ d) := Nat.mul_le_mul_right _ ih

/-- Bit j of a packed number is bit j mod w of the field it lies in. -/
theorem testBit_packFields (hw : 0 < w) :
    (packFields w f d lo).testBit j = (decide (j < w * 2 ^ d) && (f (lo + j / w)).testBit (j % w)) := by
  induction d generalizing lo j with
  | zero =>
    by_cases hj : j < w
    · simp [packFields, hj, Nat.div_eq_of_lt, Nat.mod_eq_of_lt]
    · simp [packFields, hj]
  | succ d ih =>
    rw [packFields, Nat.add_comm, Nat.mul_comm, Nat.testBit_two_pow_mul_add _ packFields_lt_two_pow, ih, ih,
      mul_two_pow_succ]
    split
    · next hj => simp [hj, Nat.lt_add_right]
    · next hj =>
      have hle : w * 2 ^ d ≤ j := Nat.le_of_not_lt hj
      have hfield : lo + 2 ^ d + (j - w * 2 ^ d) / w = lo + j / w := by
        have h2 : 2 ^ d ≤ j / w := (Nat.le_div_iff_mul_le hw).mpr (by rwa [Nat.mul_comm])
        rw [Nat.sub_mul_div]
        omega
      have hbit : (j - w * 2 ^ d) % w = j % w := Nat.sub_mul_mod hle
      have hlt : j - w * 2 ^ d < w * 2 ^ d ↔ j < w * 2 ^ d + w * 2 ^ d := by omega
      simp only [hfield, hbit, hlt]

/-- Element i of a tile built from its elements. -/
theorem extractLsb'_ofNat_packFields {n : Nat} (hw : 0 < w) (hn : w * 2 ^ d = n) (hi : i < 2 ^ d) :
    (BitVec.ofNat n (packFields w f d 0)).extractLsb' (w * i) w = BitVec.ofNat w (f i) := by
  apply BitVec.eq_of_getLsbD_eq
  intro k hk
  have hlt : w * i + k < n := by
    calc w * i + k < w * (i + 1) := by rw [Nat.mul_add]; omega
      _ ≤ w * 2 ^ d := Nat.mul_le_mul_left w hi
      _ = n := hn
  have hfield : (w * i + k) / w = i := by rw [Nat.mul_add_div hw, Nat.div_eq_of_lt hk, Nat.add_zero]
  have hbit : (w * i + k) % w = k := by rw [Nat.mul_add_mod, Nat.mod_eq_of_lt hk]
  rw [BitVec.getLsbD_extractLsb', BitVec.getLsbD_ofNat, testBit_packFields hw, hn, hfield, hbit, BitVec.getLsbD_ofNat]
  simp only [hlt, decide_true, Bool.true_and, Nat.zero_add]

theorem toNat_extractLsb'_eq_fieldOf {n : Nat} (x : BitVec n) : (x.extractLsb' (w * i) w).toNat = fieldOf w x.toNat i := by
  rw [BitVec.extractLsb'_toNat, Nat.shiftRight_eq_div_pow, fieldOf]

theorem testBit_ones_or_zero {n : Nat} (b : Bool) (hj : j < n) : (if b then 2 ^ n - 1 else 0).testBit j = b := by
  cases b
  · exact Nat.zero_testBit j
  · simpa [Nat.testBit_two_pow_sub_one] using hj

end

theorem rowMaskBits_getLsbD (mask : BitVec 32) {j : Nat} (hj : j < 32768) :
    (rowMaskBits mask).getLsbD j = mask.getLsbD (j / 1024) := by
  rw [rowMaskBits, BitVec.getLsbD_ofNat, testBit_packFields (by decide),
    testBit_ones_or_zero (n := 1024) _ (Nat.mod_lt j (by decide))]
  simp [hj]

/-! ## Operands -/

/-- The first n of three tile sources. -/
def tileArgs (a b c : BitVec 32768) (p q r : BitVec 32) (n : Nat) : List RegVal := [.tile a p, .tile b q, .tile c r].take n

section
variable (a b c : BitVec 32768) (p q r : BitVec 32) (n : Nat)

theorem argNat_tileArgs_zero (hn : 1 ≤ n) : argNat (tileArgs a b c p q r n) 0 = a.toNat := by
  obtain ⟨n, rfl⟩ := Nat.exists_eq_add_of_le' hn
  rfl

theorem argNat_tileArgs_one : argNat (tileArgs a b c p q r n) 1 = (if 2 ≤ n then b else 0).toNat := by
  match n with
  | 0 | 1 => exact BitVec.toNat_zero.symm
  | n + 2 => rw [if_pos (Nat.le_add_left 2 n)]; rfl

theorem argNat_tileArgs_two : argNat (tileArgs a b c p q r n) 2 = (if 3 ≤ n then c else 0).toNat := by
  match n with
  | 0 | 1 | 2 => exact BitVec.toNat_zero.symm
  | n + 3 => rw [if_pos (Nat.le_add_left 3 n)]; rfl

/-- Row j is fed by row j of every source (Table 7.11). -/
theorem sameRows_tileArgs (h1 : 1 ≤ n) (h3 : n ≤ 3) :
    sameRows (tileArgs a b c p q r n) = if n = 1 then p else if n = 2 then p ||| q else p ||| q ||| r := by
  match n, h1, h3 with
  | 1, _, _ | 2, _, _ | 3, _, _ => simp [tileArgs, sameRows, RegVal.rows]

end

/-! ## Integer types -/

section
variable {ty : ElemTy} (hint : ty.isInt = true)
include hint

theorem fmtOf_of_isInt : fmtOf ty = none := by
  revert hint; cases ty <;> decide

theorem bits_pos_of_isInt : 0 < ty.bits := by
  revert hint; cases ty <;> decide

theorem bits_mul_two_pow_tileDepth : ty.bits * 2 ^ tileDepth ty.bits = 32768 := by
  revert hint; cases ty <;> decide

theorem signed_iff_spec : ty.signed = true ↔ Spec.signed ty := by
  unfold Spec.signed; revert hint; cases ty <;> decide

/-- Element i of a tile of an integer type. -/
theorem extractLsb'_ofNat_tileOf {f : Nat → Nat} {i : Nat} (hi : i < 32768 / ty.bits) :
    (BitVec.ofNat 32768 (tileOf ty.bits f)).extractLsb' (ty.bits * i) ty.bits = BitVec.ofNat ty.bits (f i) := by
  have hn := bits_mul_two_pow_tileDepth hint
  have hw := bits_pos_of_isInt hint
  rw [← hn, Nat.mul_div_cancel_left _ hw] at hi
  exact extractLsb'_ofNat_packFields hw hn hi

end

theorem toSigned_toNat {n : Nat} (hn : 0 < n) (e : BitVec n) : toSigned n e.toNat = e.toInt := by
  obtain ⟨n, rfl⟩ := Nat.exists_eq_add_of_le' hn
  have hhalf : 2 ^ (n + 1 - 1) ≤ e.toNat ↔ ¬ 2 * e.toNat < 2 ^ (n + 1) := by rw [Nat.add_sub_cancel, Nat.pow_succ]; omega
  rw [toSigned, BitVec.toInt_eq_toNat_cond, ite_congr (propext hhalf) (fun _ => rfl) (fun _ => rfl), ite_not, Int.natCast_pow]
  rfl

/-! ## One element -/

section
variable {ty : ElemTy} (hint : ty.isInt = true) {num : BitVec ty.bits → Int} {lo hi : Int}
  (hnum : ∀ e, (Spec.signed ty → num e = e.toInt) ∧ (¬ Spec.signed ty → num e = e.toNat)) (hb : Spec.bounds ty lo hi)

include hint hnum in
theorem intVal_toNat (e : BitVec ty.bits) : intVal ty e.toNat = num e := by
  obtain ⟨hs, hu⟩ := hnum e
  by_cases h : Spec.signed ty
  · rw [intVal, if_pos ((signed_iff_spec hint).mpr h), toSigned_toNat (bits_pos_of_isInt hint), hs h]
  · rw [intVal, if_neg ((not_congr (signed_iff_spec hint)).mpr h), hu h]

include hnum in
theorem ofInt_num (e : BitVec ty.bits) : BitVec.ofInt ty.bits (num e) = e := by
  obtain ⟨hs, hu⟩ := hnum e
  by_cases h : Spec.signed ty
  · rw [hs h, BitVec.ofInt_toInt]
  · rw [hu h, BitVec.ofInt_natCast, BitVec.ofNat_toNat, BitVec.setWidth_eq]

include hnum hb in
theorem num_within_bounds (e : BitVec ty.bits) : lo ≤ num e ∧ num e ≤ hi := by
  obtain ⟨hs, hu⟩ := hnum e
  obtain ⟨hbs, hbu⟩ := hb
  by_cases h : Spec.signed ty
  · obtain ⟨rfl, rfl⟩ := hbs h
    rw [hs h]
    exact ⟨e.le_toInt, Int.le_sub_one_of_lt e.toInt_lt⟩
  · obtain ⟨rfl, rfl⟩ := hbu h
    rw [hu h]
    exact ⟨Int.natCast_nonneg _, Int.le_sub_one_of_lt (by exact_mod_cast e.isLt)⟩

include hnum hb in
/-- An element put back into its own type is itself, with SAT too. -/
theorem ofInt_saturated_num (sat : Bool) (e : BitVec ty.bits) :
    BitVec.ofInt ty.bits (if sat = true then max lo (min hi (num e)) else num e) = e := by
  obtain ⟨hlo, hhi⟩ := num_within_bounds hnum hb e
  rw [Int.min_eq_right hhi, Int.max_eq_right hlo, ite_self, ofInt_num hnum]

include hint hb in
theorem intRange_eq_bounds : intRange ty.bits ty.signed = (lo, hi) := by
  obtain ⟨hbs, hbu⟩ := hb
  by_cases h : Spec.signed ty
  · obtain ⟨rfl, rfl⟩ := hbs h
    rw [intRange, if_pos ((signed_iff_spec hint).mpr h)]
  · obtain ⟨rfl, rfl⟩ := hbu h
    rw [intRange, if_neg ((not_congr (signed_iff_spec hint)).mpr h)]

theorem ofNat_wrapInt (n : Nat) (z : Int) : BitVec.ofNat n (wrapInt n z) = BitVec.ofInt n z := by
  have hpos : (0 : Int) < 2 ^ n := Int.pow_pos (by decide)
  have hlt : (z % 2 ^ n).toNat < 2 ^ n := by
    rw [Int.toNat_lt (Int.emod_nonneg z (Int.ne_of_gt hpos)), Int.natCast_pow]
    exact Int.emod_lt_of_pos z hpos
  apply BitVec.eq_of_toNat_eq
  rw [BitVec.toNat_ofNat, BitVec.toNat_ofInt, wrapInt, Nat.mod_eq_of_lt hlt, Int.natCast_pow]
  rfl

include hint hb in
/-- The exact result is wrapped, or clamped with SAT (R149). -/
theorem ofNat_intPut (sat : Bool) (z : Int) :
    BitVec.ofNat ty.bits (intPut ty sat z) = BitVec.ofInt ty.bits (if sat = true then max lo (min hi z) else z) := by
  rw [intPut, ofNat_wrapInt, intRange_eq_bounds hint hb, clampInt]

include hint hnum hb in
/-- One operation of Table 7.3 gives the exact result, wrapped or clamped; VMIN and VMAX choose an operand, which lies in the type's
range as it is. -/
theorem ofNat_intEl (op : ArithOp) (sat : Bool) (x y z : BitVec ty.bits) {v : Int}
    (hv : Spec.exact op (num x) (num y) (num z) = some v) :
    BitVec.ofNat ty.bits (intEl op ty sat x.toNat y.toNat z.toNat) =
      BitVec.ofInt ty.bits (if sat = true then max lo (min hi v) else v) := by
  have hx := intVal_toNat hint hnum
  have hput := ofNat_intPut hint hb sat
  have hself : ∀ e : BitVec ty.bits, BitVec.ofNat ty.bits e.toNat =
      BitVec.ofInt ty.bits (if sat = true then max lo (min hi (num e)) else num e) := fun e => by
    rw [ofInt_saturated_num hnum hb, BitVec.ofNat_toNat, BitVec.setWidth_eq]
  cases op <;> simp only [Spec.exact, Option.some.injEq, reduceCtorEq] at hv <;> subst hv <;> simp only [intEl, hx]
  case add | sub | mul | fma | fms | neg => exact hput _
  case abs =>
    have habs : ((num x).natAbs : Int) = max (num x) (-num x) := by omega
    rw [habs, hput]
  case min =>
    split
    · next h => rw [Int.min_eq_left h, hself]
    · next h => rw [Int.min_eq_right (Int.le_of_lt (Int.not_le.mp h)), hself]
  case max =>
    split
    · next h => rw [Int.max_eq_right h, hself]
    · next h => rw [Int.max_eq_left (Int.le_of_lt (Int.not_le.mp h)), hself]

end

/-- The exact value depends on the operands that the operation reads. -/
theorem exact_congr {op : ArithOp} {x y y' z z' : Int} (hy : 2 ≤ Spec.arity op → y = y') (hz : 3 ≤ Spec.arity op → z = z') :
    Spec.exact op x y z = Spec.exact op x y' z' := by
  cases op
  case abs | neg | sqrt => rfl
  case fma | fms => rw [hy (by decide), hz (by decide)]
  case add | sub | mul | min | max | div => rw [hy (by decide)]; rfl

theorem one_le_arity_le_three (op : ArithOp) : 1 ≤ Spec.arity op ∧ Spec.arity op ≤ 3 := by
  cases op <;> decide

/-! ## The write of an operation -/

section
variable (ty : ElemTy) (i : Nat) (mask : BitVec 32) (a b c : BitVec 32768) (p q r : BitVec 32)

/-- Element i of a tile. -/
def elementOf (x : BitVec 32768) : BitVec ty.bits := x.extractLsb' (ty.bits * i) ty.bits

/-- An operation of the vector unit on the first n sources writes the rows the mask selects, with x as element i, and poisons a row
if that row of a source is (R144, R165). -/
def WritesElement (fn : VecFn) (n : Nat) (x : BitVec ty.bits) : Prop :=
  ∃ v m, (vecData fn mask (tileArgs a b c p q r n)).1 =
      .tile v m (if n = 1 then p else if n = 2 then p ||| q else p ||| q ||| r) mask ∧
    elementOf ty i v = x ∧ ∀ j, j < 32768 → m.getLsbD j = mask.getLsbD (j / 1024)

variable {ty i mask a b c p q r} (hint : ty.isInt = true) (hi : i < 32768 / ty.bits)
include hint hi

/-- An operation that works element by element, with rows fed by the same rows of its sources. -/
theorem writesElement_of_tileWrite {fn : VecFn} {n : Nat} {f : Nat → Nat} {x : BitVec ty.bits} (h1 : 1 ≤ n) (h3 : n ≤ 3)
    (hfn : (vecData fn mask (tileArgs a b c p q r n)).1 =
      tileWrite mask (tileOf ty.bits f) (sameRows (tileArgs a b c p q r n)))
    (hx : BitVec.ofNat ty.bits (f i) = x) : WritesElement ty i mask a b c p q r fn n x := by
  rw [sameRows_tileArgs a b c p q r n h1 h3] at hfn
  exact ⟨_, _, hfn, (extractLsb'_ofNat_tileOf hint hi).trans hx, fun _ => rowMaskBits_getLsbD mask⟩

/-- An operation of Table 7.3 on an integer type (R148, R149). -/
theorem writesElement_arith {op : ArithOp} {rm : RM} {sat : Bool} {num : BitVec ty.bits → Int} {low high z : Int}
    (hnum : ∀ e, (Spec.signed ty → num e = e.toInt) ∧ (¬ Spec.signed ty → num e = e.toNat)) (hb : Spec.bounds ty low high)
    (hz : Spec.exact op (num (elementOf ty i a)) (num (elementOf ty i b)) (num (elementOf ty i c)) = some z) :
    WritesElement ty i mask a b c p q r (.arith op ty rm sat) (Spec.arity op)
      (.ofInt ty.bits (if sat = true then max low (min high z) else z)) := by
  obtain ⟨h1, h3⟩ := one_le_arity_le_three op
  refine writesElement_of_tileWrite hint hi h1 h3 rfl ?_
  rw [arithEl, fmtOf_of_isInt hint, argNat_tileArgs_zero _ _ _ _ _ _ _ h1, argNat_tileArgs_one, argNat_tileArgs_two]
  simp only [← toNat_extractLsb'_eq_fieldOf]
  refine ofNat_intEl hint hnum hb op sat _ _ _ ((exact_congr ?_ ?_).trans hz)
  · intro h; rw [if_pos h]; rfl
  · intro h; rw [if_pos h]; rfl

/-- A bitwise operation whose value on numbers is that on bit vectors (R152). -/
theorem writesElement_logic {op : LogicOp} {g : BitVec ty.bits → BitVec ty.bits → BitVec ty.bits}
    (hg : ∀ x y : BitVec ty.bits, BitVec.ofNat ty.bits (logicEl op ty.bits x.toNat y.toNat) = g x y) :
    WritesElement ty i mask a b c p q r (.logic op ty) 2 (g (elementOf ty i a) (elementOf ty i b)) := by
  refine writesElement_of_tileWrite hint hi (by decide) (by decide) rfl ?_
  rw [argNat_tileArgs_zero _ _ _ _ _ _ _ (by decide), argNat_tileArgs_one, if_pos (Nat.le_refl 2)]
  simp only [← toNat_extractLsb'_eq_fieldOf]
  exact hg _ _

end

/-- Settles O32: an element of the result is `intEl` or `logicEl` of the elements of the sources. -/
theorem integerElements : Obligations.IntegerElements := by
  unfold Obligations.IntegerElements
  intro ty rm sat mask a b c p q r i hint hi w el sources poison gives
  refine ⟨fun num low high op z hnum hb hz => writesElement_arith hint hi hnum hb hz, ?_, ?_, ?_⟩
  · exact writesElement_logic hint hi (op := .and) (g := (· &&& ·)) fun x y => by simp [logicEl, BitVec.ofNat_and]
  · exact writesElement_logic hint hi (op := .or) (g := (· ||| ·)) fun x y => by simp [logicEl, BitVec.ofNat_or]
  · exact writesElement_logic hint hi (op := .xor) (g := (· ^^^ ·)) fun x y => by simp [logicEl, BitVec.ofNat_xor]

end Sys2Proof.Machine
end

section
namespace Sys2Proof.Machine

/-! # MMA_COMPLETE writes the selected rows of the band (O35)

What an MMA at the head of the queue writes is one `WriteData`: the products of the latched weights, or the poison of the selected rows.
The poison bits of a band are the fields of a sum of powers of two, read back field by field; the rest is what `completeWrite` does to
one accumulator. -/

/-! ## The poison of the rows of a band -/

section
variable {w lo n r j : Nat} {f : Nat → Bool}

/-- Field lo + r, of w bits, is all ones where f r holds. -/
def onesWhere (w lo : Nat) (f : Nat → Bool) (r : Nat) : Nat := (if f r then 2 ^ w - 1 else 0) * 2 ^ (w * (lo + r))

theorem sum_onesWhere_lt_two_pow : ((List.range n).map (onesWhere w lo f)).sum < 2 ^ (w * (lo + n)) := by
  induction n with
  | zero => exact Nat.two_pow_pos _
  | succ n ih =>
    have hones : (if f n then 2 ^ w - 1 else 0) + 1 ≤ 2 ^ w := by
      split
      · exact Nat.le_of_eq (Nat.sub_add_cancel (Nat.two_pow_pos w))
      · exact Nat.two_pow_pos w
    have hpow : 2 ^ (w * (lo + (n + 1))) = 2 ^ w * 2 ^ (w * (lo + n)) := by rw [← Nat.add_assoc, Nat.mul_succ, Nat.pow_add, Nat.mul_comm]
    rw [List.range_succ, List.map_append, List.sum_append, List.map_singleton, List.sum_singleton, hpow]
    calc ((List.range n).map (onesWhere w lo f)).sum + onesWhere w lo f n
        < 2 ^ (w * (lo + n)) + onesWhere w lo f n := Nat.add_lt_add_right ih _
      _ = ((if f n then 2 ^ w - 1 else 0) + 1) * 2 ^ (w * (lo + n)) := by rw [onesWhere, Nat.succ_mul, Nat.add_comm]
      _ ≤ 2 ^ w * 2 ^ (w * (lo + n)) := Nat.mul_le_mul_right _ hones

theorem testBit_sum_onesWhere (hr : r < n) (hj : j < w) :
    ((List.range n).map (onesWhere w lo f)).sum.testBit (w * (lo + r) + j) = f r := by
  induction n with
  | zero => exact absurd hr (Nat.not_lt_zero r)
  | succ n ih =>
    rw [List.range_succ, List.map_append, List.sum_append, List.map_singleton, List.sum_singleton, Nat.add_comm, onesWhere, Nat.mul_comm,
      Nat.testBit_two_pow_mul_add _ sum_onesWhere_lt_two_pow]
    rcases Nat.lt_succ_iff_lt_or_eq.mp hr with hlt | rfl
    · have hbelow : w * (lo + r) + j < w * (lo + n) :=
        calc w * (lo + r) + j < w * (lo + r + 1) := Nat.add_lt_add_left hj _
          _ ≤ w * (lo + n) := Nat.mul_le_mul_left w (by omega)
      rw [if_pos hbelow, ih hlt]
    · rw [if_neg (Nat.not_lt.mpr (Nat.le_add_right _ _)), Nat.add_sub_cancel_left, testBit_ones_or_zero _ hj]

end

/-- Poison bits of one row of the view (R167). -/
def poisonWidth (wide : Bool) : Nat := if wide then 2 else 1

theorem bandPoisonBits_eq (wide : Bool) (band : Nat) (f : Nat → Bool) : bandPoisonBits wide band f =
    BitVec.ofNat 128 ((List.range 32).map (onesWhere (poisonWidth wide) (32 * band) f)).sum := by
  unfold bandPoisonBits
  congr 3
  funext r
  cases hr : f r <;> cases wide <;> simp [onesWhere, poisonWidth, hr]

/-- A poison bit of row r of a band. -/
theorem bandPoisonBits_getLsbD {wide : Bool} {band r j : Nat} (f : Nat → Bool) (hr : r < 32) (hj : j < poisonWidth wide)
    (hlt : poisonWidth wide * (32 * band + r) + j < 128) :
    (bandPoisonBits wide band f).getLsbD (poisonWidth wide * (32 * band + r) + j) = f r := by
  rw [bandPoisonBits_eq, BitVec.getLsbD_ofNat, testBit_sum_onesWhere hr hj, decide_eq_true hlt, Bool.true_and]

theorem mergeBits_self_getLsbD {n i : Nat} (old : BitVec n) {m : BitVec n} (h : m.getLsbD i = true) :
    (mergeBits old m m).getLsbD i = true := by
  simp [mergeBits, h]

theorem mergeBits_zero {n : Nat} (old : BitVec n) : mergeBits old 0 0 = old := by simp [mergeBits]

/-- The poison bits of the rows an MMA selects. -/
def MmaOp.rowBits (m : MmaOp) : BitVec 128 := bandPoisonBits (m.ty == .fp64) m.band.toNat fun r => m.mask.getLsbD r

/-- A poison mask covers the rows an MMA selects: one bit for each row of 128 elements, two for each of FP64. -/
def MmaOp.Covers (m : MmaOp) (p : BitVec 128) : Prop :=
  ∀ r : Fin 32, m.mask.getLsbD r.val = true →
    if m.ty = .fp64 then m.band.toNat ≤ 1 → p.getLsbD (2 * (32 * m.band.toNat + r.val)) = true ∧
      p.getLsbD (2 * (32 * m.band.toNat + r.val) + 1) = true
    else p.getLsbD (32 * m.band.toNat + r.val) = true

theorem MmaOp.covers_rowBits (m : MmaOp) : m.Covers m.rowBits := by
  intro r hr
  have hbit : ∀ j, j < poisonWidth (m.ty == .fp64) → poisonWidth (m.ty == .fp64) * (32 * m.band.toNat + r.val) + j < 128 →
      m.rowBits.getLsbD (poisonWidth (m.ty == .fp64) * (32 * m.band.toNat + r.val) + j) = true :=
    fun j hj hlt => (bandPoisonBits_getLsbD (fun r => m.mask.getLsbD r) r.isLt hj hlt).trans hr
  split
  · next hty =>
    rw [hty] at hbit
    intro hband
    exact ⟨hbit 0 (by decide) (by change 2 * _ + 0 < 128; omega), hbit 1 (by decide) (by change 2 * _ + 1 < 128; omega)⟩
  · next hty =>
    rw [beq_eq_false_iff_ne.mpr hty] at hbit
    have hrow := hbit 0 (by decide) (by change 1 * _ + 0 < 128; omega)
    rwa [poisonWidth, if_neg Bool.false_ne_true, Nat.one_mul, Nat.add_zero] at hrow

/-- Poison bits set under their own mask stand after the write. -/
theorem MmaOp.Covers.mergeBits {m : MmaOp} {p : BitVec 128} (h : m.Covers p) (old : BitVec 128) : m.Covers (mergeBits old p p) := by
  intro r hr
  have hrow := h r hr
  split
  · next hty =>
    rw [if_pos hty] at hrow
    exact fun hband => (hrow hband).imp (mergeBits_self_getLsbD old) (mergeBits_self_getLsbD old)
  · next hty =>
    rw [if_neg hty] at hrow
    exact mergeBits_self_getLsbD old hrow

/-- Where the latch is empty the write keeps the values and poisons the selected rows (R179). -/
theorem mmaPoison_none (m : MmaOp) : mmaPoison m none = .acc 0 0 m.rowBits m.rowBits := by
  simp [mmaPoison, bandWrite, MmaOp.rowBits]

/-- After a mismatch the write takes free values and poisons the selected rows (R179). -/
theorem mmaPoison_some (m : MmaOp) (v : BitVec 524288) : ∃ k, mmaPoison m (some v) = .acc v k m.rowBits m.rowBits := by
  simp [mmaPoison, bandWrite, MmaOp.rowBits]

/-! ## The core -/

@[simp] theorem State.core_errorRecord (s : State) (kind src unit part count addr taskid pc syn : Nat) (c : CoreId) :
    (s.errorRecord kind src unit part count addr taskid pc syn).core c = s.core c := by
  unfold State.errorRecord
  dsimp only
  split <;> rfl

@[simp] theorem State.core_coreRecord (s : State) (kind : Nat) (c d : CoreId) (addr : Nat) (pc : VAddr) (syn : Nat) :
    (s.coreRecord kind c addr pc syn).core d = s.core d := State.core_errorRecord ..

@[simp] theorem State.core_sketch (s : State) (ev : BitVec 8) (c d : CoreId) (pc : VAddr) (w : Nat) :
    (s.sketch ev c pc w).core d = s.core d := by
  unfold State.sketch
  split <;> rfl

/-- A mismatch leaves its mark on the core, and nothing else there (R402, R405). -/
theorem State.core_mismatch_self (s : State) (c : CoreId) (u : Checker) (pc : VAddr) :
    ∃ t, (s.mismatch c u pc).core c = (s.core c).mismatchAt t := by
  refine ⟨(s.coreRecord 4 c 0 pc u.code.toNat).tick, ?_⟩
  simp only [State.mismatch, State.core_sketch, State.core_modCore_self, State.core_coreRecord]

/-- A completed write of an accumulator: its bits and its poison under their masks, and its count (R20). -/
theorem Core.accs_completeWrite_acc (k : Core) (r : AReg) (rdr : BitVec 3) (v m : BitVec 524288) (pv pm : BitVec 128) :
    (k.completeWrite (.acc r) rdr (.acc v m pv pm)).accs[r.toNat] =
      ⟨mergeBits k.accs[r.toNat].val v m, k.accs[r.toNat].cnt.complete rdr, mergeBits k.accs[r.toNat].poison pv pm⟩ := by
  simp [Core.completeWrite, Core.putData, Core.setCnt, Core.cnt]

/-- A write with the poison of the rows an MMA selects leaves them poisoned. -/
theorem MmaOp.covers_completeWrite (m : MmaOp) (k : Core) (v vm : BitVec 524288) :
    m.Covers (k.completeWrite (.acc m.d) m.rdr (.acc v vm m.rowBits m.rowBits)).accs[m.d.toNat].poison := by
  rw [Core.accs_completeWrite_acc]
  exact m.covers_rowBits.mergeBits _

theorem Count.complete_c (n : Count) (rdr : BitVec 3) : (n.complete rdr).c = n.c + 1 := by
  unfold Count.complete
  split <;> rfl

/-! ## MMA_COMPLETE -/

theorem exec_mmaComplete (c : CoreId) (mismatch : Bool) (s : State) :
    exec (.mmaComplete c mismatch) s = execMmaComplete c mismatch s := rfl

section
variable {s : State} {c : CoreId} {m : MmaOp} {rest : List AQEntry}
  (hg : (s.core c).gated = false) (hq : (s.core c).aq = .mma m :: rest)
include hg hq

theorem exec_mmaComplete_latched {l : Latch} (hl : (s.core c).latch = some l) : exec (.mmaComplete c false) s =
    .next (s.modCore c fun k => { k with aq := rest }.completeWrite (.acc m.d) m.rdr (mmaWrite m l)) := by
  simp [exec_mmaComplete, execMmaComplete, State.onCore, Core.arrayHead, Core.arrayPop, State.modCore, hg, hq, hl]

theorem exec_mmaComplete_empty (hl : (s.core c).latch = none) : exec (.mmaComplete c false) s =
    .next (s.modCore c fun k => { k with aq := rest }.completeWrite (.acc m.d) m.rdr (mmaPoison m none)) := by
  simp [exec_mmaComplete, execMmaComplete, State.onCore, Core.arrayHead, Core.arrayPop, State.modCore, hg, hq, hl]

theorem exec_mmaComplete_mismatch : exec (.mmaComplete c true) s =
    .next ((s.useFresh.mismatch c .array m.pc).modCore c fun k =>
      { k with aq := k.aq.drop 1, npck := true }.completeWrite (.acc m.d) m.rdr (mmaPoison m (some (Config.freeAcc s.fresh)))) := by
  simp [exec_mmaComplete, execMmaComplete, State.onCore, Core.arrayHead, Core.arrayPop, hg, hq]

end

/-- Settles O35: each case is one completed write of the accumulator, and a poisoning one covers the selected rows. -/
theorem mmaCompletes : Obligations.MmaCompletes := by
  unfold Obligations.MmaCompletes
  intro s c m rest hg hq ends poisons
  have hpoisons : ∀ t : State, m.Covers (t.core c).accs[m.d.toNat].poison → poisons t := fun _ h => h
  refine ⟨fun l hl => exec_mmaComplete_latched hg hq hl, fun hl => ⟨_, exec_mmaComplete_empty hg hq hl, ?_⟩,
    _, exec_mmaComplete_mismatch hg hq, ?_⟩
  · rw [mmaPoison_none]
    refine ⟨?_, hpoisons _ ?_⟩ <;> rw [State.core_modCore_self]
    · rw [Core.accs_completeWrite_acc, mergeBits_zero]
    · exact m.covers_completeWrite _ 0 0
  · obtain ⟨t, hcore⟩ := State.core_mismatch_self s.useFresh c .array m.pc
    obtain ⟨vm, hdata⟩ := mmaPoison_some m (Config.freeAcc s.fresh)
    rw [hdata]
    refine ⟨?_, ?_, ?_, hpoisons _ ?_⟩ <;> rw [State.core_modCore_self, hcore]
    · rw [Core.completeWrite_npck]
    · rw [Core.completeWrite_latch]; rfl
    · rw [Core.accs_completeWrite_acc, Count.complete_c]; rfl
    · exact m.covers_completeWrite _ _ vm

end Sys2Proof.Machine
end

section
namespace Sys2Proof.Machine

/-! # An element of an 8-bit integer product is the sum of 128 products modulo 2^32 (O36)

A band is packed row by row and a row element by element, so element (r, c) of the result is `dotElem` of the fields it reads. On 8-bit
integers every scaled product is the exact product of two signed bytes, and putting the sum into 32 bits is a ring homomorphism. -/

/-! ## Fields of packed and of nested numbers -/

section
variable {w d i n : Nat}

theorem fieldOf_lt_two_pow (v : Nat) : fieldOf w v i < 2 ^ w := Nat.mod_lt _ (Nat.two_pow_pos w)

/-- Field i of a packed number is the low bits of what was packed there. -/
theorem fieldOf_packFields {f : Nat → Nat} (hw : 0 < w) (hi : i < 2 ^ d) : fieldOf w (packFields w f d 0) i = f i % 2 ^ w := by
  have hfield := congrArg BitVec.toNat (extractLsb'_ofNat_packFields (f := f) hw rfl hi)
  rwa [toNat_extractLsb'_eq_fieldOf, BitVec.toNat_ofNat, Nat.mod_eq_of_lt packFields_lt_two_pow, BitVec.toNat_ofNat] at hfield

/-- Field k of field i, each of which has n fields, is field n·i + k. -/
theorem fieldOf_fieldOf {k : Nat} (v : Nat) (hk : k < n) : fieldOf w (fieldOf (w * n) v i) k = fieldOf w v (n * i + k) := by
  refine Nat.eq_of_testBit_eq fun j => ?_
  simp only [fieldOf, Nat.testBit_mod_two_pow, Nat.testBit_div_two_pow]
  by_cases hj : j < w
  · have hinside : j + w * k < w * n :=
      calc j + w * k < w + w * k := Nat.add_lt_add_right hj _
        _ = w * (k + 1) := by rw [Nat.mul_succ, Nat.add_comm]
        _ ≤ w * n := Nat.mul_le_mul_left w hk
    simp [hj, hinside, Nat.mul_add, Nat.mul_assoc, Nat.add_assoc, Nat.add_comm (w * k)]
  · simp [hj]

end

theorem zipIdx_map_range {α β : Type} (n : Nat) (f : Nat → α) (g : α × Nat → β) :
    ((List.range n).map f).zipIdx.map g = (List.range n).map fun k => g (f k, k) :=
  List.ext_getElem (by simp) (by simp)

/-! ## Integers modulo 2^n -/

theorem ofNat_mod_two_pow (n v : Nat) : BitVec.ofNat n (v % 2 ^ n) = BitVec.ofNat n v := by
  apply BitVec.eq_of_toNat_eq
  rw [BitVec.toNat_ofNat, BitVec.toNat_ofNat, Nat.mod_mod]

theorem ofInt_sum (n : Nat) (zs : List Int) : BitVec.ofInt n zs.sum = (zs.map (BitVec.ofInt n)).sum := by
  induction zs with
  | nil => rfl
  | cons z zs ih => rw [List.sum_cons, BitVec.ofInt_add, ih, List.map_cons, List.sum_cons]

/-! ## Products of the array -/

/-- The sign and the magnitude that `intFV` keeps. -/
theorem signOf_mul_natAbs (v : Int) : (if decide (v < 0) then -1 else 1) * (v.natAbs : Int) = v := by
  by_cases h : v < 0
  · simp only [h, decide_true, if_true]; omega
  · simp only [h, decide_false, Bool.false_eq_true, if_false]; omega

/-- Two integers have their product as scaled product, where no scale applies (R70). -/
theorem toInteger_scaledProduct (a b : Int) : (scaledProduct (intFV a) (intFV b) 127 127).toInteger = a * b := by
  have hsign : ∀ x y : Bool, (if x ^^ y then -1 else 1 : Int) = (if x then -1 else 1) * (if y then -1 else 1) := by decide
  calc (scaledProduct (intFV a) (intFV b) 127 127).toInteger
      = (if decide (a < 0) ^^ decide (b < 0) then -1 else 1) * (a.natAbs * b.natAbs : Int) := by
        simp [scaledProduct, FV.mul, FV.scale, intFV, FV.toInteger]
    _ = ((if decide (a < 0) then -1 else 1) * (a.natAbs : Int)) * ((if decide (b < 0) then -1 else 1) * (b.natAbs : Int)) := by
        rw [hsign]; ac_rfl
    _ = a * b := by rw [signOf_mul_natAbs, signOf_mul_natAbs]

/-- An 8-bit element of a tile of activations (R177). -/
theorem actVal_i8 (x : BitVec 32768) (i : Nat) : actVal .i8 x.toNat i = intFV (x.extractLsb' (8 * i) 8).toInt := by
  rw [← toSigned_toNat (by decide), toNat_extractLsb'_eq_fieldOf]
  rfl

/-- Weight k of column c, latched as INT8 (R171). -/
theorem weightVal_int8 {l : Latch} (hl : l.fmt = .int8) (c : Nat) {k : Nat} (hk : k < 128) :
    weightVal l.format (l.block c) k = intFV (l.w.extractLsb' (8 * (512 * c + k)) 8).toInt := by
  have hbyte : byteOf (l.block c) k = (l.w.extractLsb' (8 * (512 * c + k)) 8).toNat := by
    rw [toNat_extractLsb'_eq_fieldOf]
    exact fieldOf_fieldOf (w := 8) (n := 512) _ (Nat.lt_trans hk (by decide))
  rw [← toSigned_toNat (by decide), ← hbyte, weightVal, Latch.format, hl]

theorem getD_latchCols {p : Pairing} {l : Latch} {ksel c k : Nat} (hc : c < 128) (hk : k < p.k) :
    ((latchCols p l ksel).getD c #[]).getD k .nan = weightVal l.format (l.block c) (ksel * p.k + k) := by
  simp [latchCols, hc, hk]

/-- The integer sum modulo 2^32 (R177). -/
theorem ofNat_dotElem_i8 {acc : Nat} (hacc : acc < 2 ^ 32) (products : List FV) :
    BitVec.ofNat 32 (dotElem .i8 acc products) = BitVec.ofNat 32 acc + (products.map fun p => BitVec.ofInt 32 p.toInteger).sum := by
  have hold : toSigned 32 acc = (BitVec.ofNat 32 acc).toInt := by
    rw [← toSigned_toNat (by decide), BitVec.toNat_ofNat, Nat.mod_eq_of_lt hacc]
  calc BitVec.ofNat 32 (dotElem .i8 acc products)
      = BitVec.ofInt 32 (toSigned 32 acc + (products.map FV.toInteger).sum) := ofNat_wrapInt ..
    _ = BitVec.ofNat 32 acc + (products.map fun p => BitVec.ofInt 32 p.toInteger).sum := by
      rw [BitVec.ofInt_add, hold, BitVec.ofInt_toInt, ofInt_sum, List.map_map]
      rfl

section
variable {l : Latch} (hl : l.fmt = .int8) (x : BitVec 32768) (r : Nat) {c : Nat} (hc : c < 128)
include hl hc

/-- Element c of row r of an 8-bit integer band. -/
theorem ofNat_fieldOf_bandRow (sa acc : Nat) :
    BitVec.ofNat 32 (fieldOf 32 (bandRow .i8 ⟨false, 128, 0⟩ l (latchCols ⟨false, 128, 0⟩ l 0) x.toNat r sa acc) c) =
      BitVec.ofNat 32 (fieldOf 32 acc c) + ((List.range 128).map fun k =>
        (x.extractLsb' (8 * (128 * r + k)) 8).signExtend 32 * (l.w.extractLsb' (8 * (512 * c + k)) 8).signExtend 32).sum := by
  have hscale : (l.fmt == .nf) = false := by rw [hl]; rfl
  simp only [bandRow, hscale, Bool.false_eq_true, if_false]
  rw [fieldOf_packFields (by decide) hc, ofNat_mod_two_pow, ofNat_dotElem_i8 (fieldOf_lt_two_pow acc), zipIdx_map_range,
    List.map_map]
  congr 2
  refine List.map_congr_left fun k hk => ?_
  have hk : k < 128 := List.mem_range.mp hk
  rw [Function.comp_apply, getD_latchCols hc hk, weightVal_int8 hl c (by omega), Nat.mul_comm r, actVal_i8, toInteger_scaledProduct,
    BitVec.ofInt_mul, Nat.zero_mul, Nat.zero_add]
  rfl

end

section
variable {t : ElemTy} {p : Pairing} {l : Latch} {ksel : Nat} {mask : BitVec 32} {x r acc : Nat}

theorem viewRow_pos (wide : Bool) : 0 < viewRow wide := by cases wide <;> decide

theorem bandRow_lt_two_pow {cols : Array (Array FV)} {sa : Nat} : bandRow t p l cols x r sa acc < 2 ^ viewRow p.wide := by
  have hbits : (if p.wide then 64 else 32) * 2 ^ 7 = viewRow p.wide := by cases p.wide <;> rfl
  rw [← hbits]
  exact packFields_lt_two_pow

/-- Row r of a band without activation scales is computed from that of the accumulator where the mask has it, and kept elsewhere. -/
theorem fieldOf_bandMac (hr : r < 32) : fieldOf (viewRow p.wide) (bandMac t p l ksel mask x none acc) r =
    if mask.getLsbD r then bandRow t p l (latchCols p l ksel) x r 127 (fieldOf (viewRow p.wide) acc r)
    else fieldOf (viewRow p.wide) acc r := by
  rw [bandMac, fieldOf_packFields (viewRow_pos _) hr]
  apply Nat.mod_eq_of_lt
  split
  · exact bandRow_lt_two_pow
  · exact fieldOf_lt_two_pow acc

end

/-- Settles O36: the element is `dotElem` of what the band held and of 128 exact products. -/
theorem integerMmaElement : Obligations.IntegerMmaElement := by
  unfold Obligations.IntegerMmaElement
  intro l x mask band r c hl hr hc out el act weight
  have hrow := fieldOf_bandMac (t := .i8) (p := ⟨false, 128, 0⟩) (l := l) (ksel := 0) (mask := mask) (x := x.toNat) (acc := band) hr
  refine ⟨fun hm => ?_, fun hm => ?_⟩
  · rw [if_pos hm] at hrow
    exact (congrArg (fun v => BitVec.ofNat 32 (fieldOf 32 v c)) hrow).trans (ofNat_fieldOf_bandRow hl x r hc 127 _)
  · rw [if_neg (ne_true_of_eq_false hm)] at hrow
    exact congrArg (fun v => BitVec.ofNat 32 (fieldOf 32 v c)) hrow

end Sys2Proof.Machine
end

section
namespace Sys2Proof.Machine

/-! # FENCE and BAR (O43)

Performing accesses changes memory, ports and the buffers of loads, and takes stores off the front of a stream's queue;
`State.Performs` says so of the stream that performs them, and the fences follow from it. A stream that has nothing to perform is
left as it is. Every core that leaves a barrier does so by `Core.leaveBar`, which a second time changes nothing. -/

/-! ## Performing the accesses of a stream (Machine/Stores) -/

/-- From s to t stream x of core c has performed its first n stores, and nothing else of the stream has changed. -/
structure State.Performs (c : CoreId) (x : StreamId) (n : Nat) (s t : State) : Prop where
  cur : t.cur = s.cur
  stream : t.stream c x = { s.stream c x with stores := (s.stream c x).stores.drop n }

/-- The bytes that a load has read. -/
def Core.buffer (k : Core) (r : LoadRec) (v : BitVec 32768 × BitVec 32) : Core :=
  { k with loads := k.loads.map fun q => if q.seq == r.seq && q.buf.isNone then { q with buf := some v } else q }

theorem Core.stream_buffer (k : Core) (r : LoadRec) (v : BitVec 32768 × BitVec 32) (x : StreamId) :
    (k.buffer r v).stream x = k.stream x := by cases x <;> rfl

section
variable {c : CoreId} {x : StreamId} {m n : Nat} {s t u : State}

theorem State.Performs.refl (s : State) : State.Performs c x 0 s s := ⟨rfl, rfl⟩

theorem State.Performs.trans (h : State.Performs c x n s t) (h' : State.Performs c x m t u) :
    State.Performs c x (n + m) s u :=
  ⟨h'.cur.trans h.cur, by rw [h'.stream, h.stream, List.drop_drop]⟩

theorem State.Performs.stores (h : State.Performs c x n s t) : (t.stream c x).stores = (s.stream c x).stores.drop n := by
  rw [h.stream]

theorem State.Performs.nextPc (h : State.Performs s.cur.1 s.cur.2 n s t) : t.nextPc = s.nextPc := by
  simp only [State.nextPc, State.curStream, h.cur, h.stream]

/-- A change that keeps the cores performs no store of a stream. -/
theorem State.Performs.of_cores (hcur : t.cur = s.cur) (hcores : t.cores = s.cores) : State.Performs c x 0 s t :=
  ⟨hcur, by simp only [State.stream, State.core, hcores, List.drop_zero]⟩

/-- Neither does a change of the core that keeps its streams. -/
theorem State.Performs.of_modCore {f : Core → Core} (h : ∀ k, (f k).stream x = k.stream x) :
    State.Performs c x 0 s (s.modCore c f) :=
  ⟨rfl, by simp only [State.stream, State.core_modCore_self, h, List.drop_zero]⟩

theorem State.Performs.useFresh (h : State.Performs c x n s t) : State.Performs c x n s t.useFresh := ⟨h.cur, h.stream⟩

theorem State.Performs.foldl {α : Type} {f : State → α → State} (h : ∀ s a, State.Performs c x 0 s (f s a)) (as : List α) :
    State.Performs c x 0 s (as.foldl f s) :=
  as.foldlRecOn f (.refl s) fun _ ht a _ => ht.trans (h _ a)

theorem State.performs_writeLoc (s : State) (p : PartId) (l : Loc) (bs : List Byte) (poison : Bool) :
    State.Performs c x 0 s (s.writeLoc c p l bs poison) := by
  unfold State.writeLoc
  split
  · exact .of_modCore fun k => by cases x <;> rfl
  · obtain ⟨g, e⟩ := s.writePhys_rest p _ bs poison
    rw [e]
    exact .of_cores rfl rfl
  · exact .refl s

theorem State.performs_portDoor (s : State) (i : Fin 65) : State.Performs c x 0 s (s.portDoor i) := by
  unfold State.portDoor
  dsimp only
  split
  · exact .of_cores rfl rfl
  · exact .of_cores rfl rfl

theorem State.performs_portWrite (s : State) (i off : Nat) (v : Word) : State.Performs c x 0 s (s.portWrite i off v) := by
  unfold State.portWrite
  split
  · exact .refl s
  · split
    · exact .of_cores rfl rfl
    · split
      · exact s.performs_portDoor _
      · exact .refl s

theorem State.performs_storeUnit (s : State) (v : MemUnit) (ws : List (Nat × List Byte × Bool)) :
    State.Performs c x 0 s (s.storeUnit c v ws) := by
  unfold State.storeUnit
  split
  · split
    · exact s.performs_portWrite ..
    · exact .refl s
  · exact .foldl (fun s _ => s.performs_writeLoc ..) ws

theorem State.performs_storeAll (s : State) (r : StoreRec) : State.Performs c x 0 s (s.storeAll c r) :=
  .foldl (fun s _ => s.performs_storeUnit ..) _

theorem State.readOne_eq (s : State) (r : LoadRec) :
    s.readOne c r = (s.modCore c fun k => k.buffer r (s.readLoad c r)).useFresh := rfl

theorem State.performs_readOne (s : State) (r : LoadRec) : State.Performs c x 0 s (s.readOne c r) := by
  rw [State.readOne_eq]
  exact .useFresh (.of_modCore fun k => k.stream_buffer r _ x)

theorem State.performs_readBefore (s : State) (seq : Nat) : State.Performs c x 0 s (s.readBefore c seq) :=
  .foldl (fun s r => s.performs_readOne r) _

theorem State.performs_popStore (s : State) {rest : List StoreRec} (h : (s.stream c x).stores.drop 1 = rest) :
    State.Performs c x 1 s (s.modStream c x fun v => { v with stores := rest }) :=
  ⟨rfl, by rw [State.stream_modStream_self, h]⟩

theorem State.performs_storeOne (s : State) : State.Performs c x 1 s (s.storeOne c x) := by
  unfold State.storeOne
  split
  · next h => exact ⟨rfl, by rw [h, List.drop_nil, ← h]⟩
  · next r rest h =>
    have hread : State.Performs c x 0 s (if x == .load then s.readBefore c r.seq else s) := by
      split
      · exact s.performs_readBefore _
      · exact .refl s
    refine .trans (.trans hread (State.performs_popStore _ ?_)) (State.performs_storeAll _ r)
    rw [hread.stores, h]
    rfl

theorem State.performs_storeMany (n : Nat) (s : State) : State.Performs c x n s (s.storeMany c x n) := by
  induction n generalizing s with
  | zero => exact .refl s
  | succ n ih =>
    have h := s.performs_storeOne.trans (ih (s.storeOne c x))
    rwa [Nat.add_comm] at h

theorem State.performs_flush (s : State) : State.Performs c x (s.stream c x).stores.length s (s.flush c x) :=
  s.performs_storeMany _

/-- LOAD's loads read their bytes once some of its stores have been performed. -/
theorem State.performs_captureLoads (s : State) : ∃ n, State.Performs c .load n s (s.captureLoads c) :=
  List.foldlRecOn (motive := fun t => ∃ n, State.Performs c .load n s t) _ _ ⟨0, .refl s⟩ fun t ⟨_, ht⟩ r _ =>
    ⟨_, ht.trans (.trans (t.performs_storeMany _) (State.performs_readOne _ r))⟩

theorem State.performs_releaseOn (s : State) : ∃ n, State.Performs c x n s (s.releaseOn c x) ∧
    (s.stream c x).stores.length ≤ n := by
  unfold State.releaseOn
  split
  · next hx =>
    obtain rfl := eq_of_beq hx
    obtain ⟨n, hn⟩ := (s.flush c .load).performs_captureLoads (c := c)
    exact ⟨_, s.performs_flush.trans hn, Nat.le_add_right ..⟩
  · exact ⟨_, s.performs_flush, Nat.le_refl _⟩

/-- After a release no store of the stream is left. -/
theorem State.stores_releaseOn (s : State) : ((s.releaseOn c x).stream c x).stores = [] := by
  obtain ⟨n, hn, hle⟩ := s.performs_releaseOn (c := c) (x := x)
  rw [hn.stores, List.drop_eq_nil_of_le hle]

/-! ## A stream with nothing to perform -/

theorem State.flush_of_stores_nil (h : (s.stream c x).stores = []) : s.flush c x = s := by
  rw [State.flush, h]
  rfl

theorem State.captureLoads_of_read (h : ∀ r ∈ (s.core c).loads, r.buf.isSome = true) : s.captureLoads c = s := by
  have hunread : (s.core c).unread (s.core c).seq = [] :=
    List.filter_eq_nil_iff.mpr fun r hr => by simp [Option.isSome_iff_ne_none.mp (h r hr)]
  rw [State.captureLoads, State.readLoads, hunread, List.foldl_nil]

theorem State.releaseOn_of_quietOn (h : Spec.quietOn s c x) : s.releaseOn c x = s := by
  obtain ⟨hstores, hloads⟩ := h
  rw [State.releaseOn, State.flush_of_stores_nil hstores]
  split
  · next hx => exact State.captureLoads_of_read (hloads (eq_of_beq hx))
  · rfl

end

/-! ## FENCE (R235) -/

/-- What a FENCE, guarded true, performs before the stream goes on. -/
def State.fenceOn (s : State) (o : OrdScp) : State :=
  if releases o then s.releaseOn s.cur.1 s.cur.2 else if s.cur.2 == .load then s.captureLoads s.cur.1 else s

theorem exec_fence {s : State} {g : Guard} (hg : s.guard g = true) (o : OrdScp) :
    exec (.fence g o) s = .next (s.fenceOn o).adv := by
  change execFence g o s = _
  simp only [execFence, State.fenceOn, hg, Bool.not_true, Bool.false_eq_true, if_false, apply_ite State.adv]

theorem State.performs_fenceOn (s : State) (o : OrdScp) : ∃ n, State.Performs s.cur.1 s.cur.2 n s (s.fenceOn o) := by
  unfold State.fenceOn
  split
  · obtain ⟨n, hn, -⟩ := s.performs_releaseOn
    exact ⟨n, hn⟩
  · split
    · next hx =>
      rw [eq_of_beq hx]
      exact s.performs_captureLoads
    · exact ⟨0, .refl s⟩

theorem State.fenceOn_of_quiet {s : State} (h : Spec.quiet s) (o : OrdScp) : s.fenceOn o = s := by
  unfold State.fenceOn
  split
  · exact State.releaseOn_of_quietOn h
  · split
    · next hx => exact State.captureLoads_of_read (h.2 (eq_of_beq hx))
    · rfl

theorem State.pc_adv (s : State) : s.adv.pc = s.nextPc := State.pc_goto ..

theorem State.stores_adv (s : State) : s.adv.curStream.stores = s.curStream.stores := by
  simp [State.adv, State.goto, State.curStream]

/-! ## Byte memory under a change of cores -/

theorem State.memSame.trans {s t u : State} (h : s.memSame t) (h' : t.memSame u) : s.memSame u :=
  ⟨fun p a => (h'.1 p a).trans (h.1 p a), fun c a => (h'.2 c a).trans (h.2 c a)⟩

theorem State.memSame_of_cisterns {s : State} {v : Vector Core 208} (h : ∀ c : CoreId, v[c].cistern = s.cores[c].cistern) :
    s.memSame { s with cores := v } :=
  ⟨fun _ _ => rfl, fun c a => congrArg (fun m : PoisonMem => m.bytes.read a) (h c)⟩

theorem State.memSame_modCore (s : State) (c : CoreId) {f : Core → Core} (h : (f (s.core c)).cistern = (s.core c).cistern) :
    s.memSame (s.modCore c f) := by
  refine State.memSame_of_cisterns fun d => ?_
  change ((s.setCore c (f (s.core c))).core d).cistern = (s.core d).cistern
  rw [State.core_setCore]
  split
  · next e => rw [e, h]
  · rfl

theorem State.memSame_modStream (s : State) (c : CoreId) (x : StreamId) (f : Stream → Stream) :
    s.memSame (s.modStream c x f) :=
  s.memSame_modCore c (Core.modStream_cistern ..)

theorem State.memSame_adv (s : State) : s.memSame s.adv := s.memSame_modStream ..

/-! ## BAR (R236) -/

/-- An arrival changes the count of arrivals and nothing else. -/
theorem Core.arriveBar_rest (k : Core) (b : BarScope) : ∃ arr, k.arriveBar b = { k with barArr := arr } := by
  unfold Core.arriveBar
  dsimp only
  split
  · exact ⟨_, rfl⟩
  · exact ⟨k.barArr, rfl⟩

@[simp] theorem Core.barOrd_arriveBar (k : Core) (b : BarScope) : (k.arriveBar b).barOrd = k.barOrd := by
  obtain ⟨_, e⟩ := k.arriveBar_rest b
  rw [e]

@[simp] theorem Core.cistern_arriveBar (k : Core) (b : BarScope) : (k.arriveBar b).cistern = k.cistern := by
  obtain ⟨_, e⟩ := k.arriveBar_rest b
  rw [e]

@[simp] theorem Core.stream_arriveBar (k : Core) (b : BarScope) (x : StreamId) : (k.arriveBar b).stream x = k.stream x := by
  obtain ⟨_, e⟩ := k.arriveBar_rest b
  rw [e]
  cases x <;> rfl

/-- CTRL arrives at the barrier that comes next. -/
theorem Core.barArr_arriveBar {k : Core} {b : BarScope} (h : k.barArr[barIdx b] = k.barOrd[barIdx b]) :
    (k.arriveBar b).barArr = k.barArr.set (barIdx b) (k.barOrd[barIdx b] + 1) := by
  have hi := (barIdx b).isLt
  have hord : k.barOrd[(barIdx b).val]! = k.barOrd[barIdx b] := getElem!_pos k.barOrd (barIdx b).val hi
  have hnext : k.barArr[(barIdx b).val]! = k.barOrd[barIdx b] := (getElem!_pos k.barArr (barIdx b).val hi).trans h
  have hset (v : Nat) : k.barArr.setIfInBounds (barIdx b).val v = k.barArr.set (barIdx b) v :=
    Vector.toArray_inj.mp (dif_pos (k.barArr.size_toArray.symm ▸ hi))
  simp only [Core.arriveBar, hord, hnext, hset, BEq.rfl, if_true]

/-- A core barrier has been met, and the core counts it. -/
def Core.countBar (k : Core) (b : BarScope) (n : Nat) : Core := { k with barOrd := k.barOrd.set (barIdx b) (n + 1) }

@[simp] theorem Core.barOrd_countBar (k : Core) (b : BarScope) (n : Nat) :
    (k.countBar b n).barOrd = k.barOrd.set (barIdx b) (n + 1) := rfl

@[simp] theorem Core.barArr_countBar (k : Core) (b : BarScope) (n : Nat) : (k.countBar b n).barArr = k.barArr := rfl

@[simp] theorem Core.cistern_countBar (k : Core) (b : BarScope) (n : Nat) : (k.countBar b n).cistern = k.cistern := rfl

@[simp] theorem Core.stream_countBar (k : Core) (b : BarScope) (n : Nat) (x : StreamId) :
    (k.countBar b n).stream x = k.stream x := by cases x <;> rfl

/-- BAR at core scope: CTRL arrives, the barrier is counted, and CTRL goes on. -/
def State.coreBar (s : State) : State :=
  (s.modCore s.cur.1 fun k => (k.arriveBar .core).countBar .core s.curCore.barOrd[barIdx .core]).adv

/-- BAR at another scope: CTRL arrives and waits. -/
def State.wideBar (s : State) (b : BarScope) : State :=
  (s.modCore s.cur.1 fun k => k.arriveBar b).waitOn s.cur.1 .ctrl .otherWait (.bar b s.curCore.barOrd[barIdx b])

section
variable {s : State} {b : BarScope}

theorem exec_bar {g : Guard} (hg : s.guard g = true) (hx : s.cur.2 = .ctrl) (hq : Spec.quiet s) (ar : Bool) (b : BarScope) :
    exec (.bar g ar b) s = .next (if b = .core then s.coreBar else s.wideBar b) := by
  have hrelease : (if ar = true then s.releaseOn s.cur.1 .ctrl else s) = s := by
    rw [Spec.quiet, hx] at hq
    rw [State.releaseOn_of_quietOn hq, ite_self]
  change execBar g ar b s = _
  simp only [execBar, hg, hrelease, Bool.not_true, Bool.false_eq_true, if_false, beq_iff_eq]
  split
  · next hb => rw [hb, State.modCore_modCore]; rfl
  · rfl

theorem State.curCore_coreBar_barOrd (s : State) :
    s.coreBar.curCore.barOrd = s.curCore.barOrd.set (barIdx .core) (s.curCore.barOrd[barIdx .core] + 1) := by
  simp [State.coreBar, State.adv, State.goto, State.curCore]

theorem State.curCore_coreBar_barArr (h : s.curCore.barArr[barIdx .core] = s.curCore.barOrd[barIdx .core]) :
    s.coreBar.curCore.barArr = s.curCore.barArr.set (barIdx .core) (s.curCore.barOrd[barIdx .core] + 1) := by
  simpa [State.coreBar, State.adv, State.goto, State.curCore] using Core.barArr_arriveBar h

/-- CTRL itself only goes on to the next instruction. -/
theorem State.curStream_coreBar (s : State) : s.coreBar.curStream = { s.curStream with pc := s.nextPc } := by
  simp [State.coreBar, State.adv, State.goto, State.curStream, State.nextPc, State.stream]

theorem State.memSame_coreBar (s : State) : s.memSame s.coreBar := by
  have hcore : s.memSame (s.modCore s.cur.1 fun k =>
      (k.arriveBar .core).countBar .core s.curCore.barOrd[barIdx .core]) :=
    s.memSame_modCore s.cur.1 (by rw [Core.cistern_countBar, Core.cistern_arriveBar])
  exact hcore.trans (State.memSame_adv _)

theorem State.curCore_wideBar_barOrd (s : State) (b : BarScope) : (s.wideBar b).curCore.barOrd = s.curCore.barOrd := by
  simp [State.wideBar, State.waitOn, State.curCore]

theorem State.curCore_wideBar_barArr (h : s.curCore.barArr[barIdx b] = s.curCore.barOrd[barIdx b]) :
    (s.wideBar b).curCore.barArr = s.curCore.barArr.set (barIdx b) (s.curCore.barOrd[barIdx b] + 1) := by
  simpa [State.wideBar, State.waitOn, State.curCore] using Core.barArr_arriveBar h

theorem State.stream_wideBar (s : State) (b : BarScope) : (s.wideBar b).stream s.cur.1 .ctrl =
    (s.stream s.cur.1 .ctrl).wait .otherWait (.bar b s.curCore.barOrd[barIdx b]) := by
  simp [State.wideBar, State.waitOn, State.stream]

theorem State.memSame_wideBar (s : State) (b : BarScope) : s.memSame (s.wideBar b) :=
  .trans (State.memSame_modCore _ _ (Core.cistern_arriveBar ..)) (State.memSame_modStream ..)

end

/-! ## BAR_COMPLETE (R236) -/

theorem Core.leaveBar_of_pend {k : Core} {b : BarScope} {n : Nat} (h : k.ctrl.pend = .bar b n) :
    k.leaveBar b n = { k with barOrd := k.barOrd.set (barIdx b) (n + 1), ctrl := k.ctrl.finish } :=
  if_pos (beq_iff_eq.mpr h)

theorem Core.leaveBar_of_pend_ne {k : Core} {b : BarScope} {n : Nat} (h : k.ctrl.pend ≠ .bar b n) : k.leaveBar b n = k :=
  if_neg fun e => h (eq_of_beq e)

theorem Core.cistern_leaveBar (k : Core) (b : BarScope) (n : Nat) : (k.leaveBar b n).cistern = k.cistern := by
  unfold Core.leaveBar
  split <;> rfl

/-- A core that has left a barrier does not leave it again. -/
theorem Core.leaveBar_leaveBar (k : Core) (b : BarScope) (n : Nat) : (k.leaveBar b n).leaveBar b n = k.leaveBar b n := by
  by_cases h : k.ctrl.pend = .bar b n
  · exact Core.leaveBar_of_pend_ne (by rw [Core.leaveBar_of_pend h]; exact nofun)
  · rw [Core.leaveBar_of_pend_ne h, Core.leaveBar_of_pend_ne h]

/-- A core stays as it is or leaves the barrier that is met. -/
theorem State.core_leaveBars (s : State) (t : Task) (b : BarScope) (n : Nat) (d : CoreId) :
    (s.leaveBars t b n).core d = s.core d ∨ (s.leaveBars t b n).core d = (s.core d).leaveBar b n := by
  simp only [State.core, State.leaveBars, Vector.getElem_map]
  split
  · split
    · exact .inr rfl
    · exact .inl rfl
  · exact .inl rfl

theorem State.core_leaveBars_leaveBar (s : State) (t : Task) (b : BarScope) (n : Nat) (d : CoreId) :
    ((s.leaveBars t b n).core d).leaveBar b n = (s.core d).leaveBar b n := by
  obtain e | e := s.core_leaveBars t b n d
  · rw [e]
  · rw [e, Core.leaveBar_leaveBar]

theorem State.memSame_leaveBars (s : State) (t : Task) (b : BarScope) (n : Nat) : s.memSame (s.leaveBars t b n) := by
  refine State.memSame_of_cisterns fun d => ?_
  change ((s.leaveBars t b n).core d).cistern = (s.core d).cistern
  obtain e | e := s.core_leaveBars t b n d
  · rw [e]
  · rw [e, Core.cistern_leaveBar]

theorem exec_barComplete {s : State} {c : CoreId} {b : BarScope} {n : Nat} {t : Task} (hgated : (s.core c).gated = false)
    (hpend : (s.core c).ctrl.pend = .bar b n) (htask : (s.core c).task = some t) (hdone : s.barDone t b n = true) :
    exec (.barComplete c) s = .next ((s.leaveBars t b n).modCore c fun k => k.leaveBar b n) := by
  have hpend' : (s.stream c .ctrl).pend = .bar b n := hpend
  change execBarComplete c s = _
  simp only [execBarComplete, State.onCore, hgated, hpend', htask, hdone, Bool.false_eq_true, if_false, if_true]

/-- Settles O43: a fence performs stores off the front of the stream's queue, all of them where it releases; a BAR changes the
counts of barriers and CTRL alone; and CTRL leaves a barrier that is met once. -/
theorem fencesAndBarriers : Obligations.FencesAndBarriers := by
  unfold Obligations.FencesAndBarriers
  intro s g hg
  refine ⟨fun o => ⟨_, exec_fence hg o, ?_, fun ho => ?_⟩, fun o hq => ⟨_, exec_fence hg o, ?_⟩, fun ar b hx hq => ?_,
    fun c b n t hgated hpend htask hdone => ⟨_, exec_barComplete hgated hpend htask hdone, ?_⟩⟩
  · obtain ⟨n, hn⟩ := s.performs_fenceOn o
    rw [State.pc_adv, hn.nextPc]
  · obtain ⟨n, hn⟩ := s.performs_fenceOn o
    rw [State.stores_adv, State.curStream, hn.cur, State.fenceOn, if_pos ho]
    exact s.stores_releaseOn
  · rw [State.fenceOn_of_quiet hq]
    exact s.continues_adv
  · refine ⟨_, exec_bar hg hx hq ar b, ?_⟩
    by_cases hb : b = .core
    · subst hb
      rw [if_pos rfl]
      exact ⟨State.curCore_coreBar_barArr, fun _ => ⟨s.curCore_coreBar_barOrd, congrArg Stream.pc s.curStream_coreBar,
        by rw [s.curStream_coreBar]⟩, fun h => absurd rfl h, s.memSame_coreBar⟩
    · rw [if_neg hb]
      exact ⟨State.curCore_wideBar_barArr, fun h => absurd h hb, fun _ => ⟨s.curCore_wideBar_barOrd b,
        congrArg Stream.st (s.stream_wideBar b), congrArg Stream.pend (s.stream_wideBar b)⟩, s.memSame_wideBar b⟩
  · have hcore := (State.core_modCore_self (s.leaveBars t b n) c fun k => k.leaveBar b n).trans
      (s.core_leaveBars_leaveBar t b n c)
    rw [Core.leaveBar_of_pend hpend] at hcore
    exact ⟨congrArg Core.ctrl hcore, congrArg Core.barOrd hcore,
      (s.memSame_leaveBars t b n).trans (State.memSame_modCore _ c (Core.cistern_leaveBar ..))⟩

end Sys2Proof.Machine
end

section
namespace Sys2Proof.Machine

/-! # GEOM_COMPLETE writes its result lane by lane (O38)

The result of a geometry instruction is one `WriteData`: the result bytes as a little-endian number, and the poison of rows 0 to 3
as the fields of a sum of powers of two. A lane's points are the coordinates it reads, cut into groups, so that a property of all
coordinates of a lane is one of all registers. -/

/-! ## The result tile -/

/-- Bit j of little-endian bytes is bit j mod 8 of byte j / 8. -/
theorem testBit_leNat (bs : List Byte) (j : Nat) : (leNat bs).testBit j = (bs.getD (j / 8) 0).getLsbD (j % 8) := by
  induction bs generalizing j with
  | nil => simp [leNat]
  | cons b bs ih =>
    rw [leNat, Nat.add_comm, Nat.testBit_two_pow_mul_add (i := 8) _ b.isLt]
    split
    · next hj => simp [Nat.div_eq_of_lt hj, Nat.mod_eq_of_lt hj, BitVec.getLsbD]
    · next hj =>
      have hdiv : j / 8 = (j - 8) / 8 + 1 := by omega
      have hmod : j % 8 = (j - 8) % 8 := by omega
      rw [ih, hdiv, hmod, List.getD_cons_succ]

/-- Byte i of a number built from little-endian bytes. -/
theorem extractLsb'_ofNat_leNat {n i : Nat} (bs : List Byte) (hi : 8 * i + 8 ≤ n) :
    (BitVec.ofNat n (leNat bs)).extractLsb' (8 * i) 8 = bs.getD i 0 := by
  apply BitVec.eq_of_getLsbD_eq
  intro k hk
  have hlt : 8 * i + k < n := by omega
  have hbyte : (8 * i + k) / 8 = i := by omega
  have hbit : (8 * i + k) % 8 = k := by omega
  rw [BitVec.getLsbD_extractLsb', BitVec.getLsbD_ofNat, testBit_leNat, hbyte, hbit]
  simp only [hk, hlt, decide_true, Bool.true_and]

section
variable (kind : GeomKind) (sym : Bool) (regs : List Nat) {i : Nat}

/-- Byte i of the result is the result of lane i (R242). -/
theorem extractLsb'_geomTile_of_lt (hi : i < 512) : (geomTile (geomBytes kind sym regs)).extractLsb' (8 * i) 8 =
    .ofNat 8 (laneByte kind sym (lanePoints kind regs i)) := by
  rw [geomTile, extractLsb'_ofNat_leNat _ (by omega), geomBytes, List.map_map]
  simp [List.getD_eq_getElem?_getD, hi]

/-- The bytes above the 512 lanes are zero (R242). -/
theorem extractLsb'_geomTile_of_ge (hi : 512 ≤ i) (hi' : i < 4096) :
    (geomTile (geomBytes kind sym regs)).extractLsb' (8 * i) 8 = 0 := by
  have hlen : ((geomBytes kind sym regs).map (BitVec.ofNat 8)).length ≤ i := by
    rwa [List.length_map, geomBytes, List.length_map, List.length_range]
  rw [geomTile, extractLsb'_ofNat_leNat _ (by omega), List.getD_eq_getElem?_getD, List.getElem?_eq_none hlen]
  rfl

end

/-! ## The poison of the result -/

/-- Some row that feeds result row j is poisoned (R253). -/
def feedsPoison (p : BitVec 32) (j : Nat) : Bool := (List.range 8).any fun i => p.getLsbD (8 * j + i)

theorem feedsPoison_iff (p : BitVec 32) (j : Nat) : feedsPoison p j = true ↔ ∃ i, i < 8 ∧ p.getLsbD (8 * j + i) = true := by
  simp [feedsPoison]

theorem geomPoison_eq (p : BitVec 32) :
    geomPoison p = BitVec.ofNat 32 ((List.range 4).map (onesWhere 1 0 (feedsPoison p))).sum := by
  unfold geomPoison
  congr 3
  funext j
  change (if feedsPoison p j = true then 2 ^ j else 0) = _
  cases h : feedsPoison p j <;> simp [onesWhere, h]

theorem geomPoison_getLsbD (p : BitVec 32) (j : Nat) :
    (geomPoison p).getLsbD j = true ↔ j < 4 ∧ ∃ i, i < 8 ∧ p.getLsbD (8 * j + i) = true := by
  rw [geomPoison_eq, BitVec.getLsbD_ofNat, ← feedsPoison_iff]
  by_cases hj : j < 4
  · have hbit := testBit_sum_onesWhere (w := 1) (lo := 0) (j := 0) (f := feedsPoison p) hj Nat.one_pos
    rw [Nat.one_mul, Nat.zero_add, Nat.add_zero] at hbit
    have hlt : j < 32 := by omega
    simp only [hbit, hj, hlt, decide_true, Bool.true_and, true_and]
  · have hsum : ((List.range 4).map (onesWhere 1 0 (feedsPoison p))).sum < 2 ^ j :=
      Nat.lt_of_lt_of_le sum_onesWhere_lt_two_pow (Nat.pow_le_pow_right Nat.two_pos (by omega))
    simp [Nat.testBit_lt_two_pow hsum, hj]

/-! ## The core -/

theorem mergeBits_allOnes {n : Nat} (old new : BitVec n) : mergeBits old new (BitVec.allOnes n) = new := by simp [mergeBits]

/-- The count state a completed write leaves, field by field (R20). -/
theorem Count.complete_eq (n : Count) (rdr : BitVec 3) :
    n.complete rdr = ⟨n.c + 1, if rdr = 7 then 0 else rdr, decide (rdr = 7), false, n.bad⟩ := by
  unfold Count.complete
  simp only [beq_iff_eq]
  split
  · next h => rw [decide_eq_true h]
  · next h => rw [decide_eq_false h]

section
variable (k : Core) (d : TReg) (rdr : BitVec 3) (v m : BitVec 32768) (p pm : BitVec 32)

/-- A completed write of a tile register: its bits and its poison under their masks, and its count (R20). -/
theorem Core.tiles_completeWrite_tile : (k.completeWrite (.tile d) rdr (.tile v m p pm)).tiles[d.toNat] =
    ⟨mergeBits k.tiles[d.toNat].val v m, k.tiles[d.toNat].cnt.complete rdr, mergeBits k.tiles[d.toNat].poison p pm⟩ := by
  simp [Core.completeWrite, Core.putData, Core.setCnt, Core.cnt]

/-- It leaves the other tile registers as they are. -/
theorem Core.tiles_completeWrite_tile_ne {r : TReg} (h : r ≠ d) :
    (k.completeWrite (.tile d) rdr (.tile v m p pm)).tiles[r.toNat] = k.tiles[r.toNat] := by
  have hne : d.toNat ≠ r.toNat := fun e => h (BitVec.eq_of_toNat_eq e.symm)
  simp [Core.completeWrite, Core.putData, Core.setCnt, hne]

end

theorem State.memSame_refl (s : State) : s.memSame s := ⟨fun _ _ => rfl, fun _ _ => rfl⟩

/-- Counting an event changes banks alone. -/
theorem State.memSame_sketch (s : State) (ev : BitVec 8) (c : CoreId) (pc : VAddr) (w : Nat) : s.memSame (s.sketch ev c pc w) := by
  unfold State.sketch
  split
  · exact ⟨fun _ _ => rfl, fun _ _ => rfl⟩
  · exact s.memSame_refl

/-! ## Coordinates and points of a lane -/

/-- A code is finite unless its exponent field is all ones (R67). -/
theorem isFin_value (f : Fmt) (v : Nat) : (f.value v).isFin = true ↔ v / 2 ^ f.w % 2 ^ f.eb ≠ f.emask := by
  unfold Fmt.value
  simp only [beq_iff_eq]
  split
  · next h =>
    refine iff_of_false ?_ (not_not_intro h)
    rw [apply_ite FV.isFin]
    simp [FV.isFin]
  · next h =>
    refine iff_of_true ?_ h
    split <;> rfl

/-- The exponent field of coordinate i of a tile. -/
theorem toNat_extractLsb'_exponent (r : BitVec 32768) (i : Nat) :
    (r.extractLsb' (64 * i + 52) 11).toNat = fieldOf 64 r.toNat i / 2 ^ 52 % 2 ^ 11 := by
  rw [BitVec.extractLsb'_toNat, Nat.shiftRight_eq_div_pow, Nat.pow_add, ← Nat.div_div_eq_div_mul, fieldOf]
  omega

theorem isFin_coordinate (r : BitVec 32768) (i : Nat) :
    (fp64.value (fieldOf 64 r.toNat i)).isFin = true ↔ r.extractLsb' (64 * i + 52) 11 ≠ 0x7FF := by
  have hexp : (r.extractLsb' (64 * i + 52) 11).toNat ≠ 0x7FF ↔ r.extractLsb' (64 * i + 52) 11 ≠ 0x7FF :=
    BitVec.toNat_ne_iff_ne (y := 0x7FF)
  rw [← hexp, toNat_extractLsb'_exponent]
  exact isFin_value fp64 _

/-- Cut into points, a list keeps its coordinates. -/
theorem flatten_cutPoints {n d : Nat} (hn : 0 < n) {l : List FV} (hl : l.length ≤ d) : (cutPoints n l d).flatten = l := by
  induction d generalizing l with
  | zero => rw [List.eq_nil_of_length_eq_zero (Nat.le_zero.mp hl)]; rfl
  | succ d ih =>
    rw [cutPoints]
    split
    · next h => rw [List.isEmpty_iff.mp h]; rfl
    · next h =>
      rw [List.flatten_cons, ih (by rw [List.length_drop]; omega), List.take_append_drop]

theorem geomDim_pos (kind : GeomKind) : 0 < geomDim kind := by cases kind <;> decide

theorem geomRegs_eq_registers (kind : GeomKind) : geomRegs kind = Spec.registers kind := by cases kind <;> rfl

/-- A lane is finite as its coordinates are. -/
theorem lanePoints_finite_iff {kind : GeomKind} {regs : List (BitVec 32768)} (hregs : regs.length = Spec.registers kind) (i : Nat) :
    ((lanePoints kind (regs.map BitVec.toNat) i).all fun p => p.all FV.isFin) = true ↔
      ∀ r ∈ regs, r.extractLsb' (64 * i + 52) 11 ≠ 0x7FF := by
  have hlen : ((regs.map BitVec.toNat).map fun v => fp64.value (fieldOf 64 v i)).length ≤ geomRegs kind :=
    Nat.le_of_eq (by rw [List.length_map, List.length_map, hregs, geomRegs_eq_registers])
  rw [← List.all_flatten, lanePoints, flatten_cutPoints (geomDim_pos kind) hlen]
  simp only [List.all_map, List.all_eq_true, Function.comp_apply, isFin_coordinate]

/-! ## The result byte of a lane -/

section
variable {kind : GeomKind} {pts : List (List FV)} (sym : Bool)

/-- A lane that is not finite is not evaluated (R246). -/
theorem laneByte_of_nonfinite (h : ¬ (pts.all fun p => p.all FV.isFin) = true) : laneByte kind sym pts = 0x80 := by
  unfold laneByte
  rw [if_pos (by rw [eq_false_of_ne_true h]; rfl)]

/-- Equal points decide the four determinant predicates; SEGX has its own rule (R247, R251). -/
theorem laneByte_of_hasEqual (hk : kind ≠ .segx) (h : (pts.all fun p => p.all FV.isFin) = true) (he : hasEqual pts = true) :
    laneByte kind sym pts = 0x28 := by
  cases kind
  case segx => exact absurd rfl hk
  all_goals simp only [laneByte, h, he, Bool.not_true, Bool.false_eq_true, if_false, if_true]

end

/-! ## GEOM_COMPLETE -/

/-- The bytes a geometry instruction writes. -/
def GeomOp.bytes (o : GeomOp) : List Nat := geomBytes o.kind o.sym (o.regs.map BitVec.toNat)

/-- The core once its oldest geometry instruction has completed without a mismatch. -/
def Core.geomDone (k : Core) (o : GeomOp) (rest : List GeomOp) : Core :=
  { k with geom := rest, gstat := k.gstat.after o.kind o.bytes false }.completeWrite (.tile o.dst) o.rdr
    (geomWrite o.bytes o.poison none)

theorem Core.geom_geomDone (k : Core) (o : GeomOp) (rest : List GeomOp) : (k.geomDone o rest).geom = rest :=
  Core.completeWrite_geom ..

theorem Core.cistern_geomDone (k : Core) (o : GeomOp) (rest : List GeomOp) : (k.geomDone o rest).cistern = k.cistern :=
  Core.completeWrite_cistern ..

/-- The destination holds the result, its poison and its count (R20, R242, R253). -/
theorem Core.tiles_geomDone (k : Core) (o : GeomOp) (rest : List GeomOp) : (k.geomDone o rest).tiles[o.dst.toNat] =
    ⟨geomTile o.bytes, k.tiles[o.dst.toNat].cnt.complete o.rdr, geomPoison o.poison⟩ := by
  rw [Core.geomDone, geomWrite, Core.tiles_completeWrite_tile, mergeBits_allOnes, mergeBits_allOnes]

theorem Core.tiles_geomDone_ne (k : Core) (o : GeomOp) (rest : List GeomOp) {r : TReg} (h : r ≠ o.dst) :
    (k.geomDone o rest).tiles[r.toNat] = k.tiles[r.toNat] := by
  rw [Core.geomDone, geomWrite, Core.tiles_completeWrite_tile_ne _ _ _ _ _ _ _ h]

/-- The state once the oldest geometry instruction of a core has completed without a mismatch: the monitoring banks have counted the
lanes of stages B and C, and the core has its write. -/
def State.geomDone (s : State) (c : CoreId) (o : GeomOp) (rest : List GeomOp) : State :=
  ((s.sketch 0x08 c o.pc (laneCount o.kind o.bytes [1])).sketch 0x09 c o.pc (laneCount o.kind o.bytes [2])).modCore c fun k =>
    k.geomDone o rest

section
variable (s : State) (c : CoreId) (o : GeomOp) (rest : List GeomOp)

theorem State.core_geomDone : (s.geomDone c o rest).core c = (s.core c).geomDone o rest := by
  rw [State.geomDone, State.core_modCore_self, State.core_sketch, State.core_sketch]

theorem State.memSame_geomDone : s.memSame (s.geomDone c o rest) :=
  .trans (.trans (s.memSame_sketch ..) (State.memSame_sketch ..)) (State.memSame_modCore _ c (Core.cistern_geomDone ..))

end

theorem exec_geomComplete {s : State} {c : CoreId} {o : GeomOp} {rest : List GeomOp} (hg : (s.core c).gated = false)
    (ho : (s.core c).geom = o :: rest) : exec (.geomComplete c false) s = .next (s.geomDone c o rest) := by
  change execGeomComplete c false s = _
  simp only [execGeomComplete, State.onCore, hg, ho, Bool.false_eq_true, if_false]
  rfl

/-- Settles O38: the destination holds `geomTile` and `geomPoison` of the instruction, and a lane is finite as its coordinates are. -/
theorem geometryCompletes : Obligations.GeometryCompletes := by
  unfold Obligations.GeometryCompletes
  intro s c o rest hg ho regs
  have hcore := s.core_geomDone c o rest
  have hdst := (s.core c).tiles_geomDone o rest
  refine ⟨_, exec_geomComplete hg ho, s.memSame_geomDone c o rest, ?_⟩
  rw [hcore, hdst]
  refine ⟨Core.geom_geomDone .., Count.complete_eq .., fun i hi => extractLsb'_geomTile_of_lt _ _ _ hi,
    fun i hi hi' => extractLsb'_geomTile_of_ge _ _ _ hi hi', geomPoison_getLsbD o.poison,
    fun r hr => Core.tiles_geomDone_ne _ o rest hr, fun hregs i _ => ⟨fun hinf => ?_, fun hk hfin heq => ?_⟩⟩
  · refine laneByte_of_nonfinite _ fun hfin => ?_
    obtain ⟨r, hr, he⟩ := hinf
    exact (lanePoints_finite_iff hregs i).mp hfin r hr he
  · exact laneByte_of_hasEqual _ hk ((lanePoints_finite_iff hregs i).mpr hfin) heq

end Sys2Proof.Machine
end

section
namespace Sys2Proof.Machine

/-! # Saves, zeroing, the reset of a function and the host's accesses (O52)

Two frames carry these events. `State.MemOnly`: writing a save area changes global memory and nothing of a core. `State.SameWork`:
ending pump commands, gates and replays changes neither the graph engine's nodes, queues and slice groups nor a core's task with
its tiles and accumulators. What an event then does to nodes, queues, groups and cores is said once for each operation. -/

/-! ## Global memory alone -/

/-- From s to t nothing but global memory and the count of free values has changed. -/
def State.MemOnly (s t : State) : Prop := ∃ g n, t = { s with gmem := g, fresh := n }

section
variable {s t u : State}

theorem State.MemOnly.refl (s : State) : s.MemOnly s := ⟨s.gmem, s.fresh, rfl⟩

theorem State.MemOnly.trans (h : s.MemOnly t) (h' : t.MemOnly u) : s.MemOnly u := by
  obtain ⟨_, _, rfl⟩ := h
  obtain ⟨g, n, rfl⟩ := h'
  exact ⟨g, n, rfl⟩

theorem State.MemOnly.foldl {α : Type} {f : State → α → State} (h : ∀ (s : State) a, s.MemOnly (f s a)) (as : List α) :
    s.MemOnly (as.foldl f s) :=
  as.foldlRecOn f (.refl s) fun _ ht a _ => ht.trans (h _ a)

theorem State.MemOnly.cores (h : s.MemOnly t) : t.cores = s.cores := by
  obtain ⟨_, _, rfl⟩ := h
  rfl

theorem State.MemOnly.nodes (h : s.MemOnly t) : t.nodes = s.nodes := by
  obtain ⟨_, _, rfl⟩ := h
  rfl

theorem State.MemOnly.core (h : s.MemOnly t) (c : CoreId) : t.core c = s.core c := by simp only [State.core, h.cores]

theorem State.memOnly_writePhys (s : State) (p : PartId) (pa : Nat) (bs : List Byte) (poison : Bool) :
    s.MemOnly (s.writePhys p pa bs poison) := by
  obtain ⟨g, e⟩ := s.writePhys_rest p pa bs poison
  exact ⟨g, s.fresh, e⟩

theorem State.memOnly_saveMem (s : State) (p : PartId) (pa : Nat) (m : PoisonMem) (granules : Nat) :
    s.MemOnly (s.saveMem p pa m granules) :=
  .foldl (fun s _ => s.memOnly_writePhys ..) _

/-- Writing a role's area writes global memory alone (R343). -/
theorem State.memOnly_saveRole (s : State) (t : Task) (k : Core) (first valid : Nat) : s.MemOnly (s.saveRole t k first valid) := by
  have hfresh (u : State) (n : Nat) : u.MemOnly { u with fresh := n } := ⟨u.gmem, n, rfl⟩
  unfold State.saveRole
  exact ((((((s.memOnly_writePhys ..).trans (.foldl (fun s _ => s.memOnly_writePhys ..) _)).trans
    (State.memOnly_saveMem ..)).trans (State.memOnly_saveMem ..)).trans (State.memOnly_writePhys ..)).trans
    (State.memOnly_writePhys ..)).trans (hfresh _ _)

theorem State.memOnly_saveCore (s : State) (c : CoreId) (first valid : Nat) : s.MemOnly (s.saveCore c first valid) := by
  unfold State.saveCore
  split
  · exact s.memOnly_saveRole ..
  · exact .refl s

theorem State.memOnly_invalidateAll (s : State) (n : Node) : s.MemOnly (s.invalidateAll n) := by
  unfold State.invalidateAll
  split
  · exact .refl s
  · exact .foldl (fun s _ => s.memOnly_writePhys ..) _

end

/-! ## What the engine and the cores are at work on -/

/-- A core's task, its tiles and its accumulators are the same. -/
structure Core.SameWork (k l : Core) : Prop where
  tiles : l.tiles = k.tiles
  accs : l.accs = k.accs
  task : l.task = k.task

/-- So are those of every core, and the graph engine has the same nodes, queues and slice groups. -/
structure State.SameWork (s t : State) : Prop where
  nodes : t.nodes = s.nodes
  queues : t.queues = s.queues
  groups : t.groups = s.groups
  group : ∀ p, (t.part p).group = (s.part p).group
  core : ∀ c, (s.core c).SameWork (t.core c)

section
variable {k l m : Core}

theorem Core.SameWork.refl (k : Core) : k.SameWork k := ⟨rfl, rfl, rfl⟩

theorem Core.SameWork.trans (h : k.SameWork l) (h' : l.SameWork m) : k.SameWork m :=
  ⟨h'.tiles.trans h.tiles, h'.accs.trans h.accs, h'.task.trans h.task⟩

theorem Core.SameWork.foldl {α : Type} {f : Core → α → Core} (h : ∀ (k : Core) a, k.SameWork (f k a)) (as : List α) :
    k.SameWork (as.foldl f k) :=
  as.foldlRecOn f (.refl k) fun _ hl a _ => hl.trans (h _ a)

theorem Core.SameWork.ite {p : Prop} [Decidable p] (hl : k.SameWork l) (hm : k.SameWork m) :
    k.SameWork (if p then l else m) := by
  split
  · exact hl
  · exact hm

theorem Core.sameWork_modStream (k : Core) (x : StreamId) (f : Stream → Stream) : k.SameWork (k.modStream x f) :=
  ⟨Core.modStream_tiles .., Core.modStream_accs .., Core.modStream_task ..⟩

theorem Core.sameWork_setPump (k : Core) (second : Bool) (p : Pump) : k.SameWork (k.setPump second p) := by
  cases second <;> exact ⟨rfl, rfl, rfl⟩

/-- The completion of a pump command writes a signal register alone (R221). -/
theorem Core.sameWork_completeSig (k : Core) (g : GReg) (rdr : BitVec 3) (v : Word) :
    k.SameWork (k.completeWrite (.sig g) rdr (.sig v)) :=
  ⟨rfl, rfl, rfl⟩

theorem Core.sameWork_land (k : Core) (m : PumpCmd) : k.SameWork (k.land m) := .ite ⟨rfl, rfl, rfl⟩ (.refl k)

theorem Core.sameWork_priDone (k : Core) (p : PartId) (pasid : BitVec 20) (page : BitVec 36) :
    k.SameWork (k.priDone p pasid page) :=
  .foldl (fun k _ => .ite (k.sameWork_modStream ..) (.refl k)) _

theorem State.sameWork_wake (s : State) (k : Core) : k.SameWork (s.wake k) :=
  (Core.SameWork.foldl (f := Core.remove) (fun _ _ => ⟨rfl, rfl, rfl⟩) _).trans (.foldl (fun k _ => k.sameWork_priDone ..) _)

theorem State.sameWork_gateCore (s : State) (k : Core) (gated : Bool) : k.SameWork (s.gateCore k gated) := by
  have hgate (l : Core) : l.SameWork { l with gated := gated } := ⟨rfl, rfl, rfl⟩
  exact .trans (.ite (s.sameWork_wake k) (.refl k)) (hgate _)

theorem Partition.gateTo_group (r : Partition) (gated : Bool) (tick : Nat) : (r.gateTo gated tick).group = r.group := by
  unfold Partition.gateTo
  split <;> rfl

end

section
variable {s t u : State}

theorem State.SameWork.refl (s : State) : s.SameWork s := ⟨rfl, rfl, rfl, fun _ => rfl, fun _ => .refl _⟩

theorem State.SameWork.trans (h : s.SameWork t) (h' : t.SameWork u) : s.SameWork u :=
  ⟨h'.nodes.trans h.nodes, h'.queues.trans h.queues, h'.groups.trans h.groups, fun p => (h'.group p).trans (h.group p),
    fun c => (h.core c).trans (h'.core c)⟩

theorem State.SameWork.foldl {α : Type} {f : State → α → State} (h : ∀ (s : State) a, s.SameWork (f s a)) (as : List α) :
    s.SameWork (as.foldl f s) :=
  as.foldlRecOn f (.refl s) fun _ ht a _ => ht.trans (h _ a)

theorem State.SameWork.ite {p : Prop} [Decidable p] (ht : s.SameWork t) (hu : s.SameWork u) :
    s.SameWork (if p then t else u) := by
  split
  · exact ht
  · exact hu

theorem State.SameWork.of_eq (e : (t.nodes, t.queues, t.groups, t.parts, t.cores) =
    (s.nodes, s.queues, s.groups, s.parts, s.cores)) : s.SameWork t := by
  simp only [Prod.mk.injEq] at e
  obtain ⟨hn, hq, hg, hp, hc⟩ := e
  exact ⟨hn, hq, hg, fun p => by simp only [State.part, hp], fun c => by simp only [State.core, hc]; exact .refl _⟩

theorem State.SameWork.of_memOnly (h : s.MemOnly t) : s.SameWork t := by
  obtain ⟨_, _, rfl⟩ := h
  exact .of_eq rfl

theorem State.SameWork.groupOf (h : s.SameWork t) (p : PartId) : t.groupOf p = s.groupOf p := by
  simp only [State.groupOf, h.groups, h.group p]

theorem State.sameWork_modCore (s : State) (c : CoreId) {f : Core → Core} (hf : ∀ k : Core, k.SameWork (f k)) :
    s.SameWork (s.modCore c f) := by
  refine ⟨rfl, rfl, rfl, fun _ => rfl, fun d => ?_⟩
  by_cases h : d = c
  · rw [h, State.core_modCore_self]
    exact hf _
  · rw [State.core_modCore_ne s f h]
    exact .refl _

/-! ### Pump commands that end (R222, R342) -/

theorem State.sameWork_writeLoc (s : State) (c : CoreId) (p : PartId) (l : Loc) (bs : List Byte) (poison : Bool) :
    s.SameWork (s.writeLoc c p l bs poison) := by
  unfold State.writeLoc
  split
  · exact s.sameWork_modCore c fun _ => ⟨rfl, rfl, rfl⟩
  · exact .of_memOnly (s.memOnly_writePhys ..)
  · exact .refl s

theorem State.sameWork_writeWbuf (s : State) (c : CoreId) (off : Nat) (bs : List Byte) : s.SameWork (s.writeWbuf c off bs) :=
  s.sameWork_modCore c fun _ => ⟨rfl, rfl, rfl⟩

theorem State.sameWork_scramble (s : State) (c : CoreId) (m : PumpCmd) (u : Nat) : s.SameWork (s.scramble c m u) := by
  have hfresh (t : State) (n : Nat) : t.SameWork { t with fresh := n } := .of_eq rfl
  unfold State.scramble
  split
  · exact .refl s
  · split
    · exact (s.sameWork_writeWbuf ..).trans (hfresh _ _)
    · dsimp only
      split
      · exact .refl s
      · split
        · exact .refl s
        · exact (s.sameWork_writeLoc ..).trans (hfresh _ _)

theorem State.sameWork_abandonCmd (s : State) (c : CoreId) (m : PumpCmd) (rdr : BitVec 3) (u : Nat) :
    s.SameWork (s.abandonCmd c m rdr u) :=
  (s.sameWork_scramble c m u).trans
    (State.sameWork_modCore _ c fun k => (k.sameWork_completeSig ..).trans (Core.sameWork_land ..))

theorem State.sameWork_abandonQueue (s : State) (c : CoreId) : s.SameWork (s.abandonQueue c) :=
  (s.sameWork_modCore c (f := fun k => { k with pumpq := [] }) fun _ => ⟨rfl, rfl, rfl⟩).trans
    (.foldl (fun s _ => s.sameWork_abandonCmd ..) _)

theorem State.sameWork_dropSent (s : State) (sent : Option (BitVec 16 × BitVec 32)) : s.SameWork (s.dropSent sent) := by
  unfold State.dropSent
  split
  · exact .of_eq rfl
  · exact .refl s

theorem State.sameWork_pumpEnd (s : State) (c : CoreId) (second : Bool) (m : PumpCmd) (status u : Nat) :
    s.SameWork (s.pumpEnd c second m status u) := by
  have hturn (t : State) : t.SameWork (t.takeTurn (.take c) 0) := .of_eq rfl
  have hend : s.SameWork (if status == 0 then s else s.scramble c m u) := .ite (.refl s) (s.sameWork_scramble ..)
  refine .trans (.trans hend (State.sameWork_modCore _ c fun k => ?_)) (hturn _)
  exact .trans ((k.sameWork_completeSig ..).trans (Core.sameWork_land ..)) (Core.sameWork_setPump ..)

theorem State.sameWork_abandonPump (s : State) (c : CoreId) (second : Bool) : s.SameWork (s.abandonPump c second) := by
  unfold State.abandonPump
  split
  · exact (s.sameWork_dropSent _).trans (State.sameWork_pumpEnd ..)
  · exact .refl s

theorem State.sameWork_abandonPumps (s : State) (c : CoreId) : s.SameWork (s.abandonPumps c) :=
  .trans (.trans (s.sameWork_abandonPump ..) (State.sameWork_abandonPump ..)) (State.sameWork_abandonQueue ..)

theorem State.sameWork_cancelParked (s : State) (c : CoreId) (second : Bool) : s.SameWork (s.cancelParked c second) := by
  unfold State.cancelParked
  split
  · exact (s.sameWork_abandonCmd ..).trans (State.sameWork_modCore _ c fun k => k.sameWork_setPump ..)
  · exact .refl s

/-! ### Gates and replays that end (R412, R421) -/

theorem State.sameWork_dropSemPacket (s : State) (c : CoreId) (x : StreamId) : s.SameWork (s.dropSemPacket c x) := by
  unfold State.dropSemPacket State.semDone
  split
  · split <;> exact .of_eq rfl
  · exact .refl s

theorem State.sameWork_gateSync (s : State) : s.SameWork s.gateSync := by
  refine ⟨rfl, rfl, rfl, fun p => ?_, fun c => ?_⟩
  · simp only [State.part, State.gateSync, Vector.getElem_mapFinIdx, Partition.gateTo_group]
  · simp only [State.core, State.gateSync, Vector.getElem_mapFinIdx]
    exact s.sameWork_gateCore ..

/-- Banks change, and the gates follow them. -/
theorem State.sameWork_setBanks (s : State) (v : Vector MBank 128) : s.SameWork { s with banks := v }.gateSync :=
  .trans (t := { s with banks := v }) (.of_eq rfl) (State.sameWork_gateSync _)

theorem State.sameWork_ungate (s : State) (c : CoreId) : s.SameWork (s.ungate c) :=
  .ite (s.sameWork_setBanks _) (.refl s)

theorem State.sameWork_gateOff (s : State) (b : BitVec 7) : s.SameWork (s.gateOff b) :=
  .ite (s.sameWork_setBanks _) (.refl s)

theorem State.sameWork_endReplay (s : State) (b : BitVec 7) : s.SameWork (s.endReplay b) :=
  .ite (s.sameWork_setBanks _) (.refl s)

theorem State.sameWork_giveBank (s : State) (b owner : BitVec 7) : s.SameWork (s.giveBank b owner) := by
  have hbank (t : State) (f : MBank → MBank) : t.SameWork (t.modBank b f) := .of_eq rfl
  exact .trans ((s.sameWork_gateOff b).trans (State.sameWork_endReplay _ b)) (hbank _ _)

theorem State.sameWork_resetBanks (s : State) (vf : BitVec 6) : s.SameWork (s.resetBanks vf) :=
  .foldl (fun s _ => .ite (s.sameWork_giveBank ..) (.refl s)) _

/-- A gang that stops without a save leaves the nodes as they are (R348). -/
theorem State.sameWork_stopGang (s : State) (n : Node) : s.SameWork (s.stopGang n) :=
  .trans (.trans (.foldl (fun s c => (s.sameWork_ungate c).trans (State.sameWork_abandonPumps ..)) _)
    (.foldl (fun _ _ => .foldl (fun s _ => s.sameWork_dropSemPacket ..) _) _)) (.of_memOnly (State.memOnly_invalidateAll ..))

end

/-! ## Nodes, queues, slice groups and partitions under their updates -/

section
variable (s : State)

theorem State.groupOf_modGroup (p : PartId) (f : SliceGroup → SliceGroup) :
    (s.modGroup (s.part p).group f).groupOf p = f (s.groupOf p) :=
  Vector.getElem_set_self _

theorem State.key_of_node {k : NodeKey} {n : Node} (h : s.node k = some n) : n.key = k :=
  eq_of_beq (List.find?_some (p := fun n : Node => n.key == k) h)

theorem State.node_modNode_self (k : NodeKey) {f : Node → Node} (hf : ∀ m, (f m).key = m.key) :
    (s.modNode k f).node k = (s.node k).map f := by
  have hkey : ((fun n : Node => n.key == k) ∘ fun n => if n.key == k then f n else n) = fun n => n.key == k := by
    funext n
    simp only [Function.comp_apply]
    split
    · rw [hf]
    · rfl
  change (s.nodes.map fun n => if n.key == k then f n else n).find? (fun n => n.key == k) = _
  rw [List.find?_map, hkey]
  change (s.node k).map _ = _
  cases h : s.node k with
  | none => rfl
  | some n => rw [Option.map_some, Option.map_some, if_pos (beq_iff_eq.mpr (s.key_of_node h))]

/-- A change of cores one after another leaves its mark on each of them, and takes it from none that has it. -/
theorem State.core_foldl_modCore {P : Core → Prop} {f : Core → Core} (hf : ∀ k, P (f k)) {c : CoreId} {cs : List CoreId}
    (hc : c ∈ cs ∨ P (s.core c)) : P ((cs.foldl (fun s c => s.modCore c f) s).core c) := by
  induction cs generalizing s with
  | nil => exact hc.resolve_left List.not_mem_nil
  | cons d cs ih =>
    refine ih (s.modCore d f) ?_
    by_cases h : c = d
    · rw [h, State.core_modCore_self]
      exact .inr (hf _)
    · rw [State.core_modCore_ne _ _ h]
      exact hc.imp_left fun hmem => (List.mem_cons.mp hmem).resolve_left h

theorem State.nodes_foldl_modCore (f : Core → Core) (cs : List CoreId) :
    (cs.foldl (fun s c => s.modCore c f) s).nodes = s.nodes :=
  cs.foldlRecOn (motive := fun t : State => t.nodes = s.nodes) _ rfl fun _ ht _ _ => ht

/-- A node whose cores have been freed. -/
def Node.freed (n : Node) : Node := { n with cores := [] }

/-- The cores of a node that are freed to be zeroed have no task, and their zeroing has begun (R330, R347). -/
theorem State.core_freeCores {n : Node} {c : CoreId} (hc : c ∈ n.cores) :
    ((s.freeCores n true).core c).task = none ∧ ((s.freeCores n true).core c).zeroing = true :=
  s.core_foldl_modCore (P := fun k => k.task = none ∧ k.zeroing = true) (fun _ => ⟨rfl, rfl⟩) (.inl hc)

theorem State.nodes_freeCores (n : Node) (zero : Bool) :
    (s.freeCores n zero).nodes = (s.modNode n.key Node.freed).nodes :=
  congrArg (List.map fun m : Node => if m.key == n.key then m.freed else m)
    (s.nodes_foldl_modCore (fun k => if zero then k.zeroed false else k.ended) n.cores)

theorem State.part_owe (sel : PartId → Partition → Bool) (p : PartId) :
    (s.owe sel).part p = if sel p (s.part p) then { s.part p with owed := true } else s.part p :=
  Vector.getElem_mapFinIdx _

/-- Every partition that has one of the cores in a unit of its own is owed a dispatch (R324). -/
theorem State.part_oweCores (cs : List CoreId) (p : PartId) : (s.oweCores cs).part p =
    { s.part p with owed := (s.part p).owed || cs.any fun c => (s.part p).units.getLsbD (c.val / 8) } := by
  rw [State.oweCores, State.part_owe]
  split
  · next h => rw [h, Bool.or_true]
  · next h => rw [eq_false_of_ne_true h, Bool.or_false]

theorem State.memSame_owe (sel : PartId → Partition → Bool) : s.memSame (s.owe sel) := by
  have hkey (p : PartId) : (s.owe sel).keyOf p = s.keyOf p := by
    simp only [State.keyOf, State.part_owe]
    split <;> rfl
  exact ⟨fun p a => by simp only [State.readByte, hkey]; rfl, fun _ _ => rfl⟩

end

/-- A table whose values change under their keys. -/
theorem Sparse.get?_map {α β : Type} (t : Sparse α) (f : Nat × α → Nat × β) (hf : ∀ q, (f q).1 = q.1) (k : Nat) :
    Sparse.get? (t.map f) k = (t.get? k).map fun v => (f (k, v)).2 := by
  have hkey : ((fun c : Nat × β => c.1 == k) ∘ f) = fun c => c.1 == k := funext fun q => congrArg (· == k) (hf q)
  rw [Sparse.get?_eq, Sparse.get?_eq, List.find?_map, hkey]
  cases h : t.find? fun c => c.1 == k with
  | none => rfl
  | some q =>
    obtain ⟨j, v⟩ := q
    obtain rfl : j = k := eq_of_beq (List.find?_some (p := fun c : Nat × α => c.1 == k) h)
    rfl

/-! ## DRAIN_COMPLETE (R340, R343) -/

/-- A drain is not to be withdrawn once a save has begun or the successor has a node in the well (R341). -/
theorem State.not_withdrawable {s : State} {n : Node} (h : (s.groupOf n.part).saved = true ∨
    ∃ q, (s.groupOf n.part).next = some q ∧ ∃ m ∈ s.nodes, m.part = q ∧ s.inWell m = true) : s.withdrawable n = false := by
  unfold State.withdrawable
  obtain hsaved | ⟨q, hnext, m, hm, hpart, hwell⟩ := h
  · simp only [hsaved, Bool.not_true, Bool.and_false, Bool.false_and]
  · have hready : (s.nodes.any fun m => m.part == q && s.inWell m) = true :=
      List.any_eq_true.mpr ⟨m, hm, by rw [hpart, hwell, beq_self_eq_true, Bool.and_self]⟩
    simp only [hnext, hready, Bool.not_true, Bool.and_false]

/-- The core as its save begins. -/
def Core.beginSave (k : Core) : Core := { k.settle with saving := true, drainSince := none }

/-- The save of core c of a node begins: the group notes it, parked commands end, and the role's area is written. -/
def State.beginSave (s : State) (c : CoreId) (n : Node) (f : Nat) : State :=
  ((((s.modGroup (s.part n.part).group fun g => { g with saved := true }).cancelParked c false).cancelParked c true).modCore c
    Core.beginSave).saveCore c f 0

theorem exec_drainComplete {s : State} {c : CoreId} {n : Node} {f : Nat} (hgated : (s.core c).gated = false)
    (hnode : s.nodeOf c = some n) (hfirst : n.first = some f) (hdrain : n.draining = true) (hsaving : (s.core c).saving = false)
    (hdone : (s.core c).drainDone = true) (hkeep : s.withdrawable n = false) :
    exec (.drainComplete c) s = .next (s.beginSave c n f) := by
  change execDrainComplete c s = _
  simp only [execDrainComplete, State.onCore, hgated, hnode, hfirst, hdrain, hsaving, hdone, hkeep, Bool.not_true, Bool.true_or,
    Bool.or_self, Bool.false_eq_true, if_false]
  rfl

section
variable (s : State) (c : CoreId) (n : Node) (f : Nat)

/-- A save changes the work at hand only by the group's note of it. -/
theorem State.sameWork_beginSave :
    (s.modGroup (s.part n.part).group fun g => { g with saved := true }).SameWork (s.beginSave c n f) :=
  (((State.sameWork_cancelParked _ c false).trans (State.sameWork_cancelParked _ c true)).trans
    (State.sameWork_modCore _ c (f := Core.beginSave) fun _ => ⟨rfl, rfl, rfl⟩)).trans (.of_memOnly (State.memOnly_saveCore ..))

theorem State.core_beginSave : ∃ k : Core, (s.beginSave c n f).core c = k.beginSave :=
  ⟨_, (State.MemOnly.core (State.memOnly_saveCore ..) c).trans (State.core_modCore_self ..)⟩

theorem State.saved_beginSave : ((s.beginSave c n f).groupOf n.part).saved = true := by
  rw [(s.sameWork_beginSave c n f).groupOf, State.groupOf_modGroup]

end

/-! ## SAVE_COMPLETE (R343, R346) -/

/-- The areas of a node's roles are valid. -/
def State.saveRoles (s : State) (n : Node) (f : Nat) : State :=
  n.cores.foldl (fun s c => s.saveCore c f (s.core c).validByte) s

theorem State.memOnly_saveRoles (s : State) (n : Node) (f : Nat) : s.MemOnly (s.saveRoles n f) :=
  .foldl (fun s _ => s.memOnly_saveCore ..) _

/-- A node whose roles have been saved (R346). -/
def Node.preempt (n : Node) (saves : List Core) (since : Nat) : Node :=
  { n with st := .preempted, draining := false, saves := saves, since := since }

theorem exec_saveComplete {s : State} {k : NodeKey} {n : Node} {f : Nat} (hnode : s.node k = some n)
    (hfirst : n.first = some f) (hst : n.st = .running) (hne : n.cores ≠ [])
    (hsaving : ∀ c ∈ n.cores, (s.core c).saving = true ∧ (s.core c).gated = false) :
    ∃ since, exec (.saveComplete k) s =
      .next (((s.saveRoles n f).freeCores n true).modNode k fun m => m.preempt (n.cores.map s.core) since) := by
  have hall : (n.cores.all fun c => (s.core c).saving && !(s.core c).gated) = true :=
    List.all_eq_true.mpr fun c hc => by
      obtain ⟨hsave, hgated⟩ := hsaving c hc
      rw [hsave, hgated, Bool.not_false, Bool.and_self]
  have hempty : n.cores.isEmpty = false := List.isEmpty_eq_false_iff.mpr hne
  refine ⟨((s.saveRoles n f).freeCores n true).viewOf n.part, ?_⟩
  change execSaveComplete k s = _
  simp only [execSaveComplete, hnode, hfirst, hst, hempty, hall, bne_self_eq_false, Bool.not_true, Bool.or_self,
    Bool.false_eq_true, if_false]
  rfl

/-- The node keeps what it is given, its cores being free. -/
theorem State.node_preempt {s : State} {k : NodeKey} {n : Node} (hnode : s.node k = some n) (f : Nat) (saves : List Core)
    (since : Nat) : (((s.saveRoles n f).freeCores n true).modNode k fun m => m.preempt saves since).node k =
      some (n.freed.preempt saves since) := by
  have hkey := s.key_of_node hnode
  have hsaved : (s.saveRoles n f).node k = some n := by
    rw [State.node, (s.memOnly_saveRoles n f).nodes]
    exact hnode
  have hfreed : ((s.saveRoles n f).freeCores n true).node k = some n.freed := by
    rw [State.node, State.nodes_freeCores, hkey]
    refine (State.node_modNode_self (s.saveRoles n f) k (f := Node.freed) fun _ => rfl).trans ?_
    rw [hsaved, Option.map_some]
  refine (State.node_modNode_self _ k (f := fun m => m.preempt saves since) fun _ => rfl).trans ?_
  rw [hfreed, Option.map_some]

/-! ## ZEROING_COMPLETE (R347) -/

/-- A core is free for its next owner. -/
def State.endZeroing (s : State) (c : CoreId) : State := (s.modCore c fun k => { k with zeroing := false }).oweCores [c]

theorem exec_zeroingComplete {s : State} {c : CoreId} (hgated : (s.core c).gated = false) (hzero : (s.core c).zeroing = true) :
    exec (.zeroingComplete c) s = .next (s.endZeroing c) := by
  change execZeroingComplete c s = _
  simp only [execZeroingComplete, State.onCore, hgated, hzero, Bool.not_true, Bool.false_eq_true, if_false]
  rfl

theorem State.part_endZeroing (s : State) (c : CoreId) (p : PartId) : (s.endZeroing c).part p =
    { s.part p with owed := (s.part p).owed || (s.part p).units.getLsbD (c.val / 8) } := by
  rw [State.endZeroing, State.part_oweCores, List.any_cons, List.any_nil, Bool.or_false]
  rfl

/-! ## FUNCTION_LEVEL_RESET (R349, R400) -/

/-- A queue of the table belongs to a function. -/
def State.queueOf (s : State) (vf : BitVec 6) (q : Nat) : Bool :=
  match s.queues.get? q with
  | some k => k.fn == vf
  | none => false

/-- A queue as a reset leaves it. -/
def Queue.reset (q : Queue) : Queue :=
  { q with st := .disabled, halt := 0, hidx := 0, hsub := 0, hedge := false, cmd := none, req := false, wait := none,
           signals := [] }

/-- The nodes of some queues are removed. -/
def State.removeNodes (s : State) (mine : Nat → Bool) : State :=
  (s.nodes.filter fun n => mine n.key.queue.toNat).foldl State.removeNode s

/-- Some queues are reset, and their launches are gone. -/
def State.resetQueues (s : State) (mine : Nat → Bool) : State :=
  { s with launches := s.launches.filter fun l => !mine l.queue.toNat,
           queues := s.queues.map fun q => if mine q.1 then (q.1, q.2.reset) else q }

theorem exec_functionLevelReset {vf : BitVec 6} (h : vf ≠ 0) (s : State) : exec (.functionLevelReset vf) s =
    .next (((s.removeNodes (s.queueOf vf)).resetQueues (s.queueOf vf)).resetBanks vf) := by
  change execFunctionLevelReset vf s = _
  simp only [execFunctionLevelReset, beq_iff_eq, h, if_false]
  rfl

/-- A queue that no table entry names is the physical function's. -/
theorem State.queueOf_queue (s : State) {vf : BitVec 6} (h : vf ≠ 0) (q : BitVec 15) :
    s.queueOf vf q.toNat = true ↔ (s.queue q).fn = vf := by
  unfold State.queueOf State.queue
  cases s.queues.get? q.toNat with
  | none => exact ⟨nofun, fun e => absurd e.symm h⟩
  | some k => exact beq_iff_eq

theorem State.mem_nodes_removeNode {s : State} {m n : Node} (h : n ∈ (s.removeNode m).nodes) : n ∈ s.nodes ∧ n.key ≠ m.key := by
  have hfree : ((s.stopGang m).freeCores m true).nodes = s.nodes.map fun a => if a.key == m.key then a.freed else a := by
    rw [State.nodes_freeCores, ← (s.sameWork_stopGang m).nodes]
    rfl
  change n ∈ ((s.stopGang m).freeCores m true).nodes.filter (fun a => a.key != m.key) at h
  rw [hfree, List.mem_filter] at h
  obtain ⟨hn, hkey⟩ := h
  obtain ⟨a, ha, rfl⟩ := List.mem_map.mp hn
  split at hkey
  · next e => exact absurd (eq_of_beq e) (bne_iff_ne.mp hkey)
  · next e => rw [if_neg e]; exact ⟨ha, bne_iff_ne.mp hkey⟩

theorem State.mem_nodes_removeNodes {s : State} {mine : Nat → Bool} {n : Node} (h : n ∈ (s.removeNodes mine).nodes) :
    mine n.key.queue.toNat = false := by
  have hall (ns : List Node) (t : State) (h : n ∈ (ns.foldl State.removeNode t).nodes) :
      n ∈ t.nodes ∧ ∀ m ∈ ns, n.key ≠ m.key := by
    induction ns generalizing t with
    | nil => exact ⟨h, nofun⟩
    | cons m ns ih =>
      obtain ⟨hn, hne⟩ := ih _ h
      obtain ⟨hmem, hkey⟩ := State.mem_nodes_removeNode hn
      exact ⟨hmem, List.forall_mem_cons.mpr ⟨hkey, hne⟩⟩
  obtain ⟨hmem, hne⟩ := hall _ s h
  refine Bool.eq_false_iff.mpr fun hmine => ?_
  exact hne n (List.mem_filter.mpr ⟨hmem, hmine⟩) rfl

theorem State.queue_resetQueues {s : State} {mine : Nat → Bool} {q : BitVec 15} (h : mine q.toNat = true) :
    (s.resetQueues mine).queue q = (s.queue q).reset := by
  have hget : (s.resetQueues mine).queues.get? q.toNat = (s.queues.get? q.toNat).map Queue.reset := by
    refine (Sparse.get?_map s.queues _ (fun p => ?_) q.toNat).trans ?_
    · split <;> rfl
    · simp only [h, if_true]
  rw [State.queue, hget, State.queue]
  cases s.queues.get? q.toNat <;> rfl

/-! ## HOST_MEMORY_ACCESS (R279) -/

section
variable {s : State} {pa : BitVec 52} (hstage : s.boot.stage ≠ .minimal)
include hstage

theorem exec_hostMemoryAccess_read {n : Nat} (hn : 0 < n)
    (hok : ((inDram pa.toNat || inHost pa.toNat) && (inDram (pa.toNat + n - 1) || inHost (pa.toNat + n - 1))) = true)
    (p : PartId) : exec (.hostMemoryAccess p pa n none) s = .next { s with hostRead := s.readPhys p pa.toNat n } := by
  change execHostMemoryAccess p pa n none s = _
  simp only [execHostMemoryAccess, State.bar0, beq_iff_eq, hstage, hok, hn, decide_true, Bool.and_self, if_false, if_true]

theorem exec_hostMemoryAccess_write {bs : List Byte} (hn : 0 < bs.length)
    (hok : ((inDram pa.toNat || inHost pa.toNat) &&
      (inDram (pa.toNat + bs.length - 1) || inHost (pa.toNat + bs.length - 1))) = true) (p : PartId) (n : Nat) :
    exec (.hostMemoryAccess p pa n (some bs)) s = .next (s.writePhys p pa.toNat bs false) := by
  change execHostMemoryAccess p pa n (some bs) s = _
  simp only [execHostMemoryAccess, State.bar0, beq_iff_eq, hstage, hok, hn, decide_true, Bool.and_self, if_false, if_true]

end

/-- Settles O52: a save writes global memory alone once parked pump commands have ended; freeing a node's cores clears each of them;
a core that has been zeroed changes only what partitions are owed; a reset removes the nodes of the function's queues and disables
these, and passing on its banks changes neither; an access of the host is the model's own read or write. -/
theorem savesAndResets : Obligations.SavesAndResets := by
  unfold Obligations.SavesAndResets
  intro s
  refine ⟨fun c n f hgated hnode hfirst hdrain hsaving hdone hkeep => ?_, fun k n f hnode hfirst hst hne hsaving => ?_,
    fun c hgated hzero => ?_, fun vf hvf => ?_, fun p pa n hstage hn hok => ?_⟩
  · have hsame := (s.sameWork_beginSave c n f).core c
    obtain ⟨k, hk⟩ := s.core_beginSave c n f
    exact ⟨_, exec_drainComplete hgated hnode hfirst hdrain hsaving hdone (State.not_withdrawable hkeep),
      s.saved_beginSave c n f, by rw [hk]; rfl, by rw [hk]; rfl, hsame.tiles, hsame.accs, hsame.task⟩
  · obtain ⟨since, he⟩ := exec_saveComplete hnode hfirst hst hne hsaving
    exact ⟨_, _, he, State.node_preempt hnode f _ since, rfl, fun c hc => State.core_freeCores _ hc⟩
  · exact ⟨_, exec_zeroingComplete hgated hzero, rfl, s.part_endZeroing c,
      (s.memSame_modCore c rfl).trans (State.memSame_owe _ _)⟩
  · have hsame := State.sameWork_resetBanks ((s.removeNodes (s.queueOf vf)).resetQueues (s.queueOf vf)) vf
    refine ⟨_, exec_functionLevelReset hvf s, fun q hq => ?_, fun n hn hfn => ?_⟩
    · rw [State.queue, hsame.queues, ← State.queue, State.queue_resetQueues ((s.queueOf_queue hvf q).mpr hq)]
      exact ⟨rfl, rfl, rfl⟩
    · rw [hsame.nodes] at hn
      exact absurd ((s.queueOf_queue hvf _).mpr hfn) (Bool.eq_false_iff.mp (State.mem_nodes_removeNodes hn))
  · refine ⟨exec_hostMemoryAccess_read hstage hn hok p, fun bs hbs => ?_⟩
    subst hbs
    exact exec_hostMemoryAccess_write hstage hn hok p bs.length

end Sys2Proof.Machine
end

section
namespace Sys2Proof.Machine

/-! # A precise trap reaches its handler (O19)

What a stream waits for is abandoned by changing counted registers and that stream alone (`Core.OnlyCounted`). So the stopped stream
leaves CTRL, the vectors and the delegation as R336 decides on them, and CTRL's diversion leaves the stopped stream as it is. -/

/-! ## What abandoning a wait changes (R337) -/

/-- From k to l only counted registers have changed. -/
def Core.OnlyCounted (k l : Core) : Prop := ∃ tiles accs sigs, l = { k with tiles := tiles, accs := accs, sigs := sigs }

section
variable {k l m : Core}

theorem Core.OnlyCounted.refl (k : Core) : k.OnlyCounted k := ⟨k.tiles, k.accs, k.sigs, rfl⟩

theorem Core.OnlyCounted.trans (h : k.OnlyCounted l) (h' : l.OnlyCounted m) : k.OnlyCounted m := by
  obtain ⟨_, _, _, rfl⟩ := h
  obtain ⟨tiles, accs, sigs, rfl⟩ := h'
  exact ⟨tiles, accs, sigs, rfl⟩

theorem Core.OnlyCounted.stream (h : k.OnlyCounted l) (x : StreamId) : l.stream x = k.stream x := by
  obtain ⟨_, _, _, rfl⟩ := h
  cases x <;> rfl

theorem Core.onlyCounted_setCnt (k : Core) (x : CReg) (n : Count) : k.OnlyCounted (k.setCnt x n) := by
  cases x <;> exact ⟨_, _, _, rfl⟩

theorem Core.onlyCounted_releaseReg (k : Core) (x : CReg) : k.OnlyCounted (k.releaseReg x) := k.onlyCounted_setCnt ..

theorem Core.onlyCounted_recredit (k : Core) (debits : List (CReg × BitVec 16)) : k.OnlyCounted (k.recredit debits) := by
  refine debits.foldlRecOn _ (.refl k) fun j hj d _ => hj.trans ?_
  dsimp only
  split
  · exact j.onlyCounted_setCnt ..
  · exact .refl j

end

/-- A stream that no longer waits for anything. -/
def Stream.waitless (v : Stream) : Stream := { v with pend := .none, walk := none, again := false }

theorem Core.abandonWait_eq (k : Core) (x : StreamId) :
    ∃ l, k.OnlyCounted l ∧ k.abandonWait x = l.modStream x Stream.waitless := by
  refine ⟨_, ?_, rfl⟩
  split
  · exact k.onlyCounted_recredit _
  · exact (k.onlyCounted_releaseReg _).trans (Core.onlyCounted_releaseReg ..)
  · exact (k.onlyCounted_recredit _).trans (Core.onlyCounted_releaseReg ..)
  · exact (k.onlyCounted_recredit _).trans (Core.onlyCounted_releaseReg ..)
  · exact .refl k

/-! ## The stream stops, and CTRL is diverted (R336) -/

/-- A stream that its trap has stopped. -/
def Stream.trapped (v : Stream) : Stream := { v.waitless with st := .stopped }

/-- CTRL at the first instruction of a handler. -/
def Stream.diverted (v : Stream) (pc : VAddr) : Stream :=
  { v.waitless with st := if v.dbg == .stopped then .stopped else .running, pc := pc, ibuf := none }

/-- The core as CTRL enters the handler of level l with its trap set. -/
def Core.enterLevel (k : Core) (set : TrapSet) (l : Nat) : Core :=
  if l == 1 then { k with ctrl := k.ctrl.diverted k.uhvec, trap1 := set, entry1 := k.hl, hl := 1 }
  else { k with ctrl := k.ctrl.diverted k.shvec, trap2 := set, entry2 := k.hl, hl := 2 }

section
variable (k : Core) (set : TrapSet) (l : Nat)

theorem Core.cistern_enterLevel : (k.enterLevel set l).cistern = k.cistern := by
  unfold Core.enterLevel
  split <;> rfl

theorem Core.stream_enterLevel_ne {y : StreamId} (hy : y ≠ .ctrl) : (k.enterLevel set l).stream y = k.stream y := by
  unfold Core.enterLevel
  cases y with
  | load | exec | store => split <;> rfl
  | ctrl => exact absurd rfl hy

end

theorem Core.onlyCounted_divert (k : Core) (t : TrapRec) (l : Nat) :
    (k.enterLevel (t.set k.ctrl.pc) l).OnlyCounted (k.divert t l) := by
  obtain ⟨_, ⟨tiles, accs, sigs, rfl⟩, e⟩ := k.abandonWait_eq .ctrl
  refine ⟨tiles, accs, sigs, ?_⟩
  simp only [Core.divert, e, Core.enterLevel]
  cases l == 1 <;> rfl

section
variable {t : TrapRec} (hx : t.x ≠ .ctrl)
include hx

/-- R336 for a trap of another stream, with no handler running and CTRL at a boundary: level 1 where the cause is delegated and
UHVEC is set, else level 2. -/
theorem Core.deliveryOf_of_free {k : Core} (hs : t.stage2 = false) (hhl : k.hl = 0) (hesc : k.ctrlEsc = false)
    (hbusy : k.ctrlBusy = false) (hvec : (k.delegated t.base = true ∧ k.uhvec ≠ 0) ∨ k.shvec ≠ 0) :
    k.deliveryOf t = .level (if k.delegated t.base = true ∧ k.uhvec ≠ 0 then 1 else 2) := by
  have hown : (t.x == .ctrl) = false := beq_eq_false_iff_ne.mpr hx
  by_cases huser : k.delegated t.base = true ∧ k.uhvec ≠ 0
  · have hlevel : (k.delegated t.base && k.uhvec != 0) = true := by simpa using huser
    simp only [Core.deliveryOf, hs, hhl, hesc, hbusy, hown, hlevel, if_pos huser]
    rfl
  · have hlevel : (k.delegated t.base && k.uhvec != 0) = false := by simpa using huser
    have hset : (k.shvec == 0) = false := beq_eq_false_iff_ne.mpr (hvec.resolve_left huser)
    simp only [Core.deliveryOf, hs, hhl, hesc, hbusy, hown, hlevel, hset, if_neg huser]
    rfl

variable (ha : t.async = false)
include ha

theorem Core.stopFor_eq (k : Core) : ∃ j, k.OnlyCounted j ∧ k.stopFor t = j.modStream t.x Stream.trapped := by
  obtain ⟨j, hj, e⟩ := k.abandonWait_eq t.x
  refine ⟨j, hj, ?_⟩
  simp only [Core.stopFor, ha, beq_iff_eq, hx, Bool.or_false, if_false, e, Core.modStream, Core.setStream_setStream,
    Core.stream_setStream_self]
  rfl

/-- The stop leaves everything on which R336 decides. -/
theorem Core.deliveryOf_stopFor (k : Core) (u : TrapRec) : (k.stopFor t).deliveryOf u = k.deliveryOf u := by
  obtain ⟨_, ⟨_, _, _, rfl⟩, e⟩ := k.stopFor_eq hx ha
  rw [e]
  cases hy : t.x with
  | load | exec | store => rfl
  | ctrl => exact absurd hy hx

/-- The core once a trap has stopped its stream and CTRL has entered the handler of level l. -/
theorem Core.divert_stopFor (k : Core) (l : Nat) : ∃ j, (k.enterLevel (t.set k.ctrl.pc) l).OnlyCounted j ∧
    (k.stopFor t).divert t l = j.modStream t.x Stream.trapped := by
  obtain ⟨_, ⟨_, _, _, rfl⟩, e⟩ := k.stopFor_eq hx ha
  obtain ⟨tiles, accs, sigs, e'⟩ := (k.stopFor t).onlyCounted_divert t l
  refine ⟨_, ⟨tiles, accs, sigs, rfl⟩, ?_⟩
  rw [e', e]
  unfold Core.enterLevel
  cases hy : t.x with
  | load | exec | store => cases l == 1 <;> rfl
  | ctrl => exact absurd hy hx

end

/-! ## The trap on the machine -/

section
variable (s : State) (c : CoreId)

@[simp] theorem State.core_dropWatch (d : CoreId) (x : StreamId) : (s.dropWatch d x).core c = s.core c := rfl

@[simp] theorem State.core_takeTurn (k : Contest) (rank : Nat) : (s.takeTurn k rank).core c = s.core c := rfl

theorem State.memSame_dropWatch (x : StreamId) : s.memSame (s.dropWatch c x) := ⟨fun _ _ => rfl, fun _ _ => rfl⟩

theorem State.memSame_takeTurn (k : Contest) (rank : Nat) : s.memSame (s.takeTurn k rank) := ⟨fun _ _ => rfl, fun _ _ => rfl⟩

end

/-- A trap that R336 brings to a level: CTRL is diverted, its hold ends, and the trap is counted and noted in its place. -/
theorem State.deliver_of_level {s : State} {c : CoreId} {t : TrapRec} {l : Nat} (h : (s.core c).deliveryOf t = .level l)
    (ha : t.async = false) : s.deliver c t =
      (((s.modCore c fun k => k.divert t l).dropWatch c .ctrl).sketch 0x0A c t.epc 1).takeTurn (.trap c) (trapOrder t) := by
  simp only [State.deliver, State.atBoundary, h, ha, Bool.false_eq_true, if_false]

/-- The trap of the instruction that a stream has in issue. -/
def State.preciseTrap (s : State) (c : CoreId) (x : StreamId) (base : BitVec 7) (ea : Word) : TrapRec where
  base := base
  x := x
  async := false
  epc := (s.stream c x).pc
  eaddr := ea
  eword0 := (s.stream c x).word.extractLsb' 0 64
  eword1 := ((s.stream c x).word.extractLsb' 64 32).zeroExtend 64
  len := (s.stream c x).len
  hl := (s.core c).hl
  tick := s.tick

section
variable (s : State) (c : CoreId) (x : StreamId) (base : BitVec 7) (ea : Word)

theorem State.trapOn_eq : s.trapOn c x base ea =
    (s.modCore c fun k => k.stopFor (s.preciseTrap c x base ea)).deliver c (s.preciseTrap c x base ea) := rfl

theorem State.preciseTrap_cause : (s.preciseTrap c x base ea).cause = .ofNat 10 (base.toNat * 4 + Spec.code x) := by
  have hpack (y : Nat) (hy : y < 4) : 0#1 ++ base ++ BitVec.ofNat 2 y = .ofNat 10 (base.toNat * 4 + y) := by
    refine BitVec.eq_of_toNat_eq ?_
    rw [BitVec.toNat_append, ← Nat.shiftLeft_add_eq_or_of_lt (BitVec.isLt _), Nat.shiftLeft_eq, BitVec.toNat_append,
      BitVec.toNat_ofNat, BitVec.toNat_ofNat, BitVec.toNat_ofNat, Nat.zero_mod, Nat.zero_shiftLeft, Nat.zero_or]
    have hbase := base.isLt
    omega
  cases x <;> exact hpack _ (by decide)

/-- The trap set that the handler of a stopped stream reads (R332, R334). -/
theorem State.preciseTrap_set {x : StreamId} (hx : x ≠ .ctrl) (pc : VAddr) : (s.preciseTrap c x base ea).set pc =
    Spec.precise (s.stream c x) (Spec.code x) base ea pc := by
  have hown : (x == .ctrl) = false := beq_eq_false_iff_ne.mpr hx
  have hlow (w : Word96) : w.extractLsb' 0 64 = .ofNat 64 w.toNat := by
    simp [BitVec.extractLsb']
  have hhigh (w : Word96) : (w.extractLsb' 64 32).zeroExtend 64 = .ofNat 64 (w.toNat / 2 ^ 64) := by
    refine BitVec.eq_of_toNat_eq ?_
    simp only [BitVec.truncate_eq_setWidth, BitVec.toNat_setWidth, BitVec.extractLsb'_toNat, BitVec.toNat_ofNat,
      Nat.shiftRight_eq_div_pow]
    omega
  rw [TrapRec.set, State.preciseTrap_cause]
  simp only [State.preciseTrap, Spec.precise, hown, hlow, hhigh, Bool.false_and, Bool.false_eq_true, if_false]

theorem State.preciseTrap_stage2 (h : ¬ Spec.neverDelivered base ea) : (s.preciseTrap c x base ea).stage2 = false := by
  simpa [State.preciseTrap, TrapRec.stage2, Spec.neverDelivered, Cause.stage2Fault, Cause.fetchFault] using h

end

section
variable {s : State} {c : CoreId} {x : StreamId} {base : BitVec 7} {ea : Word} (hx : x ≠ .ctrl)
include hx

/-- What a precise trap does where R336 brings it to a level: its core, and no byte of memory. -/
theorem State.trapOn_of_level {l : Nat} (h : (s.core c).deliveryOf (s.preciseTrap c x base ea) = .level l) :
    (∃ j, ((s.core c).enterLevel (Spec.precise (s.stream c x) (Spec.code x) base ea (s.core c).ctrl.pc) l).OnlyCounted j ∧
      (s.trapOn c x base ea).core c = j.modStream x Stream.trapped) ∧ s.memSame (s.trapOn c x base ea) := by
  have hlevel : ((s.modCore c fun k => k.stopFor (s.preciseTrap c x base ea)).core c).deliveryOf (s.preciseTrap c x base ea) =
      .level l := by
    rw [State.core_modCore_self, Core.deliveryOf_stopFor (t := s.preciseTrap c x base ea) hx rfl, h]
  obtain ⟨j, hj, e⟩ := Core.divert_stopFor (t := s.preciseTrap c x base ea) hx rfl (s.core c) l
  rw [s.preciseTrap_set c base ea hx] at hj
  rw [s.trapOn_eq, State.deliver_of_level hlevel rfl, State.modCore_modCore]
  refine ⟨⟨j, hj, ?_⟩, ?_⟩
  · rw [State.core_takeTurn, State.core_sketch, State.core_dropWatch, State.core_modCore_self, e]
    rfl
  · have hcistern : (((s.core c).stopFor (s.preciseTrap c x base ea)).divert (s.preciseTrap c x base ea) l).cistern =
        (s.core c).cistern := by
      obtain ⟨_, _, _, rfl⟩ := hj
      rw [e, Core.modStream_cistern]
      exact Core.cistern_enterLevel ..
    exact (((s.memSame_modCore c hcistern).trans (State.memSame_dropWatch ..)).trans (State.memSame_sketch ..)).trans
      (State.memSame_takeTurn ..)

end

theorem Stream.diverted_st {v : Stream} (h : v.dbg ≠ .stopped) (pc : VAddr) : (v.diverted pc).st = .running :=
  if_neg fun e => h (eq_of_beq e)

/-- Settles O19: the stop and the diversion change counted registers, the stopped stream, CTRL and the trap set of the level alone,
and the level is that of R336. -/
theorem trapReachesHandler : Obligations.TrapReachesHandler := by
  unfold Obligations.TrapReachesHandler
  intro s c x base ea hx hnever
  dsimp only
  intro hhl hesc hbusy hdbg hvec
  have hdelivery : (s.core c).deliveryOf (s.preciseTrap c x base ea) =
      .level (if Spec.delegates (s.core c) base = true ∧ (s.core c).uhvec ≠ 0 then 1 else 2) :=
    Core.deliveryOf_of_free hx (s.preciseTrap_stage2 c x base ea hnever) hhl hesc hbusy hvec
  obtain ⟨⟨j, hj, e⟩, hmem⟩ := State.trapOn_of_level hx hdelivery
  have hself : j.stream x = (s.core c).stream x := (hj.stream x).trans (Core.stream_enterLevel_ne _ _ _ hx)
  have hctrl : ((s.trapOn c x base ea).core c).ctrl = j.ctrl := by
    rw [e]
    exact Core.stream_modStream_ne _ _ hx.symm
  rw [hctrl]
  simp only [e, Core.stream_modStream_self, hself, Core.modStream_hl, Core.modStream_trap1, Core.modStream_trap2,
    Core.modStream_entry1, Core.modStream_entry2, Core.modStream_bank1, Core.modStream_bank2]
  have hst (pc : VAddr) : ((s.core c).ctrl.diverted pc).st = .running := Stream.diverted_st hdbg pc
  refine ⟨rfl, rfl, rfl, rfl, rfl, rfl, fun y hy hyctrl => ?_, ?_⟩
  · rw [Core.stream_modStream_ne _ _ hy, hj.stream, Core.stream_enterLevel_ne _ _ _ hyctrl]
  · by_cases huser : Spec.delegates (s.core c) base = true ∧ (s.core c).uhvec ≠ 0
    · simp only [if_pos huser] at hj ⊢
      obtain ⟨_, _, _, rfl⟩ := hj
      exact ⟨hst _, rfl, rfl, rfl, rfl, hhl, rfl, rfl, rfl, rfl, rfl, hmem⟩
    · simp only [if_neg huser] at hj ⊢
      obtain ⟨_, _, _, rfl⟩ := hj
      exact ⟨hst _, rfl, rfl, rfl, rfl, rfl, hhl, rfl, rfl, rfl, rfl, hmem⟩

end Sys2Proof.Machine
end

section
namespace Sys2Proof.Machine

/-! # The host's answers (O46)

RETRY and SKIP are `Core.resumeEscal` on the core of the escalation, and nothing more where no trap is held. ABANDON ends a node:
resolving edges afterwards changes only nodes that wait, so the node stays as it ended. MBRD_WRITE only posts records. -/

/-! ## RETRY and SKIP (R339) -/

theorem exec_answerRetry (fn : BitVec 6) (id : Word) (role : BitVec 16) (s : State) :
    exec (.answerRetry fn id role) s = .next (s.answer fn id role false) := rfl

theorem exec_answerSkip (fn : BitVec 6) (id : Word) (role : BitVec 16) (s : State) :
    exec (.answerSkip fn id role) s = .next (s.answer fn id role true) := rfl

theorem exec_answerAbandon (fn : BitVec 6) (id : Word) (role : BitVec 16) (s : State) :
    exec (.answerAbandon fn id role) s = execAnswerAbandon fn id role s := rfl

/-- A function's mailbox takes what the host writes, but in minimal mode that of a virtual function does not (R389). -/
theorem State.not_discards {s : State} {fn : BitVec 6} (h : s.boot.stage ≠ .minimal ∨ fn = 0) :
    ¬ (s.boot.stage == .minimal && fn != 0) = true := by
  rw [Bool.and_eq_true_iff, beq_iff_eq, bne_iff_ne]
  rintro ⟨hstage, hfn⟩
  exact h.elim (· hstage) hfn

theorem State.ignoreAnswer_of_counted {s : State} {fn : BitVec 6} (h : s.boot.stage ≠ .minimal ∨ fn = 0) :
    s.ignoreAnswer fn = s.modMbox fn fun m => { m with ignored := m.ignored + 1 } :=
  if_neg (State.not_discards h)

theorem State.deliverHeld_of_nil {s : State} {c : CoreId} (h : (s.core c).held = []) : s.deliverHeld c = s := by
  simp [State.deliverHeld, Core.canDeliver, h]

/-- CTRL goes on after an escalation of its own (R339, R427, R280). -/
theorem Core.resumeEscal_own {e : Escal} (h : e.trap.x = .ctrl ∨ e.trap.async = true) (k : Core) (pc : VAddr) :
    k.resumeEscal e pc = { k with
      escal := k.escal.erase e
      ctrlEsc := false
      ctrl := { k.ctrl with
        st := if k.ctrl.dbg = .stopped then .stopped
          else if k.hl = 0 ∧ k.ctrl.at_ = true ∧ k.ctrl.dr = true then .drainStop else .running
        pc := pc
        pend := .none
        walk := none
        ibuf := none } } := by
  have hown : (e.trap.x == .ctrl || e.trap.async) = true := by simpa using h
  simp only [Core.resumeEscal, hown, if_true, beq_iff_eq, Bool.and_eq_true, and_assoc]

/-- Another stream goes on where its trap has stopped it. -/
theorem Core.resumeEscal_stopped {e : Escal} (h : ¬ (e.trap.x = .ctrl ∨ e.trap.async = true)) {k : Core}
    (hst : (k.stream e.trap.x).st = .stopped) (pc : VAddr) :
    k.resumeEscal e pc = { k with escal := k.escal.erase e }.restart e.trap.x pc := by
  have hown : (e.trap.x == .ctrl || e.trap.async) = false := by simpa using h
  have hstop : ({ k with escal := k.escal.erase e }.stream e.trap.x).st = .stopped := by
    rw [← hst]
    cases e.trap.x <;> rfl
  simp only [Core.resumeEscal, hown, Bool.false_eq_true, if_false, hstop, beq_self_eq_true, if_true]

theorem Core.held_resumeEscal (k : Core) (e : Escal) (pc : VAddr) : (k.resumeEscal e pc).held = k.held := by
  unfold Core.resumeEscal
  dsimp only
  split
  · rfl
  · split
    · exact Core.modStream_held ..
    · rfl

section
variable {s : State} {fn : BitVec 6} {id : Word} {role : BitVec 16} {c : CoreId} {e : Escal}

theorem State.answer_of_none (h : s.escalOf fn id role = none) (skip : Bool) : s.answer fn id role skip = s.ignoreAnswer fn := by
  simp only [State.answer, h]

variable (h : s.escalOf fn id role = some (c, e))
include h

theorem State.answer_of_gated (hg : (s.core c).gated = true) (skip : Bool) :
    s.answer fn id role skip = { s with answers := s.answers ++ [⟨fn, id, role, skip⟩] } := by
  simp only [State.answer, h, hg, if_true]

/-- An answer that is taken, with no trap held, resumes the escalation and changes nothing else. -/
theorem State.answer_of_taken (hg : (s.core c).gated = false) (hlost : e.trap.countLost = false) (hheld : (s.core c).held = [])
    (skip : Bool) (hskip : skip = true → e.trap.base ≠ Cause.fetchFault ∧ e.trap.base ≠ Cause.illegalPrefix) :
    s.answer fn id role skip =
      s.modCore c fun k => k.resumeEscal e (if skip then e.trap.epc + .ofNat 51 e.trap.len else e.trap.epc) := by
  have hpass : (skip && (e.trap.base == Cause.fetchFault || e.trap.base == Cause.illegalPrefix)) = false := by
    cases skip with
    | false => rfl
    | true => simpa using hskip rfl
  simp only [State.answer, h, hg, hlost, hpass, Bool.false_eq_true, if_false]
  refine State.deliverHeld_of_nil ?_
  rw [State.core_modCore_self, Core.held_resumeEscal, hheld]

end

/-! ## ABANDON (R339, R348) -/

/-- A change of nodes that keeps their keys, as the node of a key sees it. -/
theorem State.node_mapNodes (s : State) (sel : Node → Bool) {f : Node → Node} (hf : ∀ m, (f m).key = m.key) (k : NodeKey) :
    (s.mapNodes sel f).node k = (s.node k).map fun m => if sel m then f m else m := by
  have hkey : ((fun m : Node => m.key == k) ∘ fun m => if sel m then f m else m) = fun m => m.key == k := by
    funext m
    simp only [Function.comp_apply]
    split
    · rw [hf]
    · rfl
  rw [State.node, State.mapNodes, List.find?_map, hkey]
  rfl

/-- A node that a change does not select stays as it is. -/
theorem State.node_mapNodes_of_not {s : State} {sel : Node → Bool} {f : Node → Node} (hf : ∀ m, (f m).key = m.key) {k : NodeKey}
    {n : Node} (h : s.node k = some n) (hn : sel n = false) : (s.mapNodes sel f).node k = some n := by
  rw [State.node_mapNodes s sel hf, h, Option.map_some, hn, if_neg Bool.false_ne_true]

section
variable {s : State} {k : NodeKey} {n : Node} (h : s.node k = some n) (hst : n.st ≠ .waiting)
include h hst

/-- Edges change nodes that wait, and no other (R322). -/
theorem State.node_resolvePass (l : Launch) : (s.resolvePass l).node k = some n := by
  refine State.node_mapNodes_of_not (fun m => ?_) h ?_
  · split <;> rfl
  · rw [beq_eq_false_iff_ne.mpr hst, Bool.and_false, Bool.false_and]

theorem State.node_resolveRun (i : Nat) : (s.resolveRun i).node k = some n := by
  induction i generalizing s with
  | zero => exact h
  | succ i ih =>
    exact ih (s.launches.foldlRecOn (motive := fun t : State => t.node k = some n) _ h
      fun _ ht l _ => State.node_resolvePass ht hst l)

theorem State.node_enterWell : s.enterWell.node k = some n := by
  refine State.node_mapNodes_of_not (f := fun m => { m with st := .ready, readyAt := s.tick, since := s.viewOf m.part })
    (fun _ => rfl) h ?_
  rw [beq_eq_false_iff_ne.mpr hst, Bool.false_and, Bool.false_and]

theorem State.node_resolve : s.resolve_.node k = some n := State.node_enterWell (State.node_resolveRun h hst _) hst

end

/-- A node that has ended (R322, R348). -/
def Node.retire (n : Node) (aband : Bool) : Node :=
  { n with st := .retired, aband := aband, draining := false, first := none, saves := [] }

theorem State.node_retireNode {s : State} {n m : Node} (h : s.node n.key = some m) (aband zero : Bool) :
    (s.retireNode n aband zero).node n.key = some (m.freed.retire aband) := by
  have hfree : (s.freeCores n zero).node n.key = some m.freed := by
    rw [State.node, State.nodes_freeCores]
    exact (State.node_modNode_self s n.key (f := Node.freed) fun _ => rfl).trans (by rw [h, Option.map_some])
  have hretire : ((s.freeCores n zero).modNode n.key fun m => m.retire aband).node n.key = some (m.freed.retire aband) := by
    rw [State.node_modNode_self _ n.key (f := fun m => m.retire aband) fun _ => rfl, hfree, Option.map_some]
  exact State.node_resolve hretire nofun

/-- A node that has not ended is RETIRED by an abandonment, with none of its edges to be taken. -/
theorem State.node_abandonNode {s : State} {n : Node} (h : s.node n.key = some n) (hover : n.over = false) :
    (s.abandonNode n).node n.key = some (n.freed.retire true) := by
  rw [State.abandonNode, hover, if_neg Bool.false_ne_true]
  refine State.node_retireNode ?_ true true
  rw [State.node, (s.sameWork_stopGang n).nodes]
  exact h

theorem State.node_of_nodeOf {s : State} {c : CoreId} {n : Node} (h : s.nodeOf c = some n) : s.node n.key = some n := by
  unfold State.nodeOf at h
  split at h
  · rw [s.key_of_node h, h]
  · cases h

/-! ## MBRD_WRITE (R376) -/

theorem exec_mbrdWrite {s : State} {fn : BitVec 6} (h : s.boot.stage ≠ .minimal ∨ fn = 0) (v : BitVec 32) :
    exec (.mbrdWrite fn v) s = .next ((s.modMbox fn fun m => { m with mbrd := v }).refill fn
      ((s.modMbox fn fun m => { m with mbrd := v }).mboxes[fn.toNat]).heldBack.length) := by
  change execMbrdWrite fn v s = _
  rw [execMbrdWrite, if_neg (State.not_discards h)]

/-- From s to t the mailbox of fn keeps the host's read index, and no byte of memory changes. -/
structure State.Posts (fn : BitVec 6) (s t : State) : Prop where
  mbrd : t.mboxes[fn.toNat].mbrd = s.mboxes[fn.toNat].mbrd
  memSame : s.memSame t

section
variable {fn : BitVec 6} {s t u : State}

theorem State.Posts.refl (s : State) : State.Posts fn s s := ⟨rfl, s.memSame_refl⟩

theorem State.Posts.trans (h : State.Posts fn s t) (h' : State.Posts fn t u) : State.Posts fn s u :=
  ⟨h'.mbrd.trans h.mbrd, h.memSame.trans h'.memSame⟩

theorem State.memSame_modMbox (s : State) (fn : BitVec 6) (f : Mailbox → Mailbox) : s.memSame (s.modMbox fn f) :=
  ⟨fun _ _ => rfl, fun _ _ => rfl⟩

theorem State.mboxes_modMbox_self (s : State) (fn : BitVec 6) (f : Mailbox → Mailbox) :
    (s.modMbox fn f).mboxes[fn.toNat] = f s.mboxes[fn.toNat] :=
  Vector.getElem_set_self _

theorem State.posts_modMbox (s : State) {f : Mailbox → Mailbox} (hf : ∀ m, (f m).mbrd = m.mbrd) : State.Posts fn s (s.modMbox fn f) :=
  ⟨by rw [State.mboxes_modMbox_self, hf], s.memSame_modMbox ..⟩

theorem Mailbox.mbrd_post (m : Mailbox) (r : BitVec 512) : (m.post r).mbrd = m.mbrd := by
  unfold Mailbox.post
  split <;> rfl

theorem State.posts_sendIrq (s : State) (g : BitVec 6) (vec : BitVec 11) : State.Posts fn s (s.sendIrq g vec) := by
  unfold State.sendIrq
  repeat' split
  all_goals exact ⟨rfl, fun _ _ => rfl, fun _ _ => rfl⟩

theorem State.posts_postMail (s : State) (r : BitVec 512) : State.Posts fn s (s.postMail fn r) := by
  have hpost := s.posts_modMbox (fn := fn) (Mailbox.mbrd_post · r)
  unfold State.postMail
  split
  · exact .refl s
  · dsimp only
    split
    · exact hpost.trans (State.posts_sendIrq ..)
    · exact hpost

theorem State.posts_refill (s : State) (n : Nat) : State.Posts fn s (s.refill fn n) := by
  induction n generalizing s with
  | zero => exact .refl s
  | succ n ih =>
    rw [State.refill]
    split
    · exact .refl s
    · next r rest _ =>
      have hempty : State.Posts fn s (s.modMbox fn fun m => { m with heldBack := [] }) := s.posts_modMbox fun _ => rfl
      have hrest (t : State) : State.Posts fn t (t.modMbox fn fun m => { m with heldBack := rest }) :=
        t.posts_modMbox fun _ => rfl
      split
      · exact ((hempty.trans (State.posts_postMail ..)).trans (hrest _)).trans (ih _)
      · exact .refl s

end

/-- Settles O46: an answer that is ignored is counted, one for a gated core is kept, RETRY and SKIP are `Core.resumeEscal` on the core
of the escalation, ABANDON leaves the node as `Node.retire` does, and MBRD_WRITE sets the index and posts records. -/
theorem hostAnswers : Obligations.HostAnswers := by
  unfold Obligations.HostAnswers
  intro s fn id role
  refine ⟨fun hnone hcount => ?_, fun c e h hg => ?_, fun c e h hg hlost hheld hst => ?_, fun c e n h hnode hover => ?_,
    fun v hstage => ?_⟩
  · have hignore := State.ignoreAnswer_of_counted hcount
    refine ⟨?_, ?_, ?_⟩
    · rw [exec_answerRetry, State.answer_of_none hnone, hignore]
    · rw [exec_answerSkip, State.answer_of_none hnone, hignore]
    · rw [exec_answerAbandon, execAnswerAbandon, hnone, ← hignore]
  · exact ⟨congrArg _ (State.answer_of_gated h hg false), congrArg _ (State.answer_of_gated h hg true)⟩
  · intro goes
    have hgoes (pc : VAddr) : (s.modCore c fun k => k.resumeEscal e pc) = goes pc := by
      refine congrArg (s.setCore c) ?_
      by_cases hown : e.trap.x = .ctrl ∨ e.trap.async = true
      · exact (Core.resumeEscal_own hown _ pc).trans (if_pos hown).symm
      · refine (Core.resumeEscal_stopped hown (hst.resolve_left hown) pc).trans (.trans ?_ (if_neg hown).symm)
        simp only [Core.restart, beq_iff_eq]
    refine ⟨?_, fun hfetch hpre => ?_⟩
    · rw [← hgoes, exec_answerRetry, State.answer_of_taken h hg hlost hheld false nofun, if_neg Bool.false_ne_true]
    · rw [← hgoes, exec_answerSkip, State.answer_of_taken h hg hlost hheld true fun _ => ⟨hfetch, hpre⟩, if_pos rfl]
  · refine ⟨_, _, ?_, State.node_abandonNode (State.node_of_nodeOf hnode) hover, rfl, rfl⟩
    simp only [exec_answerAbandon, execAnswerAbandon, h, hnode]
  · have hposts := (s.modMbox fn fun m => { m with mbrd := v }).posts_refill (fn := fn)
      ((s.modMbox fn fun m => { m with mbrd := v }).mboxes[fn.toNat]).heldBack.length
    exact ⟨_, exec_mbrdWrite hstage v, hposts.mbrd.trans (by rw [State.mboxes_modMbox_self]),
      (s.memSame_modMbox ..).trans hposts.memSame⟩

end Sys2Proof.Machine
end
